-- ==== Sys2Proof/Word.lean ====
section
/-! DEFINITION. The word types of the PT-416: characters, station numbers, track sets and the 16-bit numbers of the layouts. -/

namespace Sys2Proof

/-- One character of a frame or of the mix port (R34): eight data bits. -/
abbrev Byte := BitVec 8

/-- A 16-bit number: field counts (R30), target and required sets, the CRC (R37). -/
abbrev Word16 := BitVec 16

/-- A station number, 0 to 15 (R18). -/
abbrev Station := Fin 16

/-- A set of tracks: bit 0 V, bit 1 A1, bit 2 A2, bit 3 CUE (12 §12.3). -/
abbrev Tracks := BitVec 4

/-- A GPI line: index 0 is line 1, index 3 is line 4. -/
abbrev GpiLine := Fin 4

end Sys2Proof
end

