-- ==== Sys2Proof/Syntax.lean ====
section
/-! DEFINITION. The commands of the PT-416: one constructor for each row of spec/opcode_table.json, with the data the
event brings (log 3: the table gives the rows no fields). -/

namespace Sys2Proof

/-- The strap pins as read at the end of HOLD (R18, Table 2.1). -/
structure Straps where
  station : Station
  role : BitVec 2
  std : BitVec 2
  deriving DecidableEq, Repr

/-- A label HH:MM:SS:FF as a request or a timecode word carries it (R5). -/
structure Label where
  hours : Nat
  minutes : Nat
  seconds : Nat
  frames : Nat
  deriving DecidableEq, Repr

/-- A REQUEST frame that passed its CRC: SOURCE, and of its payload the two characters of TARGET in the order of their
arrival, TAG and the parameter bytes (Table 12.3). The CODE is the command's own. -/
structure Request where
  source : Byte
  targetHigh : Byte
  targetLow : Byte
  tag : Byte
  params : List Byte
  deriving DecidableEq, Repr

/-- The commands. A `time` is a reading of the 12 MHz clock counted from the end of HOLD (log 3). -/
inductive Instr
  /-- Power-up (R19). -/
  | powerUp
  /-- The dip timer reaches 2 ms (R19). -/
  | brownout
  /-- The RESET pin has stayed low for 10 µs (R19). -/
  | resetPinLow
  /-- The good timer reaches 50 ms, with the straps as they stand then; `none` is the supply's fall to 4.55 V or below in
  HOLD, which has no row of its own (R18, R19; log 6). -/
  | supplyRecovery (straps : Option Straps)
  /-- The RESET pin is released; the straps as they stand then (R18, R19). -/
  | resetPinRelease (straps : Straps)
  /-- A reference pulse at a time, with REFID (true for the first field) (R23). -/
  | referencePulse (time : Nat) (firstField : Bool)
  /-- The missing limit passes in PRESENT (R24). -/
  | missingLimitPresent
  /-- The missing limit passes in SETTLING (R26). -/
  | missingLimitSettling
  /-- The internal timebase completes a nominal period (R22). -/
  | internalBoundary
  /-- The elapsed count k has reached D (R158). -/
  | transitionComplete
  /-- A mix port record finishes sending (R170). -/
  | mixRecordEnd
  /-- A heard entry has reached age 250 (R62). -/
  | peerSilenceClear (station : Station)
  /-- A waiting REPORT has reached its 25th boundary (R48). -/
  | reportExpiry
  /-- The candidate is four boundaries old (R104). -/
  | candidateExpiry
  /-- The silent count has reached 25 (R106). -/
  | silentCountExpiry
  /-- The servo timer stands at 120 (R97). -/
  | servoTimerExpiry
  /-- The tally timer has reached 4 (R98). -/
  | tallyTimerExpiry
  /-- A GPI pulse count has reached 0 (R179). -/
  | pulseEnd (line : GpiLine)
  /-- The remaining count of the ACTIVE RECORD cue has reached 0 (R147). -/
  | recordLengthEnd
  /-- The not-ready count of the ACTIVE RECORD cue has reached 3 (R148). -/
  | notReadyLimit
  /-- The freewheel count has reached 50 in LOST (R116). -/
  | freewheelExpiry
  /-- The in-window count stands at 10 with the lock conditions holding (R123). -/
  | chaseLock
  /-- The out-window count has reached 3 in LOCKED (R124). -/
  | outWindowExpiry
  /-- The settle count has reached 2 (R92). -/
  | locateSettle
  /-- The 250th record was taken in ACQUIRE with quality NONE (R91). -/
  | locateAcquireLimit
  /-- The 3,000th record was taken without success (R93). -/
  | locateRecordLimit
  /-- Two consecutive still records under a forward drive stopped by EOT (R85). -/
  | locateEotLimit
  /-- A tach pulse with TDIR (R100). -/
  | tachPulse (forward : Bool)
  /-- A decoded timecode word with its label and direction (R101). -/
  | timecodeWord (label : Label) (backward : Bool)
  /-- THREADED takes a level (R83). -/
  | threadedChange (level : Bool)
  /-- LOCAL takes a level (R84). -/
  | localChange (level : Bool)
  /-- EOT takes a level (R85). -/
  | eotChange (level : Bool)
  /-- SERVO takes a level: `false` is the fall of R125; `true` is the line's rise, which has no row of its own (log 11). -/
  | servoFall (level : Bool)
  /-- RECTALLY takes a level: `true` is the rise of R98; `false` is the line's fall, which has no row of its own (log 11). -/
  | rectallyRise (level : Bool)
  /-- A filtered fall (`rise` false) or rise of a GPI input (R174, R175). -/
  | gpiEdge (line : GpiLine) (rise : Bool)
  /-- The line has been quiet for two character times (R35). -/
  | lineQuiet (time : Nat)
  /-- The k slots of the deferral have passed with no start bit (R42). -/
  | deferralEnd (time : Nat)
  /-- A start bit of another station is seen (R43). -/
  | startBitSeen
  /-- The last stop bit of the own frame ended with no mismatch (R42). -/
  | frameSent
  /-- A bit read back mismatches the bit driven (R44). -/
  | collision
  /-- One character time after the jam began (R44). -/
  | jamEnd
  /-- One character time passes within a frame with no next start bit (R39). -/
  | gapError (time : Nat)
  /-- A POSITION frame with a good CRC arrives (R40, R58). -/
  | positionArrival (source : Byte) (payload : List Byte)
  /-- A REPORT frame with a good CRC arrives (R40). -/
  | reportArrival (source : Byte) (payload : List Byte)
  /-- A REQUEST whose CODE names no request (R68). -/
  | refusedUnknown (code : Byte) (r : Request)
  | stop (r : Request)
  | play (r : Request)
  | shuttle (r : Request)
  | locate (r : Request)
  | arm (r : Request)
  | chase (r : Request)
  | unchase (r : Request)
  | cueLoad (r : Request)
  | cueDrop (r : Request)
  | cueClear (r : Request)
  | fire (r : Request)
  | abort (r : Request)
  | fader (r : Request)
  | mark (r : Request)
  | markDrop (r : Request)
  | locateMark (r : Request)
  | gpiBind (r : Request)
  | tallyMap (r : Request)
  | readStatus (r : Request)
  | readCues (r : Request)
  | readMarks (r : Request)
  | clearFlags (r : Request)
  | sessionClear (r : Request)
  /-- The line from the first start bit after a quiet on, sampled at the middle of each bit, true for recessive: the
  samples of the first character and those that come after it (R34, R38). -/
  | frameStart (start next : List Bool)
  /-- The line from the KIND character of a frame on, sampled so, up to the character at which an error is met (R34,
  R39). -/
  | brokenFrame (line : List Bool)
  /-- A REQUEST frame not addressed to the station, or shorter than its header (R66). -/
  | requestNotAddressed (source : Byte) (payload : List Byte)
  /-- A frame of an unknown KIND with a good CRC arrives (R40). -/
  | unknownKindArrival (kind : Byte) (source : Byte) (payload : List Byte)
  /-- One sample of the four GPI inputs, bit n for line n + 1, true for HIGH (R173). -/
  | gpiSample (levels : BitVec 4)
  deriving DecidableEq, Repr

end Sys2Proof
end

