-- ==== Sys2Proof/Machine/Straps.lean ====
section
/-! DEFINITION. What the straps fix: role, frame standard, and the constants of Tables 1.2, 2.1, 2.3 and of R163. -/

namespace Sys2Proof.Machine

/-- Table 1 and Table 2.1. -/
inductive Role
  | player
  | recorder
  | live
  deriving DecidableEq, Repr

/-- Table 1.2. -/
inductive Standard
  | f25
  | f30df
  | f30nd
  | f30
  deriving DecidableEq, Repr

/-- The role as held: 11b is held as PLAYER (R18). -/
def heldRole (p : Straps) : Role :=
  if p.role = 1 then .recorder else if p.role = 2 then .live else .player

/-- The strapped standard (Table 2.1). -/
def standardOf (p : Straps) : Standard :=
  if p.std = 0 then .f25 else if p.std = 1 then .f30df else if p.std = 2 then .f30nd else .f30

/-- The role's code on the link and in the STATUS report (Tables 12.1, 12.7). -/
def Role.code : Role → Nat
  | .player => 0
  | .recorder => 1
  | .live => 2

/-- Label rate (Table 1.2). -/
def Standard.labelRate : Standard → Nat
  | .f25 => 25
  | .f30df | .f30nd | .f30 => 30

/-- Frames per day (Table 1.2). -/
def Standard.fpd : Standard → Nat
  | .f25 => 2160000
  | .f30df => 2589408
  | .f30nd | .f30 => 2592000

/-- Micros per day: FPD × 512 (R1). -/
def Standard.day (std : Standard) : Nat := std.fpd * 512

/-- Nominal field period in 12 MHz clocks (Table 2.3). -/
def Standard.period : Standard → Nat
  | .f25 => 240000
  | .f30df | .f30nd => 200200
  | .f30 => 200000

/-- The good window of a pulse spacing, ±1 % (Table 2.3). -/
def Standard.goodSpacing (std : Standard) (spacing : Nat) : Bool :=
  match std with
  | .f25 => 237600 ≤ spacing && spacing ≤ 242400
  | .f30df | .f30nd => 198198 ≤ spacing && spacing ≤ 202202
  | .f30 => 198000 ≤ spacing && spacing ≤ 202000

/-- The missing limit, 1.5 periods (Table 2.3). -/
def Standard.missingLimit : Standard → Nat
  | .f25 => 360000
  | .f30df | .f30nd => 300300
  | .f30 => 300000

/-- Active lines in one field (R163). -/
def Standard.activeLines : Standard → Nat
  | .f25 => 288
  | .f30df | .f30nd | .f30 => 243

/-- The seed of the backoff register: station × 1,999 + 1 (R41). -/
def backoffSeed (own : Station) : BitVec 15 := BitVec.ofNat 15 (own.val * 1999 + 1)

end Sys2Proof.Machine
end

