-- ==== Sys2Proof/Machine/State.lean ====
section
/-! DEFINITION. The state of the PT-416, block by block as Table 3 of chapter 00 owns it, the stops, and the state after reset. -/

namespace Sys2Proof.Machine

/-! ### Power Supervisor and pins -/

/-- R19. -/
inductive Supervisor
  | run
  | hold
  deriving DecidableEq, Repr

/-- The Power Supervisor (R19): its state, the two timers in microseconds and the level of the RESET pin. -/
structure Power where
  supervisor : Supervisor
  dipTimer : Nat
  goodTimer : Nat
  resetHigh : Bool
  deriving DecidableEq, Repr

/-- The levels of the status lines from the deck (Table 6.1). -/
structure Pins where
  threaded : Bool
  localOn : Bool
  servo : Bool
  eot : Bool
  rectally : Bool
  deriving DecidableEq, Repr

/-! ### Reference Monitor and Field Timebase -/

/-- The reference state (R23 to R27), in the order of its code (Table 12.2). -/
inductive RefState
  | lost
  | settling
  | present
  deriving DecidableEq, Repr

/-- The Reference Monitor and Field Timebase (Table 2.6). Times are readings of the 12 MHz clock from the end of HOLD. -/
structure Timebase where
  refState : RefState
  warmUp : Nat
  /-- The last reference time, against which PRESENT judges (R23). -/
  lastRef : Nat
  /-- The previous pulse, against which SETTLING judges (R26). -/
  prevPulse : Option Nat
  /-- The internal timebase count (R22). -/
  count : Nat
  /-- Periods the count has completed whose boundary INTERNAL_BOUNDARY has still to issue (R22, R27; log 14). -/
  due : Nat
  /-- The clock reading of the latest timed event. -/
  clock : Nat
  /-- The time of the last boundary taken (R47). -/
  lastBoundary : Nat
  fieldCount : Word16
  /-- Frame phase: false for the first field (R29). -/
  secondField : Bool
  deriving DecidableEq, Repr

/-! ### Position Unit -/

/-- The quality of a position (R17), in the order of its code (Table 12.2). -/
inductive Quality
  | none
  | tach
  | ltc
  | virtual
  deriving DecidableEq, Repr

/-- The own position record (Table 1.8); the frame and phase views are computed. -/
structure PosRecord where
  position : Nat
  quality : Quality
  motion : Int
  jammed : Bool
  deriving DecidableEq, Repr

/-- The candidate timecode word (Table 7.1). -/
structure Candidate where
  count : Nat
  backward : Bool
  arrival : Word16
  deriving DecidableEq, Repr

/-- The Position Unit (Table 7.1). `published` is the record as the last boundary published it (R52, R109; log 24). -/
structure Position where
  held : Nat
  quality : Quality
  pulses : Int
  adopted : Bool
  jammed : Bool
  silent : Nat
  candidate : Option Candidate
  tcRejects : Nat
  jams : Nat
  record : PosRecord
  published : PosRecord
  deriving DecidableEq, Repr

/-! ### Transport state, shared with the Peer Table -/

/-- The transport state (Table 6.3), in the order of its code (Table 12.2). -/
inductive TransportState
  | stopped
  | parked
  | play
  | vari
  | wind
  | locating
  | offline
  | localControl
  deriving DecidableEq, Repr

/-! ### Peer Table and Request Unit -/

/-- One peer entry (Table 4.2, R57). -/
structure PeerEntry where
  heard : Bool
  frame : Nat
  phase : Nat
  quality : Quality
  speed : Int
  transport : TransportState
  ready : Bool
  tag : Byte
  arrival : Word16
  updates : Byte
  deriving DecidableEq, Repr

/-- The freshness classes (Table 4.3). -/
inductive Freshness
  | fresh
  | coasting
  | stale
  deriving DecidableEq, Repr

/-- The result codes (Table 5.1), in the order of their codes. -/
inductive ReqResult
  | ok
  | clamped
  | refusedState
  | refusedRole
  | refusedFull
  | refusedFormat
  | refusedUnknown
  | refusedTag
  | refusedLocal
  deriving DecidableEq, Repr

/-- The record of the last request (R70). -/
structure RequestUnit where
  lastTag : Byte
  lastResult : ReqResult
  count : Byte
  deriving DecidableEq, Repr

/-! ### Suite Link Interface -/

/-- The receiver (R38); after reset it ignores the line until the first quiet (R35). -/
inductive RxState
  | wait
  | frame
  | ignore
  deriving DecidableEq, Repr

/-- The two kinds of frame the station sends (R36). -/
inductive TxKind
  | position
  | report
  deriving DecidableEq, Repr

/-- A frame of the transmit queue (R46): its payload, its collision count and the field count at which it joined. -/
structure TxFrame where
  kind : TxKind
  payload : List Byte
  collisions : Nat
  joined : Word16
  deriving DecidableEq, Repr

/-- What the sender is doing (R42 to R44, R47): `letGo` marks a POSITION that a boundary let go while it is on the line. -/
inductive TxPhase
  | idle
  | deferring (slots : Nat)
  | sending (frame : TxFrame) (letGo : Bool)
  | jamming
  deriving DecidableEq, Repr

/-- The Suite Link Interface (Table 3.3). The frame on the line stands in `phase`, the waiting ones in `position` and
`reports` (oldest first). -/
structure Link where
  rx : RxState
  quiet : Bool
  phase : TxPhase
  position : Option TxFrame
  /-- The waiting POSITION met the start cutoff (R47). -/
  heldBack : Bool
  reports : List TxFrame
  backoff : BitVec 15
  rxBad : Nat
  collisions : Nat
  txDropped : Nat
  deriving DecidableEq, Repr

/-! ### Transport Controller -/

/-- A command or a drive: STOP or a signed speed (§6.2). -/
inductive Command
  | stop
  | speed (v : Int)
  deriving DecidableEq, Repr

/-- The phases of a locate (§6.6). -/
inductive LocatePhase
  | acquire
  | drive
  | settle
  deriving DecidableEq, Repr

/-- The locate context (§6.6); the target position is 512 × `target`. -/
structure Locate where
  target : Nat
  phase : LocatePhase
  attempts : Nat
  settle : Nat
  records : Nat
  eotCount : Nat
  drive : Command
  /-- The field whose record the locate does not take: a source other than the servo gave the target in it (R89; log 33). -/
  skips : Option Word16
  deriving DecidableEq, Repr

/-- The tally timer of a punch-in (R98). -/
inductive TallyTimer
  | running (count : Nat)
  | confirmed
  | expired
  deriving DecidableEq, Repr

/-- PUNCHED: the EDIT lines asserted and the tally timer (§6.7). -/
structure Punch where
  tracks : Tracks
  tally : TallyTimer
  deriving DecidableEq, Repr

/-- The Transport Controller (Table 6.8). `punch` is none in IDLE. -/
structure Transport where
  command : Command
  parkedMark : Bool
  locate : Option Locate
  armed : Tracks
  punch : Option Punch
  servoTimer : Nat
  speedWord : Int
  speedSent : Bool
  deriving DecidableEq, Repr

/-! ### Chase Servo -/

/-- The chase states (Table 8.2), in the order of their code (Table 12.2). -/
inductive ChaseState
  | free
  | park
  | seek
  | sync
  | locked
  | lost
  deriving DecidableEq, Repr

/-- The compare code (R127), in the order of its code (Table 12.2). -/
inductive Compare
  | level
  | ahead
  | behind
  deriving DecidableEq, Repr

/-- The chase record (Table 8.3). -/
structure ChaseRecord where
  state : ChaseState
  target : Nat
  usable : Bool
  error : Int
  compare : Compare
  ready : Bool
  deriving DecidableEq, Repr

/-- The Chase Servo (Table 8.1). `record` is the record as last written, `handed` as last published to its takers
(R130; log 24). -/
structure Chase where
  lead : Station
  offset : Nat
  state : ChaseState
  integral : Int
  inWindow : Nat
  outWindow : Nat
  freewheel : Nat
  parkFrame : Option Nat
  parkDone : Bool
  lastError : Int
  record : ChaseRecord
  handed : ChaseRecord
  deriving DecidableEq, Repr

/-! ### Source Fader and mix port -/

/-- Audio laws (R167). -/
inductive AudioLaw
  | linear
  | power
  | cut
  deriving DecidableEq, Repr

/-- Window classes (R154). -/
inductive WindowClass
  | full
  | window
  | cells
  deriving DecidableEq, Repr

/-- Transition kinds. -/
inductive TransKind
  | dissolve
  | wipe
  deriving DecidableEq, Repr

/-- Transition directions, IN and OUT. -/
inductive Direction
  | inward
  | outward
  deriving DecidableEq, Repr

/-- Curves (R159). -/
inductive Curve
  | linear
  | smooth
  | fast
  deriving DecidableEq, Repr

/-- Wipe patterns (R163 to R165). -/
inductive Pattern
  | left
  | top
  | box
  | split
  | sparkle
  deriving DecidableEq, Repr

/-- Pair status (R168). -/
inductive PairStatus
  | pending
  | paired
  | unpaired
  deriving DecidableEq, Repr

/-- The parameters of a TRANSITION (Table 9.2). -/
structure TransParams where
  kind : TransKind
  direction : Direction
  target : Nat
  duration : Nat
  curve : Curve
  pattern : Pattern
  softness : Nat
  partner : Option Station
  law : AudioLaw
  deriving DecidableEq, Repr

/-- The transition context (Table 10.2). -/
structure Context where
  tag : Byte
  params : TransParams
  fromLevel : Nat
  k : Nat
  start : Word16
  noted : Byte
  pair : PairStatus
  hard : Bool
  seed : BitVec 15
  deriving DecidableEq, Repr

/-- The Source Fader (Table 10.1). -/
structure Fader where
  level : Nat
  gain : Nat
  law : AudioLaw
  windowClass : WindowClass
  invert : Bool
  softness : Nat
  context : Option Context
  deriving DecidableEq, Repr

/-- The windows a record's line records carry (R171). -/
inductive WindowShape
  | full
  | spans (pattern : Pattern) (p : Nat)
  | cells (seed : BitVec 15) (p : Nat)
  deriving DecidableEq, Repr

/-- A mix port record with the values as they stood at its start (R170). -/
structure MixRecord where
  secondField : Bool
  level : Nat
  gain : Nat
  invert : Bool
  softness : Nat
  windowClass : WindowClass
  shape : WindowShape
  deriving DecidableEq, Repr

/-- The mix port (R170): the record being sent, whether a further one is owed, whether the first boundary has passed. -/
structure Mix where
  sending : Option MixRecord
  due : Bool
  started : Bool
  deriving DecidableEq, Repr

/-! ### Cue Engine -/

/-- Trigger kinds, with the trigger frame of a timed cue (Table 9.1). -/
inductive Trigger
  | own (frame : Nat)
  | lead (frame : Nat)
  | gpi (line : GpiLine)
  | manual
  deriving DecidableEq, Repr

/-- The command of a TRANSPORT cue (Table 9.2). -/
inductive CueCommand
  | stop
  | play
  | locate (frame : Nat)
  deriving DecidableEq, Repr

/-- Actions with their parameters (Table 9.2). -/
inductive CueAction
  | record (tracks : Tracks) (length : Nat)
  | transition (params : TransParams)
  | transport (command : CueCommand)
  | gpiPulse (line : GpiLine) (width : Nat)
  | mark
  deriving DecidableEq, Repr

/-- Cue states (Table 9.3), in the order of their code. -/
inductive CueState
  | waiting
  | active
  | done
  | aborted
  deriving DecidableEq, Repr

/-- One cue (Table 9.1). -/
structure Cue where
  tag : Byte
  trigger : Trigger
  hard : Bool
  required : Word16
  action : CueAction
  state : CueState
  slipped : Bool
  unpaired : Bool
  rehearsal : Bool
  finish : Option Word16
  remaining : Nat
  notReady : Nat
  deriving DecidableEq, Repr

/-- The Cue Engine (Table 9.6): the list, head first, and the previous clock samples (none: unusable). -/
structure CueEngine where
  list : List Cue
  ownSample : Option Nat
  leadSample : Option Nat
  deriving DecidableEq, Repr

/-! ### GPI Unit and Mark Stack -/

/-- Edge selects (R174), in the order of their code. -/
inductive EdgeSelect
  | fall
  | rise
  | both
  deriving DecidableEq, Repr

/-- Bindings (R175), in the order of their code. -/
inductive Binding
  | cue
  | mark
  | play
  | stop
  | abort
  | none
  deriving DecidableEq, Repr

/-- One GPI input (Table 11.1); levels are true for HIGH. `lastSample` is the sample before (R173; log 25). -/
structure GpiInput where
  accepted : Option Bool
  run : Nat
  lastSample : Option Bool
  edge : EdgeSelect
  binding : Binding
  holdoff : Nat
  deriving DecidableEq, Repr

/-- Tally sources (Table 11.2), in the order of their code. -/
inductive TallySource
  | none
  | record
  | air
  | lock
  | ready
  | fault
  deriving DecidableEq, Repr

/-- Tally patterns (R177), in the order of their code. -/
inductive TallyPattern
  | steady
  | slow
  | fast
  deriving DecidableEq, Repr

/-- A running pulse (R179). -/
structure Pulse where
  count : Nat
  start : Word16
  deriving DecidableEq, Repr

/-- One GPI output (R177, R179). -/
structure GpiOutput where
  source : TallySource
  pattern : TallyPattern
  pulse : Option Pulse
  deriving DecidableEq, Repr

/-- The GPI Unit. -/
structure Gpi where
  inputs : Vector GpiInput 4
  outputs : Vector GpiOutput 4
  deriving DecidableEq, Repr

/-- The origin of a mark (R180). -/
inductive Origin
  | request
  | gpi (line : GpiLine)
  | cue
  deriving DecidableEq, Repr

/-- One entry of the Mark Stack (§11.3). -/
structure Mark where
  frame : Nat
  phase : Nat
  quality : Quality
  origin : Origin
  deriving DecidableEq, Repr

/-! ### The whole station -/

/-- The station. `choices` and `pending` are the model's own: how many free choices were drawn (log 30) and the commands
that wait, first in, first out (log 1). -/
structure State where
  power : Power
  straps : Straps
  pins : Pins
  time : Timebase
  pos : Position
  peers : Vector PeerEntry 16
  req : RequestUnit
  link : Link
  tr : Transport
  chase : Chase
  cues : CueEngine
  fader : Fader
  mix : Mix
  gpi : Gpi
  marks : List Mark
  /-- The thirteen sticky flags, bit n for flag number n (Table 5.6). -/
  flags : BitVec 13
  choices : Nat
  pending : List Instr
  deriving DecidableEq, Repr

/-- Faults: the spec names none that stops the block, so no command raises one. -/
inductive Fault
  deriving DecidableEq, Repr

/-- Refusals. -/
inductive Refusal
  /-- Raised by exec alone, for a command without a meaning; no command is without one, so it is never raised (safe). -/
  | notModelled (mnemonic : String)
  deriving DecidableEq, Repr

/-- The outcome of a command. -/
abbrev Result := Host.Outcome State Fault Refusal

/-! ### Updates, one for each field -/

def State.setPower (s : State) (x : Power) : State := { s with power := x }
def State.setStraps (s : State) (x : Straps) : State := { s with straps := x }
def State.setPins (s : State) (x : Pins) : State := { s with pins := x }
def State.setTime (s : State) (x : Timebase) : State := { s with time := x }
def State.setPos (s : State) (x : Position) : State := { s with pos := x }
def State.setPeers (s : State) (x : Vector PeerEntry 16) : State := { s with peers := x }
def State.setReq (s : State) (x : RequestUnit) : State := { s with req := x }
def State.setLink (s : State) (x : Link) : State := { s with link := x }
def State.setTr (s : State) (x : Transport) : State := { s with tr := x }
def State.setChase (s : State) (x : Chase) : State := { s with chase := x }
def State.setCues (s : State) (x : CueEngine) : State := { s with cues := x }
def State.setFader (s : State) (x : Fader) : State := { s with fader := x }
def State.setMix (s : State) (x : Mix) : State := { s with mix := x }
def State.setGpi (s : State) (x : Gpi) : State := { s with gpi := x }
def State.setMarks (s : State) (x : List Mark) : State := { s with marks := x }
def State.setFlags (s : State) (x : BitVec 13) : State := { s with flags := x }
def State.setChoices (s : State) (x : Nat) : State := { s with choices := x }
def State.setPending (s : State) (x : List Instr) : State := { s with pending := x }

/-! ### Reset values -/

/-- Table 2.6: the supervisor runs, its timers cleared; the end of HOLD found the RESET pin high. -/
def Power.atReset : Power := { supervisor := .run, dipTimer := 0, goodTimer := 0, resetHigh := true }

/-- Table 2.6. -/
def Timebase.atReset : Timebase :=
  { refState := .lost, warmUp := 0, lastRef := 0, prevPulse := none, count := 0, due := 0, clock := 0, lastBoundary := 0,
    fieldCount := 0, secondField := false }

/-- The quality held at reset: NONE, VIRTUAL on LIVE (Table 7.2). -/
def qualityAtReset (p : Straps) : Quality := if heldRole p = .live then .virtual else .none

/-- The record before the first publication (R16). -/
def PosRecord.atReset (p : Straps) : PosRecord :=
  { position := 0, quality := qualityAtReset p, motion := 0, jammed := false }

/-- Table 7.2. -/
def Position.atReset (p : Straps) : Position :=
  { held := 0, quality := qualityAtReset p, pulses := 0, adopted := false, jammed := false, silent := 0,
    candidate := none, tcRejects := 0, jams := 0, record := PosRecord.atReset p, published := PosRecord.atReset p }

/-- R65. DESIGN CHOICE (log 23): the decoded contents, of no account until an arrival, are zeros. -/
def PeerEntry.atReset : PeerEntry :=
  { heard := false, frame := 0, phase := 0, quality := .none, speed := 0, transport := .stopped, ready := false,
    tag := 0, arrival := 0, updates := 0 }

/-- R70. -/
def RequestUnit.atReset : RequestUnit := { lastTag := 0, lastResult := .ok, count := 0 }

/-- Table 3.3. -/
def Link.atReset (p : Straps) : Link :=
  { rx := .ignore, quiet := false, phase := .idle, position := none, heldBack := false, reports := [],
    backoff := backoffSeed p.station, rxBad := 0, collisions := 0, txDropped := 0 }

/-- Table 6.8. -/
def Transport.atReset : Transport :=
  { command := .stop, parkedMark := false, locate := none, armed := 0, punch := none, servoTimer := 0,
    speedWord := 0, speedSent := false }

/-- The chase record before the first publication (R130). -/
def ChaseRecord.atReset (p : Straps) : ChaseRecord :=
  { state := .free, target := 0, usable := heldRole p = .live, error := 0, compare := .level, ready := false }

/-- Table 8.4. -/
def Chase.atReset (p : Straps) : Chase :=
  { lead := p.station, offset := 0, state := .free, integral := 0, inWindow := 0, outWindow := 0, freewheel := 0,
    parkFrame := none, parkDone := false, lastError := 0, record := ChaseRecord.atReset p,
    handed := ChaseRecord.atReset p }

/-- Table 9.6. -/
def CueEngine.atReset : CueEngine := { list := [], ownSample := none, leadSample := none }

/-- Table 10.6. -/
def Fader.atReset : Fader :=
  { level := 0, gain := 0, law := .linear, windowClass := .full, invert := false, softness := 0, context := none }

/-- R170, R172: nothing is sent before the first boundary. -/
def Mix.atReset : Mix := { sending := none, due := false, started := false }

/-- Table 11.1 and R178, R179. -/
def Gpi.atReset : Gpi :=
  { inputs := Vector.replicate 4
      { accepted := none, run := 0, lastSample := none, edge := .fall, binding := .cue, holdoff := 0 }
    outputs := Vector.replicate 4 { source := .none, pattern := .steady, pulse := none } }

/-- The station at the end of a full reset with these straps and deck lines (R21): every flag clear but POWER_RESTART. -/
def State.atReset (straps : Straps) (pins : Pins) : State :=
  { power := Power.atReset, straps := straps, pins := pins, time := Timebase.atReset, pos := Position.atReset straps,
    peers := Vector.replicate 16 PeerEntry.atReset, req := RequestUnit.atReset, link := Link.atReset straps,
    tr := Transport.atReset, chase := Chase.atReset straps, cues := CueEngine.atReset, fader := Fader.atReset,
    mix := Mix.atReset, gpi := Gpi.atReset, marks := [], flags := 1, choices := 0, pending := [] }

/-- Straps left unconnected: station 0, PLAYER, F25 (R18). -/
def Straps.unconnected : Straps := { station := 0, role := 0, std := 0 }

/-- DESIGN CHOICE (log 4): at reset no line from the deck is true. -/
def Pins.quietDeck : Pins := { threaded := false, localOn := false, servo := false, eot := false, rectally := false }

/-- The machine right after a full reset (R21) of a station strapped unconnected on all pins. -/
def State.reset : State := State.atReset Straps.unconnected Pins.quietDeck

end Sys2Proof.Machine
end

