-- ==== Sys2Proof/Machine/Flags.lean ====
section
/-! DEFINITION. The thirteen sticky flags (Table 5.6, R75, R76) and the counters that stay at 65,535 (R49, R110). -/

namespace Sys2Proof.Machine

/-- The sticky flags (Table 5.6). -/
inductive Flag
  | powerRestart
  | clash
  | refLost
  | tcJump
  | locateFail
  | transportFault
  | recordFault
  | syncSlip
  | unpaired
  | cueAborted
  | bulletinDropped
  | linkError
  | markLost
  deriving DecidableEq, Repr

/-- The number of a flag (Table 5.6). -/
def Flag.number : Flag → Nat
  | .powerRestart => 0
  | .clash => 1
  | .refLost => 2
  | .tcJump => 3
  | .locateFail => 4
  | .transportFault => 5
  | .recordFault => 6
  | .syncSlip => 7
  | .unpaired => 8
  | .cueAborted => 9
  | .bulletinDropped => 10
  | .linkError => 11
  | .markLost => 12

/-- The mask of a flag. -/
def Flag.mask (f : Flag) : BitVec 13 := BitVec.ofNat 13 (2 ^ f.number)

/-- A flag is set. -/
def hasFlag (s : State) (f : Flag) : Bool := s.flags.getLsbD f.number

/-- A setting event: the flag is set and stays set (R75). -/
def setFlag (f : Flag) (s : State) : State := s.setFlags (s.flags ||| f.mask)

/-- CLEAR FLAGS: the flags whose numbers the mask selects become clear; bits above 12 select none (R76). -/
def clearFlags (mask : Word16) (s : State) : State := s.setFlags (s.flags &&& ~~~(mask.setWidth 13))

/-- A counter that stays at 65,535 once it gets there (R49, R110). -/
def bumpCounter (n : Nat) : Nat := if 65535 ≤ n then n else n + 1

/-- `bumpCounter` made `k` times. -/
def bumpCounterBy : Nat → Nat → Nat
  | 0, n => n
  | k + 1, n => bumpCounterBy k (bumpCounter n)

/-- The FAULT tally's condition (R75, Table 11.2). -/
def faultShown (s : State) : Bool :=
  hasFlag s .transportFault || hasFlag s .recordFault || hasFlag s .locateFail || hasFlag s .clash

end Sys2Proof.Machine
end

