-- ==== Sys2Proof/Machine/Timecode.lean ====
section
/-! DEFINITION. The arithmetic of chapter 01: labels and counts, modular positions, elapsed fields, offsets, rounding. -/

namespace Sys2Proof.Machine

/-- A label is valid under a standard (R5). -/
def labelValid (std : Standard) (l : Label) : Bool :=
  l.hours ≤ 23 && l.minutes ≤ 59 && l.seconds ≤ 59 && l.frames < std.labelRate

/-- Drop-frame counting omits the label (R8). -/
def labelOmitted (std : Standard) (l : Label) : Bool :=
  std = .f30df && l.seconds = 0 && l.frames ≤ 1 && l.minutes % 10 ≠ 0

/-- Whole label seconds from 00:00:00 (R6). -/
def labelSeconds (l : Label) : Nat := 3600 * l.hours + 60 * l.minutes + l.seconds

/-- The count of a label (R6; R7 for F30DF). -/
def labelCount (std : Standard) (l : Label) : Nat :=
  match std with
  | .f30df =>
    let tm := 60 * l.hours + l.minutes
    30 * labelSeconds l + l.frames - 2 * (tm - tm / 10)
  | .f25 | .f30nd | .f30 => std.labelRate * labelSeconds l + l.frames

/-- Drop-frame coercion of a request label to frame 2 of the same second (R8). -/
def coerceLabel (std : Standard) (l : Label) : Label :=
  if labelOmitted std l then { l with frames := 2 } else l

/-- The count of a request label after coercion (R8). -/
def requestCount (std : Standard) (l : Label) : Nat := labelCount std (coerceLabel std l)

/-- The count n′ of a non-drop day from which the label is read (R10). -/
def labelBase (std : Standard) (n : Nat) : Nat :=
  match std with
  | .f30df => n + 18 * (n / 17982) + (if 2 ≤ n % 17982 then 2 * ((n % 17982 - 2) / 1798) else 0)
  | .f25 | .f30nd | .f30 => n

/-- The label of a count (R10). -/
def labelOfCount (std : Standard) (n : Nat) : Label :=
  let m := labelBase std n
  let secs := m / std.labelRate
  { hours := secs / 3600, minutes := secs / 60 % 60, seconds := secs % 60, frames := m % std.labelRate }

/-- The count of the next label (R11). -/
def nextCount (std : Standard) (n : Nat) : Nat := (n + 1) % std.fpd

/-- The count of the previous label (R11). -/
def prevCount (std : Standard) (n : Nat) : Nat := (n + std.fpd - 1) % std.fpd

/-- Frame view of a position (R1). -/
def frameView (x : Nat) : Nat := x / 512

/-- Phase view of a position (R1). -/
def phaseView (x : Nat) : Nat := x % 512

/-- The modular sum of a position and signed micros (R12). -/
def modSum (std : Standard) (a : Nat) (b : Int) : Nat := (((a : Int) + b) % (std.day : Int)).toNat

/-- The signed difference of two positions, a less b (R13). -/
def signedDiff (std : Standard) (a b : Nat) : Int :=
  let e := ((a : Int) - (b : Int)) % (std.day : Int)
  if (std.day : Int) / 2 < e then e - (std.day : Int) else e

/-- The forward distance from p0 to p1 (R14). -/
def forwardDistance (std : Standard) (p0 p1 : Nat) : Nat := (((p1 : Int) - (p0 : Int)) % (std.day : Int)).toNat

/-- Field boundaries from a field count to a later one (R4). -/
def elapsed (c0 c1 : Word16) : Nat := (c1 - c0).toNat

/-- Clamping to a range (00 §6.2). -/
def clampInt (lo hi x : Int) : Int := max lo (min hi x)

/-- The sign of a whole number as used by R92 and R121. -/
def signOf (x : Int) : Int := if x < 0 then -1 else if x = 0 then 0 else 1

/-- σ × c of R15. -/
def signedCount (minus : Bool) (c : Nat) : Int := if minus then -(c : Int) else (c : Int)

/-- The held offset o = (σ × c) mod FPD (R15). -/
def heldOffset (std : Standard) (minus : Bool) (c : Nat) : Nat := (signedCount minus c % (std.fpd : Int)).toNat

/-- The signed reading of a held offset (R15). -/
def signedReading (std : Standard) (o : Nat) : Int :=
  if o ≤ std.fpd / 2 then (o : Int) else (o : Int) - (std.fpd : Int)

/-- Rounding half to even of n / d (Table 6 of chapter 00). -/
def roundHalfEven (n d : Nat) : Nat :=
  if 2 * (n % d) < d then n / d
  else if d < 2 * (n % d) then n / d + 1
  else if n / d % 2 = 0 then n / d else n / d + 1

/-- Motion as the record holds it: within −32,768 to +32,767 (R16). -/
def holdMotion (x : Int) : Int := clampInt (-32768) 32767 x

end Sys2Proof.Machine
end

