-- ==== Sys2Proof/Machine/Ops.lean ====
section
/-! DEFINITION. The operations the blocks share: views of the straps, drive and transport state, readiness, the chase's
disabling, transport commands, locates, punch-in and punch-out, and the Mark Stack's push. -/

namespace Sys2Proof.Machine

/-! ### Views -/

/-- The held role (R18). -/
def role (s : State) : Role := heldRole s.straps

/-- The strapped standard (R2). -/
def std (s : State) : Standard := standardOf s.straps

/-- The own station number (R18). -/
def own (s : State) : Station := s.straps.station

/-- A command that finds the part in HOLD has no effect (R20). -/
def inRun (f : State → State) (s : State) : Result := .next (if s.power.supervisor = .run then f s else s)

/-- A PLAYER or RECORDER: a deck is attached (Table 1). -/
def isDeck (s : State) : Bool := role s != .live

/-- The deck takes commands: threaded and not in LOCAL (R83, R84, R87). -/
def deckReady (s : State) : Bool := isDeck s && s.pins.threaded && !s.pins.localOn

/-! ### Drive, mode lines and transport state -/

/-- A forward speed, which EOT replaces (R85). -/
def Command.forward : Command → Bool
  | .stop => false
  | .speed v => 0 < v

/-- The play range of Table 6.2. -/
def playSpeed (v : Int) : Bool := 192 ≤ v && v ≤ 320

/-- The capstan-override range of Table 6.2. -/
def slowSpeed (v : Int) : Bool := -768 ≤ v && v ≤ 768

/-- The drive a running locate or the command asks for (R80). -/
def wantedDrive (t : Transport) : Command :=
  match t.locate with
  | some l => l.drive
  | none => t.command

/-- A forward drive is replaced by STOP while EOT is true (R80, R85). -/
def eotDrive (eot : Bool) (c : Command) : Command := if eot && c.forward then .stop else c

/-- The drive on the port; none while the port is released (R79, R80). -/
def drive (s : State) : Option Command :=
  if s.power.supervisor = .hold then none
  else if role s = .live then none
  else if !s.pins.threaded then some .stop
  else if s.pins.localOn then none
  else some (eotDrive s.pins.eot (wantedDrive s.tr))

/-- The mode lines (Table 6.1). -/
inductive ModeLine
  | stop
  | play
  | fwdWind
  | revWind
  deriving DecidableEq, Repr

/-- Table 6.2. -/
def Command.modeLine : Command → ModeLine
  | .stop => .stop
  | .speed v => if slowSpeed v then .play else if 0 < v then .fwdWind else .revWind

/-- The speed a drive puts in the speed word (R81). -/
def Command.word : Command → Int
  | .stop => 0
  | .speed v => v

/-- The mode line asserted, none when the port is released (R79). -/
def modeLine (s : State) : Option ModeLine := (drive s).map Command.modeLine

/-- The state of a drive (Table 6.3, lines 5 to 9). -/
def driveState (parked : Bool) : Command → TransportState
  | .stop => if parked then .parked else .stopped
  | .speed v => if playSpeed v then .play else if slowSpeed v then .vari else .wind

/-- The transport state (R82, Table 6.3). -/
def transportState (s : State) : TransportState :=
  if role s = .live then .stopped
  else if !s.pins.threaded then .offline
  else if s.pins.localOn then .localControl
  else if s.tr.locate.isSome then .locating
  else driveState s.tr.parkedMark (eotDrive s.pins.eot s.tr.command)

/-- The tracks whose EDIT lines are asserted; REC is asserted when PUNCHED (R94, R54). -/
def editLines (s : State) : Tracks :=
  match s.tr.punch with
  | some p => p.tracks
  | none => 0

/-! ### Cues leaving ACTIVE -/

/-- A cue becomes finished: DONE or ABORTED with its finish field count (R133). -/
def Cue.finishAs (c : Cue) (state : CueState) (fc : Word16) : Cue := { c with state := state, finish := some fc }

/-- The action is RECORD. -/
def Cue.isRecord (c : Cue) : Bool :=
  match c.action with
  | .record _ _ => true
  | .transition _ | .transport _ | .gpiPulse _ _ | .mark => false

/-- The action is TRANSITION. -/
def Cue.isTransition (c : Cue) : Bool :=
  match c.action with
  | .transition _ => true
  | .record _ _ | .transport _ | .gpiPulse _ _ | .mark => false

/-- An ACTIVE RECORD cue. -/
def Cue.recording (c : Cue) : Bool := c.state = .active && c.isRecord

/-- An ACTIVE TRANSITION cue of a tag. -/
def Cue.transiting (tag : Byte) (c : Cue) : Bool := c.state = .active && c.isTransition && c.tag = tag

/-- DONE or ABORTED (R133). -/
def Cue.finished (c : Cue) : Bool := c.state = .done || c.state = .aborted

/-- Change the cues a test picks; the places stay (R134). -/
def updateCues (pick : Cue → Bool) (f : Cue → Cue) (s : State) : State :=
  s.setCues { s.cues with list := s.cues.list.map fun c => if pick c then f c else c }

/-- The ACTIVE RECORD cue. -/
def activeRecord (s : State) : Option Cue := s.cues.list.find? Cue.recording

/-- The ACTIVE RECORD cue goes to ABORTED with CUE_ABORTED (R148, R149). -/
def abortActiveRecord (s : State) : State :=
  if (activeRecord s).isSome then
    setFlag .cueAborted (updateCues Cue.recording (fun c => c.finishAs .aborted s.time.fieldCount) s)
  else s

/-- The ACTIVE RECORD cue goes to DONE (R146, R147). -/
def endActiveRecord (s : State) : State :=
  updateCues Cue.recording (fun c => c.finishAs .done s.time.fieldCount) s

/-! ### Record and edit lines -/

/-- A punch-out: REC and every EDIT line are released (R95). -/
def punchOut (s : State) : State := s.setTr { s.tr with punch := none }

/-- While PUNCHED, a transport state other than PLAY releases the lines and reports the record broken (R96, R149). -/
def breakRecord (s : State) : State :=
  if s.tr.punch.isSome && transportState s != .play then abortActiveRecord (punchOut s) else s

/-- The answers to a punch-in (R94). -/
inductive PunchAnswer
  | punched
  | rehearsal
  | broken
  deriving DecidableEq, Repr

/-- The tally timer at a punch-in: stopped at once when RECTALLY is true (R98). -/
def tallyStart (s : State) : TallyTimer := if s.pins.rectally then .confirmed else .running 0

/-- The answer to a punch-in with a cue's tracks (R94; a butt hand-over while PUNCHED, R95). -/
def punchAnswer (tracks : Tracks) (s : State) : PunchAnswer :=
  if tracks &&& s.tr.armed = 0 then .rehearsal
  else if s.tr.punch.isSome || transportState s = .play then .punched else .broken

/-- The lines after a punch-in with a cue's tracks (R94, R95). -/
def punchIn (tracks : Tracks) (s : State) : State :=
  match punchAnswer tracks s with
  | .punched => s.setTr { s.tr with punch := some { tracks := tracks &&& s.tr.armed, tally := tallyStart s } }
  | .rehearsal => punchOut s
  | .broken => s

/-! ### Readiness and the chase record -/

/-- Own-readiness (R128). -/
def ownReady (s : State) : Bool :=
  match s.chase.state with
  | .locked => true
  | .free =>
    s.time.refState = .present && (role s = .live || (transportState s = .play && s.pins.servo))
  | .park | .seek | .sync | .lost => false

/-- The compare code of an error (R127). -/
def compareOf (e : Int) : Compare := if e < -64 then .ahead else if 64 < e then .behind else .level

/-- The FREE record answering an own position record (R129). -/
def freeRecord (r : PosRecord) (s : State) : ChaseRecord :=
  { state := .free, target := r.position, usable := r.quality != .none, error := 0, compare := .level,
    ready := ownReady s }

/-- The chase set FREE: lead the own station, A, the counts and the last error 0, no park frame (R113, R114). -/
def Chase.freed (c : Chase) (own : Station) : Chase :=
  { c with
    lead := own, state := .free, integral := 0, inWindow := 0, outWindow := 0, freewheel := 0,
    parkFrame := none, parkDone := false, lastError := 0 }

/-- The record rewritten to FREE from the latest own position record (R130). -/
def rewriteFree (s : State) : State := s.setChase { s.chase with record := freeRecord s.pos.record s }

/-- The chase goes FREE and its record is rewritten (R113, R114, R130). -/
def freeChase (s : State) : State := rewriteFree (s.setChase (s.chase.freed (own s)))

/-- Disabling an enabled chase (R86, R114). -/
def disableChase (s : State) : State := if s.chase.state = .free then s else freeChase s

/-- A LOCKED chase becomes SYNC between evaluations, its record rewritten (R125, R130). -/
def loseLock (s : State) : State :=
  if s.chase.state = .locked then
    s.setChase
      { s.chase with
        state := .sync, inWindow := 0, outWindow := 0,
        record := { s.chase.record with state := .sync, ready := false } }
  else s

/-! ### Transport commands -/

/-- The parked mark after a command: cleared by a speed, kept by STOP (R82). -/
def markAfter (mark : Bool) : Command → Bool
  | .stop => mark
  | .speed _ => false

/-- A STOP or speed taken from any source: it cancels a running locate and becomes the command; in OFFLINE, in LOCAL and
on a LIVE station it is not kept (R87). -/
def takeCommand (c : Command) (s : State) : State :=
  if deckReady s then
    breakRecord (s.setTr { s.tr with command := c, locate := none, parkedMark := markAfter s.tr.parkedMark c })
  else s

/-- A running locate takes a new target (R89). -/
def Locate.retarget (l : Locate) (skips : Option Word16) (target : Nat) : Locate :=
  { l with
    target := target, attempts := 0, settle := 0, eotCount := 0, skips := skips
    phase := if l.phase = .acquire then .acquire else .drive }

/-- A locate starts (R91). -/
def Locate.start (skips : Option Word16) (target : Nat) (quality : Quality) (inForce : Command) : Locate :=
  { target := target, attempts := 0, settle := 0, records := 0, eotCount := 0, skips := skips
    phase := if quality = .none then .acquire else .drive
    drive := if quality = .none then .speed 256 else inForce }

/-- A locate command: it starts a locate or retargets the running one (R87, R89, R91); not kept in OFFLINE and LOCAL. -/
def giveLocate (skips : Option Word16) (target : Nat) (s : State) : State :=
  if deckReady s then
    match s.tr.locate with
    | some l => s.setTr { s.tr with locate := some (l.retarget skips target) }
    | none =>
      breakRecord
        (s.setTr
          { s.tr with
            locate := some (Locate.start skips target s.pos.record.quality s.tr.command), parkedMark := false })
  else s

/-- A locate command of a request or a cue: the first record the locate takes is the next publication's. R89 says so of a
retarget; that a locate started so does the same is the model's choice (log 33). -/
def takeLocate (target : Nat) (s : State) : State := giveLocate (some s.time.fieldCount) target s

/-- The servo's locate command: the locate takes the publication that the evaluation answers, if its turn is still to come.
R89 says so of a retarget; that a locate started so does the same is the model's choice (log 33). -/
def servoLocate (target : Nat) (s : State) : State := giveLocate none target s

/-- STOP from a source other than the servo: it disables an enabled chase (R86). -/
def commandStop (s : State) : State := takeCommand .stop (disableChase s)

/-! ### Ends of a locate -/

/-- Park done becomes true when the locate to the park frame ends (R120). -/
def noteParkEnd (target : Nat) (s : State) : State :=
  if s.chase.parkFrame = some target then s.setChase { s.chase with parkDone := true } else s

/-- A locate ends in success: command STOP, parked mark set (R93). -/
def locateSucceed (l : Locate) (s : State) : State :=
  noteParkEnd l.target (s.setTr { s.tr with command := .stop, locate := none, parkedMark := true })

/-- A locate fails: LOCATE_FAIL, command STOP, parked mark clear (R93). -/
def locateFail (l : Locate) (s : State) : State :=
  setFlag .locateFail
    (noteParkEnd l.target (s.setTr { s.tr with command := .stop, locate := none, parkedMark := false }))

/-! ### Peer entries -/

/-- The entry of a station. -/
def entry (s : State) (st : Station) : PeerEntry := s.peers[st]

/-- The age of an entry now (R61). -/
def ageOf (e : PeerEntry) (s : State) : Nat := elapsed e.arrival s.time.fieldCount

/-- The freshness class of an entry now (R61, Table 4.3). -/
def freshness (e : PeerEntry) (s : State) : Freshness :=
  if !e.heard then .stale
  else if ageOf e s ≤ 4 then .fresh
  else if ageOf e s ≤ 8 then .coasting else .stale

/-- The position of an entry in micros (R57). -/
def PeerEntry.position (e : PeerEntry) : Nat := 512 * e.frame + e.phase

/-- The extrapolated position (R63). -/
def extrapolated (e : PeerEntry) (s : State) : Nat := modSum (std s) e.position (e.speed * (ageOf e s : Int))

/-! ### Mark Stack -/

/-- A push with an origin: nothing for quality NONE; a full stack loses its oldest entry with MARK_LOST (R180). -/
def pushMark (origin : Origin) (s : State) : State :=
  let r := s.pos.record
  if r.quality = .none then s
  else
    let m : Mark :=
      { frame := frameView r.position, phase := phaseView r.position, quality := r.quality, origin := origin }
    if 8 ≤ s.marks.length then setFlag .markLost (s.setMarks (m :: s.marks.take 7))
    else s.setMarks (m :: s.marks)

end Sys2Proof.Machine
end

