-- ==== Sys2Proof/Machine/Chase.lean ====
section
/-! DEFINITION. The Chase Servo (chapter 8): evaluation, parking, seeking, the SYNC law, lock, coasting and freewheel, the
LIVE role and the chase record; the meanings of FREEWHEEL_EXPIRY, CHASE_LOCK and OUT_WINDOW_EXPIRY. -/

namespace Sys2Proof.Machine

/-- The lead's entry. -/
def leadEntry (s : State) : PeerEntry := entry s s.chase.lead

/-- The class in which the servo takes its lead: a fresh entry of quality NONE is coasting (R115). -/
def leadClass (s : State) : Freshness :=
  match freshness (leadEntry s) s with
  | .fresh => if (leadEntry s).quality = .none then .coasting else .fresh
  | .coasting => .coasting
  | .stale => .stale

/-- The target T (R118). -/
def chaseTarget (s : State) : Nat := modSum (std s) (extrapolated (leadEntry s) s) (512 * s.chase.offset : Nat)

/-- The error E (R118). -/
def chaseError (s : State) : Int := signedDiff (std s) (chaseTarget s) s.pos.published.position

/-! ### Lock -/

/-- The conditions of a lock beside the window count (R123). -/
def lockConditions (s : State) : Bool :=
  s.time.refState = .present && s.pins.servo
    && (s.pos.published.quality = .ltc || s.pos.published.quality = .tach) && leadClass s = .fresh

/-- The in-window count stands at 10 in SYNC with the conditions holding: LOCKED (R123). -/
def lockIfDue (s : State) : State :=
  if s.chase.state = .sync ∧ s.chase.inWindow = 10 ∧ lockConditions s then
    s.setChase { s.chase with state := .locked, outWindow := 0 }
  else s

/-- A departure from LOCKED to SYNC (R124). -/
def unlock (s : State) : State := s.setChase { s.chase with state := .sync, inWindow := 0, outWindow := 0 }

/-- The out-window count has reached 3 in LOCKED: SYNC (R124). -/
def unlockIfOut (s : State) : State :=
  if s.chase.state = .locked ∧ 3 ≤ s.chase.outWindow then unlock s else s

/-- A LOCKED chase finds SERVO false or the reference not PRESENT (R124). -/
def unlockIfUnsound (s : State) : State :=
  if s.chase.state = .locked ∧ ¬(s.pins.servo ∧ s.time.refState = .present) then unlock s else s

/-- The window counts of a SYNC-law evaluation and what they decide (R123, R124). -/
def judgeLock (e : Int) (s : State) : State :=
  if s.chase.state = .locked then
    unlockIfUnsound
      (unlockIfOut
        (s.setChase { s.chase with outWindow := if 128 < e.natAbs then s.chase.outWindow + 1 else 0 }))
  else
    lockIfDue
      (s.setChase { s.chase with inWindow := if e.natAbs ≤ 64 then min 10 (s.chase.inWindow + 1) else 0 })

/-! ### The cases of a fresh lead -/

/-- A change of state that leaves PARK's frame and the window counts behind (R118, R120). -/
def Chase.enter (c : Chase) (state : ChaseState) (error : Int) : Chase :=
  { c with
    state := state, integral := 0, inWindow := 0, outWindow := 0, lastError := error,
    parkFrame := none, parkDone := false }

/-- The own quality is NONE: SEEK at play speed, last error 0 (R119). -/
def seekAcquire (s : State) : State := takeCommand (.speed 256) (s.setChase (s.chase.enter .seek 0))

/-- The lead is parked: speed 0 in STOPPED, PARKED, OFFLINE or LOCAL (R120). -/
def leadParked (s : State) : Bool :=
  (leadEntry s).speed = 0
    && ((leadEntry s).transport = .stopped || (leadEntry s).transport = .parked
      || (leadEntry s).transport = .offline || (leadEntry s).transport = .localControl)

/-- The frame the servo parks at (R120). -/
def parkTarget (s : State) : Nat := frameView (chaseTarget s)

/-- No locate is due: it runs with the park target, or the one to the park frame has ended (R120). -/
def parkSettled (target : Nat) (s : State) : Bool :=
  match s.tr.locate with
  | some l => l.target = target
  | none => s.chase.parkFrame = some target && s.chase.parkDone

/-- The park frame and park done after an evaluation in PARK (R120; log 28). -/
def Chase.parkAt (c : Chase) (target : Nat) (done : Bool) : Chase :=
  { c with parkFrame := some target, parkDone := done }

/-- PARK: the state is entered, and a locate to the park target is given when one is due (R120). -/
def park (e : Int) (s : State) : State :=
  let target := parkTarget s
  let settled := parkSettled target s
  let t :=
    s.setChase
      (Chase.parkAt { s.chase with state := .park, integral := 0, inWindow := 0, outWindow := 0, lastError := e }
        target (settled && s.tr.locate.isNone))
  if settled then t else servoLocate target t

/-- The seek speed (R121). -/
def seekSpeed (lead e : Int) : Int :=
  clampInt (-12800) 12800 (lead + signOf e * (min 12800 (e.natAbs / 16) : Nat))

/-- The error is too large for the servo, or the lead is out of its range (R121). -/
def seekDue (lead e : Int) : Bool := 65536 < e.natAbs || 12832 < lead.natAbs

/-- SEEK (R121). -/
def seek (e : Int) (s : State) : State :=
  takeCommand (.speed (seekSpeed (leadEntry s).speed e)) (s.setChase (s.chase.enter .seek e))

/-- The integral of the SYNC law (R122). -/
def nextIntegral (a e : Int) : Int := clampInt (-16384) 16384 (a + e)

/-- The speed of the SYNC law from the lead speed, E and the new A; divisions round toward minus infinity (R122). -/
def syncSpeed (lead e a : Int) : Int :=
  clampInt (-12800) 12800 (clampInt (lead - 32) (lead + 32) (lead + e / 8 + a / 64))

/-- The chase under the SYNC law before the lock is judged: SEEK, PARK and LOST become SYNC (R122). -/
def Chase.underSync (c : Chase) (e : Int) : Chase :=
  { c with
    state := if c.state = .locked then .locked else .sync
    integral := nextIntegral c.integral e, lastError := e, parkFrame := none, parkDone := false }

/-- The SYNC law (R122 to R124). -/
def syncLaw (e : Int) (s : State) : State :=
  let c := s.chase.underSync e
  judgeLock e (takeCommand (.speed (syncSpeed (leadEntry s).speed e c.integral)) (s.setChase c))

/-- A fresh lead: the first case that applies (R118). -/
def followFresh (s : State) : State :=
  let e := chaseError s
  if s.pos.published.quality = .none then seekAcquire s
  else if leadParked s then park e s
  else if seekDue (leadEntry s).speed e then seek e s
  else syncLaw e s

/-! ### Coasting and stale leads -/

/-- The freewheel count has reached 50 in LOST: STOP, without disabling the chase (R116); no command on LIVE (R126). -/
def freewheelStop (s : State) : State :=
  if s.chase.state = .lost ∧ 50 ≤ s.chase.freewheel then takeCommand .stop s else s

/-- A further evaluation in LOST (R116): the count stays at 50 and gives no further command. -/
def countFreewheel (s : State) : State :=
  if s.chase.freewheel < 50 then
    freewheelStop (s.setChase { s.chase with freewheel := s.chase.freewheel + 1 })
  else s

/-- Entry to LOST (R116). -/
def enterLost (s : State) : State :=
  s.setChase
    { s.chase with
      state := .lost, integral := 0, inWindow := 0, outWindow := 0, freewheel := 0, parkFrame := none,
      parkDone := false }

/-- A stale lead (R116). -/
def followStale (s : State) : State := if s.chase.state = .lost then countFreewheel s else enterLost s

/-- A coasting lead (R117; in LOST, R116). -/
def followCoasting (s : State) : State :=
  if s.chase.state = .lost then countFreewheel s
  else
    s.setChase
      { s.chase with
        state := if s.chase.state = .locked then .sync else s.chase.state, inWindow := 0, outWindow := 0 }

/-! ### The LIVE role -/

/-- An evaluation on a LIVE station (R126). -/
def followLive (s : State) : State :=
  match leadClass s with
  | .fresh =>
    s.setChase
      { s.chase with
        state := if s.time.refState = .present then .locked else .sync, lastError := 0 }
  | .coasting => s.setChase { s.chase with state := .sync }
  | .stale => followStale s

/-! ### The chase record -/

/-- An evaluation of an enabled chase (R115). -/
def follow (s : State) : State :=
  if isDeck s then
    match leadClass s with
    | .fresh => followFresh s
    | .coasting => followCoasting s
    | .stale => followStale s
  else followLive s

/-- The record of an evaluation whose target was `target` if the lead was fresh (R129). -/
def followRecord (target : Option Nat) (s : State) : ChaseRecord :=
  { state := s.chase.state, target := target.getD s.pos.published.position, usable := target.isSome,
    error := s.chase.lastError, compare := compareOf s.chase.lastError, ready := ownReady s }

/-- A chase record is published: written and handed to its takers (R130). -/
def publishChase (r : ChaseRecord) (s : State) : State :=
  s.setChase { s.chase with record := r, handed := r }

/-- The target an evaluation forms (R118). -/
def targetNow (s : State) : Option Nat := if leadClass s = .fresh then some (chaseTarget s) else none

/-- The Chase Servo answers a publication with one chase record (R115, R129, R130). -/
def chaseBoundary (s : State) : State :=
  if s.chase.state = .free then publishChase (freeRecord s.pos.published s) s
  else
    let t := follow s
    publishChase (followRecord (targetNow s) t) t

/-- The latest record follows a state reached by a limit command; nothing changes where the limit did not act (log 27). -/
def refreshRecord (before s : State) : State :=
  if s.chase.state = before.chase.state then s
  else s.setChase { s.chase with record := { s.chase.record with state := s.chase.state, ready := ownReady s } }

/-- CHASE_LOCK between evaluations (R123); a LIVE station does not use the lock counts (R126). -/
def chaseLock (s : State) : State := if isDeck s then refreshRecord s (lockIfDue s) else s

/-- OUT_WINDOW_EXPIRY between evaluations (R124). -/
def outWindowExpiry (s : State) : State := if isDeck s then refreshRecord s (unlockIfOut s) else s

/-! ### Meanings -/

/-- FREEWHEEL_EXPIRY (R116). -/
def execFreewheelExpiry (s : State) : Result := inRun freewheelStop s

/-- CHASE_LOCK (R123). -/
def execChaseLock (s : State) : Result := inRun chaseLock s

/-- OUT_WINDOW_EXPIRY (R124). -/
def execOutWindowExpiry (s : State) : Result := inRun outWindowExpiry s

end Sys2Proof.Machine
end

