-- ==== Sys2Proof/Config.lean ====
section
/-! DEFINITION. The free values: choices the manual leaves open, as constants without a body. -/

namespace Sys2Proof

/-- The takers of one field boundary (R28, R51): each acts once at every boundary. -/
inductive Taker
  /-- The Position Unit publishes the own position record (R108, R109). -/
  | publish
  /-- The Chase Servo answers the publication with a chase record (R115, R130). -/
  | evaluate
  /-- The Position Unit of a LIVE station takes the chase record (R109). -/
  | setVirtual
  /-- The Cue Engine takes the chase record (R140). -/
  | cues
  /-- The locate takes the published record (R91, R92). -/
  | locate
  /-- The Source Fader advances and sends its record (R157, R170). -/
  | fader
  /-- The GPI Unit lowers holdoffs and pulses (R174, R179). -/
  | gpi
  /-- The Peer Table clears silent entries (R62). -/
  | peers
  /-- The Transport Controller runs its timers and sends the speed word (R81, R97, R98). -/
  | transport
  /-- The Suite Link Interface steps its register and settles its queue (R47, R48). -/
  | link
  /-- The Bulletin Composer composes and queues the POSITION (R50). -/
  | compose
  deriving DecidableEq, Repr

/-- FREE VALUE (log 9): a rank for each taker at the n-th choice. R51 and R81 leave the order of the takers open; the
order taken is the one these ranks and the publications' own order give. Nothing is known of it. -/
opaque Config.takerRank : Nat → Taker → Nat

/-- FREE VALUE (log 10): a rank for each GPI input at the n-th choice. R173 leaves open in which order edges that
several inputs accept on one sample are performed. -/
opaque Config.lineRank : Nat → GpiLine → Nat

/-- FREE VALUE (log 22): the number of the pattern that a FADER context holds. R156 states none, and a DISSOLVE reads
none. -/
opaque Config.faderPattern : Nat → Nat

end Sys2Proof
end

