-- ==== Sys2Proof/Machine/Lines.lean ====
section
/-! DEFINITION. The serial lines: the order of bits and bytes (R184) and the character of R34, as it is sent and as it is
read from a sampled line. -/

namespace Sys2Proof.Machine

/-! ### Numbers and bytes (R184) -/

/-- A number as bytes, high byte first. -/
def bytesOf : Nat → Nat → List Byte
  | 0, _ => []
  | n + 1, x => BitVec.ofNat 8 (x / 256 ^ n) :: bytesOf n x

/-- The byte at an offset. -/
def byteAt (bs : List Byte) (i : Nat) : Nat := (bs.getD i 0).toNat

/-- Two bytes, high byte first. -/
def wordAt (bs : List Byte) (i : Nat) : Nat := 256 * byteAt bs i + byteAt bs (i + 1)

/-- Three bytes, high byte first. -/
def wideAt (bs : List Byte) (i : Nat) : Nat := 256 * wordAt bs i + byteAt bs (i + 2)

/-- A 16-bit number read as two's complement. -/
def signedWord (n : Nat) : Int := if n < 32768 then (n : Int) else (n : Int) - 65536

/-- A signed number as 16 bits, two's complement. -/
def wordOfInt (x : Int) : Nat := (x % 65536).toNat

/-- A bit of a number. -/
def bitOf (n i : Nat) : Bool := n / 2 ^ i % 2 = 1

/-- The number of a truth value. -/
def boolCode (b : Bool) : Nat := if b then 1 else 0

/-! ### Characters on a line (R33, R34): a level is true when recessive, which reads as 1 -/

/-- The ten bits of a character as sent: start bit dominant, data bits from the least significant, stop bit recessive. -/
def charLevels (b : Byte) : List Bool := false :: ((List.range 8).map b.getLsbD ++ [true])

/-- The bits of characters sent back to back. -/
def lineLevels (bs : List Byte) : List Bool := bs.flatMap charLevels

/-- A character as received: its data bits and whether its stop bit was sampled dominant. -/
structure LinkChar where
  byte : Byte
  framing : Bool
  deriving DecidableEq, Repr

/-- A number from its bits, the least significant first. -/
def numberOfBits (bits : List Bool) : Nat := bits.foldr (fun b n => b.toNat + 2 * n) 0

/-- The character whose data bits and stop bit are these nine samples. -/
def charOf (samples : List Bool) : LinkChar :=
  { byte := BitVec.ofNat 8 (numberOfBits (samples.take 8)), framing := !samples.getD 8 true }

/-- Where the next start bit is looked for: after a framing error from the first recessive sample on. -/
def afterChar (c : LinkChar) (rest : List Bool) : List Bool := if c.framing then rest.dropWhile (!·) else rest

/-- One character time of recessive line: after a character the line is quiet (R35). A start bit that arrives at that very
moment meets the expiry, and R39 lets either be taken first; here the expiry is, which is the model's choice (log 35). -/
def gapFollows (samples : List Bool) : Bool := samples.take 10 = List.replicate 10 true

/-- `readLine` with as many turns as samples. -/
def readChars : Nat → List Bool → List LinkChar
  | 0, _ => []
  | _ + 1, [] => []
  | n + 1, true :: rest => if gapFollows (true :: rest) then [] else readChars n rest
  | n + 1, false :: rest =>
    if rest.length < 9 then []
    else charOf (rest.take 9) :: readChars n (afterChar (charOf (rest.take 9)) (rest.drop 9))

/-- The characters read from a line sampled at the middle of its bits, up to a gap of one character time. A start bit
sampled recessive is a glitch and no start bit. -/
def readLine (samples : List Bool) : List LinkChar := readChars samples.length samples

end Sys2Proof.Machine
end

