-- ==== Sys2Proof/Machine/Fader.lean ====
section
/-! DEFINITION. The Source Fader (chapter 10): curves, levels, patterns, audio laws, the transition context's start,
advance and end, the partner check, and the mix port's records; the meanings of TRANSITION_COMPLETE and MIX_RECORD_END. -/

namespace Sys2Proof.Machine

/-! ### Curves, levels and sound -/

/-- The position p of a context from k and D by its curve (R159); 0 at k = 0. -/
def curvePosition (curve : Curve) (k d : Nat) : Nat :=
  match curve with
  | .linear => 1024 * k / d
  | .smooth => 1024 * k ^ 2 * (3 * d - 2 * k) / d ^ 3
  | .fast => 1024 * k * (2 * d - k) / d ^ 2

/-- The position p of a context at its k (R159). -/
def Context.position (c : Context) : Nat := curvePosition c.params.curve c.k c.params.duration

/-- The level of a DISSOLVE at p: rounded toward zero on the exact quotient (R160). -/
def dissolveLevel (l0 lt p : Nat) : Nat :=
  ((l0 : Int) + Int.tdiv (((lt : Int) - (l0 : Int)) * (p : Int)) 1024).toNat

/-- The audio gain of a share by a law (R167). -/
def audioGain (law : AudioLaw) (q : Nat) : Nat :=
  match law with
  | .linear => q
  | .power => q * (2048 - q) / 1024
  | .cut => if 512 ≤ q then 1024 else 0

/-- The fader level a context gives (R160, R161). -/
def Context.level (c : Context) : Nat :=
  match c.params.kind, c.params.direction with
  | .dissolve, _ => dissolveLevel c.fromLevel c.params.target c.position
  | .wipe, .inward => c.params.target
  | .wipe, .outward => c.fromLevel

/-- The program share q a context gives (R166). -/
def Context.share (c : Context) : Nat :=
  match c.params.kind, c.params.direction with
  | .dissolve, _ => c.level
  | .wipe, .inward => c.params.target * c.position / 1024
  | .wipe, .outward => c.fromLevel * (1024 - c.position) / 1024

/-- The window class a context gives (R160, R161). -/
def Context.windowClass (c : Context) : WindowClass :=
  match c.params.kind, c.params.pattern with
  | .dissolve, _ => .full
  | .wipe, .sparkle => .cells
  | .wipe, .left | .wipe, .top | .wipe, .box | .wipe, .split => .window

/-- The invert flag a context gives (R160, R161). -/
def Context.invert (c : Context) : Bool := c.params.kind = .wipe && c.params.direction = .outward

/-- The softness a context gives (R160, R161). -/
def Context.softness (c : Context) : Nat :=
  match c.params.kind with
  | .dissolve => 0
  | .wipe => c.params.softness

/-- The windows a context gives (R161). -/
def Context.shape (c : Context) : WindowShape :=
  match c.params.kind, c.params.pattern with
  | .dissolve, _ => .full
  | .wipe, .sparkle => .cells c.seed c.position
  | .wipe, .left | .wipe, .top | .wipe, .box | .wipe, .split => .spans c.params.pattern c.position

/-! ### Patterns -/

/-- One step of the 15-bit shift register: the exclusive-or of bits 14 and 13 comes in at the bottom (R41, R165). -/
def stepRegister (r : BitVec 15) : BitVec 15 :=
  (r <<< 1) ||| (BitVec.ofBool (r.getLsbD 14 ^^ r.getLsbD 13)).setWidth 15

/-- `stepRegister` made n times. -/
def stepRegisterBy : Nat → BitVec 15 → BitVec 15
  | 0, r => r
  | n + 1, r => stepRegisterBy n (stepRegister r)

/-- The sparkle seed of a tag (R165). -/
def sparkleSeed (tag : Byte) : BitVec 15 :=
  let r := BitVec.ofNat 15 (tag.toNat * 129 + 1)
  if r = 0 then 1 else r

/-- A window without pixels is [0, 0) (R163). -/
def orEmpty (w : Nat × Nat) : Nat × Nat := if w.1 < w.2 then w else (0, 0)

/-- The window [a, b) of line y of a pattern at p, for H active lines (R163, R164). -/
def lineWindow (h : Nat) (pattern : Pattern) (p y : Nat) : Nat × Nat :=
  let hw := roundHalfEven (720 * p) 1024
  let x0 := (720 - hw) / 2
  let vh := roundHalfEven (h * p) 1024
  let y0 := (h - vh) / 2
  match pattern with
  | .left => (0, hw)
  | .top => if y < vh then (0, 720) else (0, 0)
  | .box => if y0 ≤ y ∧ y < y0 + vh then orEmpty (x0, x0 + hw) else (0, 0)
  | .split => orEmpty (x0, x0 + hw)
  | .sparkle => (0, 0)

/-- The mask of the cells from column `col` on, the register standing before that cell's step (R165). -/
def cellsFrom (p : Nat) : Nat → Nat → BitVec 15 → Nat
  | 0, _, _ => 0
  | n + 1, col, r =>
    let r' := stepRegister r
    (if (r'.setWidth 10).toNat < p then 2 ^ col else 0) + cellsFrom p n (col + 1) r'

/-- The 45-cell mask of line y: column c in bit c (R165, R171, Table 12.8). -/
def lineCells (seed : BitVec 15) (p y : Nat) : Nat := cellsFrom p 45 0 (stepRegisterBy (45 * (y / 9)) seed)

/-! ### Mix port records -/

/-- The code of a window class (Table 12.8). -/
def WindowClass.code : WindowClass → Nat
  | .full => 0
  | .window => 1
  | .cells => 2

/-- The field record's seven bytes (Table 12.8). -/
def MixRecord.fieldBytes (r : MixRecord) : List Byte :=
  [0x01, BitVec.ofNat 8 (r.secondField.toNat + 2 * r.invert.toNat + 4 * r.windowClass.code)]
    ++ bytesOf 2 r.level ++ bytesOf 2 r.gain ++ bytesOf 1 r.softness

/-- The line record of line y (R171, Table 12.8). -/
def MixRecord.lineBytes (h : Nat) (r : MixRecord) (y : Nat) : List Byte :=
  match r.shape with
  | .full => []
  | .spans pattern p =>
    let w := lineWindow h pattern p y
    0x02 :: (bytesOf 2 y ++ bytesOf 2 w.1 ++ bytesOf 2 w.2)
  | .cells seed p => 0x03 :: (bytesOf 2 y ++ bytesOf 6 (lineCells seed p y))

/-- The characters of a record: the field record and, in order, the line records its class needs (R170, R171). -/
def MixRecord.bytes (h : Nat) (r : MixRecord) : List Byte :=
  r.fieldBytes ++ (List.range h).flatMap (r.lineBytes h)

/-- The characters of the record on the mix port, over the active lines of the strapped standard; none when nothing is
sent (R163, R170, R171). -/
def mixChars (s : State) : List Byte :=
  match s.mix.sending with
  | some r => r.bytes (std s).activeLines
  | none => []

/-- The bits of those characters, back to back (R34, §12.6). -/
def mixLevels (s : State) : List Bool := lineLevels (mixChars s)

/-- The windows in force (R154). -/
def shapeNow (s : State) : WindowShape :=
  match s.fader.context with
  | some c => c.shape
  | none => .full

/-- A record with the values as they now stand (R170). -/
def mixRecordNow (s : State) : MixRecord :=
  { secondField := s.time.secondField, level := s.fader.level, gain := s.fader.gain, invert := s.fader.invert,
    softness := s.fader.softness, windowClass := s.fader.windowClass, shape := shapeNow s }

/-- A record falls due: it starts at once, or follows the one being sent (R170). Nothing goes out before the first
boundary (R170; log 21). -/
def sendMix (s : State) : State :=
  if s.mix.started then
    match s.mix.sending with
    | none => s.setMix { s.mix with sending := some (mixRecordNow s), due := false }
    | some _ => s.setMix { s.mix with due := true }
  else s

/-- The record being sent ends; one further record follows if a boundary or change fell due during it (R170). -/
def endMixRecord (s : State) : State :=
  match s.mix.sending with
  | none => s
  | some _ =>
    if s.mix.due then s.setMix { s.mix with sending := some (mixRecordNow s), due := false }
    else s.setMix { s.mix with sending := none }

/-! ### The transition context -/

/-- The values of the context for its k are formed (R154). -/
def formValues (s : State) : State :=
  match s.fader.context with
  | none => s
  | some c =>
    s.setFader
      { s.fader with
        level := c.level, gain := audioGain c.params.law c.share, windowClass := c.windowClass,
        invert := c.invert, softness := c.softness }

/-- The context ends at its end values (R158). -/
def Fader.ended (f : Fader) (c : Context) : Fader :=
  { f with
    level := c.params.target, gain := audioGain c.params.law c.params.target, windowClass := .full,
    invert := false, softness := 0, context := none }

/-- The completion report: the cue of the tag goes to DONE (R150, R158). A FADER context has tag 0 and reports to none. -/
def reportComplete (tag : Byte) (s : State) : State :=
  if tag = 0 then s else updateCues (Cue.transiting tag) (fun c => c.finishAs .done s.time.fieldCount) s

/-- Completion of the context that exists (R158). -/
def completeContext (s : State) : State :=
  match s.fader.context with
  | none => s
  | some c => reportComplete c.tag (s.setFader (s.fader.ended c))

/-- A cut of the context that exists: its end values, no report (R158). -/
def cutContext (s : State) : State :=
  match s.fader.context with
  | none => s
  | some c => s.setFader (s.fader.ended c)

/-- The k-th field has reached the duration: the context completes (R158). -/
def completeIfDue (s : State) : State :=
  match s.fader.context with
  | none => s
  | some c => if c.params.duration ≤ c.k then completeContext s else s

/-- The partner a context is checked against: absent when it names the own station (R155). -/
def effectivePartner (own : Station) (partner : Option Station) : Option Station :=
  if partner = some own then none else partner

/-- The context of a start (R155, R156). Without a partner no update count is noted and nothing reads one; that it
holds 0 is the model's choice (log 34). -/
def newContext (tag : Byte) (hard : Bool) (p : TransParams) (s : State) : Context :=
  let partner := effectivePartner (own s) p.partner
  { tag := tag, params := { p with partner := partner }, fromLevel := s.fader.level, k := 0,
    start := s.time.fieldCount,
    noted := (match partner with | some st => (entry s st).updates | none => 0),
    pair := (match partner with | some _ => .pending | none => .paired),
    hard := hard, seed := sparkleSeed tag }

/-- A context is put in place: its law becomes the held law (R155, R156). -/
def placeContext (tag : Byte) (hard : Bool) (p : TransParams) (s : State) : State :=
  s.setFader { s.fader with context := some (newContext tag hard p s), law := p.law }

/-- A context starts: an existing one is completed first, the values for k = 0 are formed, a context of D = 0 completes
at once (R155, R156), and the mix port is told (R170). -/
def startContext (tag : Byte) (hard : Bool) (p : TransParams) (s : State) : State :=
  sendMix (completeIfDue (formValues (placeContext tag hard p (completeContext s))))

/-- The partner check passes: a new bulletin of the partner holds the same tag (R168). -/
def partnerPasses (c : Context) (s : State) : Bool :=
  match c.params.partner with
  | none => true
  | some st => (entry s st).updates != c.noted && (entry s st).tag = c.tag

/-- A failed check sets UNPAIRED and the cue's flag; a HARD context completes at once (R169). -/
def failPartner (c : Context) (s : State) : State :=
  let marked :=
    updateCues (Cue.transiting c.tag) (fun q => { q with unpaired := true })
      (setFlag .unpaired (s.setFader { s.fader with context := some { c with pair := .unpaired } }))
  if c.hard then completeContext marked else marked

/-- The partner check, made once when k becomes 1 (R157, R168, R169). -/
def partnerCheck (s : State) : State :=
  match s.fader.context with
  | none => s
  | some c =>
    if c.pair = .pending && c.k = 1 then
      if partnerPasses c s then s.setFader { s.fader with context := some { c with pair := .paired } }
      else failPartner c s
    else s

/-- The context is raised by one field, but for one started at this boundary (R157). -/
def advanceContext (s : State) : State :=
  match s.fader.context with
  | none => s
  | some c =>
    if c.start = s.time.fieldCount then s
    else partnerCheck (s.setFader { s.fader with context := some { c with k := c.k + 1 } })

/-- The Source Fader takes a boundary (R157, R170). -/
def faderBoundary (s : State) : State :=
  let t := completeIfDue (formValues (advanceContext s))
  sendMix (t.setMix { t.mix with started := true })

/-! ### Meanings -/

/-- TRANSITION_COMPLETE (R158): the context whose k has reached D completes, and the mix port is told (R170). -/
def transitionComplete (s : State) : State :=
  match s.fader.context with
  | none => s
  | some c => if c.params.duration ≤ c.k then sendMix (completeContext s) else s

def execTransitionComplete (s : State) : Result := inRun transitionComplete s

/-- MIX_RECORD_END (R170). -/
def execMixRecordEnd (s : State) : Result := inRun endMixRecord s

end Sys2Proof.Machine
end

