-- ==== Sys2Proof/Machine/Outputs.lean ====
section
/-! DEFINITION. The GPI outputs (R177 to R179): tally conditions, patterns and pulses; the meaning of PULSE_END. -/

namespace Sys2Proof.Machine

/-- AIR: the level is above 0 or a context exists (R55, Table 11.2). -/
def onAir (s : State) : Bool := 0 < s.fader.level || s.fader.context.isSome

/-- The condition of a tally source (Table 11.2). -/
def tallyCondition (source : TallySource) (s : State) : Bool :=
  match source with
  | .none => false
  | .record => editLines s != 0
  | .air => onAir s
  | .lock => s.chase.record.state = .locked
  | .ready => s.chase.record.ready
  | .fault => faultShown s

/-- The phase of a pattern is on (R177). -/
def patternOn (pattern : TallyPattern) (fc : Word16) : Bool :=
  match pattern with
  | .steady => true
  | .slow => fc.toNat % 48 < 24
  | .fast => fc.toNat % 12 < 6

/-- An output is active: while a pulse runs, and else by its tally (R177, R179); every output is inactive in HOLD (R20). -/
def outputActive (s : State) (line : GpiLine) : Bool :=
  let o := s.gpi.outputs[line]
  s.power.supervisor = .run &&
    (o.pulse.isSome || (tallyCondition o.source s && patternOn o.pattern s.time.fieldCount))

/-- Change one output. -/
def updateOutput (line : GpiLine) (f : GpiOutput → GpiOutput) (s : State) : State :=
  s.setGpi { s.gpi with outputs := s.gpi.outputs.set line (f s.gpi.outputs[line]) }

/-- A GPI PULSE cue starts or restarts the pulse of its line (R179). -/
def startPulse (line : GpiLine) (width : Nat) (s : State) : State :=
  updateOutput line (fun o => { o with pulse := some { count := width, start := s.time.fieldCount } }) s

/-- The pulse of an output whose count has reached 0 ends (R179). -/
def GpiOutput.endPulse (o : GpiOutput) : GpiOutput :=
  match o.pulse with
  | some p => if p.count = 0 then { o with pulse := none } else o
  | none => o

/-- An output takes a boundary: a running pulse is lowered, but for one started at this boundary (R179). -/
def GpiOutput.boundary (fc : Word16) (o : GpiOutput) : GpiOutput :=
  match o.pulse with
  | some p =>
    if p.start = fc then o else GpiOutput.endPulse { o with pulse := some { p with count := p.count - 1 } }
  | none => o

/-- PULSE_END (R179): a pulse whose count has reached 0 ends. -/
def execPulseEnd (line : GpiLine) (s : State) : Result := inRun (updateOutput line GpiOutput.endPulse) s

end Sys2Proof.Machine
end

