-- ==== Sys2Proof/Machine/Cues.lean ====
section
/-! DEFINITION. The Cue Engine (chapter 9): the list and its order, readiness, firing, the clocks, the course of a RECORD
cue, aborts; the meanings of RECORD_LENGTH_END and NOT_READY_LIMIT. -/

namespace Sys2Proof.Machine

/-! ### The list -/

/-- The trigger frame of a timed cue (R132). -/
def Cue.frame? (c : Cue) : Option Nat :=
  match c.trigger with
  | .own f | .lead f => some f
  | .gpi _ | .manual => none

/-- A timed cue of frame f is placed after the timed cues whose frame is not greater (R134). -/
def insertTimed (f : Nat) (c : Cue) : List Cue → List Cue
  | [] => [c]
  | x :: xs =>
    match x.frame? with
    | some g => if g ≤ f then x :: insertTimed f c xs else c :: x :: xs
    | none => c :: x :: xs

/-- A freshly loaded cue is placed: timed cues by frame, untimed cues at the end (R134). -/
def placeCue (c : Cue) (cs : List Cue) : List Cue :=
  match c.frame? with
  | some f => insertTimed f c cs
  | none => cs ++ [c]

/-- The cue of a tag. -/
def findCue (tag : Byte) (s : State) : Option Cue := s.cues.list.find? fun c => c.tag = tag

/-- The finished cue that a reclaim removes: the greatest elapsed count since its finish, the first such from the head
(R136). -/
def oldestFinished (fc : Word16) : List Cue → Option Cue
  | [] => none
  | c :: cs =>
    if c.finished then
      match oldestFinished fc cs with
      | none => some c
      | some d => if elapsed (c.finish.getD 0) fc < elapsed (d.finish.getD 0) fc then some d else some c
    else oldestFinished fc cs

/-- Remove the cue of a tag; the cues after it close up (R134). -/
def removeTag (tag : Byte) (cs : List Cue) : List Cue := cs.filter fun c => c.tag != tag

/-- How many cues are WAITING (R134). -/
def waitingCount (s : State) : Nat := (s.cues.list.filter fun c => c.state = .waiting).length

/-- The tag of the ACTIVE RECORD cue, 0 when none (R152). -/
def activeRecordTag (s : State) : Byte :=
  match activeRecord s with
  | some c => c.tag
  | none => 0

/-! ### Readiness -/

/-- A station of a required set is ready (R143). -/
def stationReady (ownOk : Bool) (s : State) (st : Station) : Bool :=
  if st = own s then ownOk else freshness (entry s st) s = .fresh && (entry s st).ready

/-- A cue is ready (R143): own-readiness, and every station of the required set. -/
def cueReady (ownOk : Bool) (required : Word16) (s : State) : Bool :=
  ownOk && (List.finRange 16).all fun st => !required.getLsbD st.val || stationReady ownOk s st

/-! ### Firing -/

/-- A cue that is waiting under a tag. -/
def Cue.waitingFor (tag : Byte) (c : Cue) : Bool := c.tag = tag && c.state = .waiting

/-- A waiting cue becomes ACTIVE (R144, R145). -/
def activate (tag : Byte) (remaining : Nat) (s : State) : State :=
  updateCues (Cue.waitingFor tag) (fun c => { c with state := .active, remaining := remaining, notReady := 0 }) s

/-- A cue of a tag that has just become ACTIVE takes the REHEARSAL flag, or is aborted, by the punch-in's answer (R145). -/
def answerPunch (tag : Byte) (answer : PunchAnswer) (s : State) : State :=
  match answer with
  | .punched => s
  | .rehearsal => updateCues (fun c => c.tag = tag && c.recording) (fun c => { c with rehearsal := true }) s
  | .broken =>
    setFlag .cueAborted
      (updateCues (fun c => c.tag = tag && c.recording) (fun c => c.finishAs .aborted s.time.fieldCount) s)

/-- The fire of a RECORD cue: a butt edit ends the earlier one; the cue becomes ACTIVE and punches in (R145, R146). -/
def fireRecord (tag : Byte) (tracks : Tracks) (length : Nat) (s : State) : State :=
  let t := activate tag (2 * length) (endActiveRecord s)
  answerPunch tag (punchAnswer tracks t) (punchIn tracks t)

/-- The fire of a TRANSITION cue (R150, R155). -/
def fireTransition (tag : Byte) (hard : Bool) (p : TransParams) (s : State) : State :=
  startContext tag hard p (activate tag 0 (completeContext s))

/-- The action of a cue that is DONE at its fire (R151). -/
def actAtOnce (action : CueAction) (s : State) : State :=
  match action with
  | .transport .stop => commandStop s
  | .transport .play => takeCommand (.speed 256) (disableChase s)
  | .transport (.locate f) => takeLocate f (disableChase s)
  | .gpiPulse line width => startPulse line width s
  | .mark => pushMark .cue s
  | .record _ _ | .transition _ => s

/-- A waiting cue becomes finished (R144). -/
def finishWaiting (tag : Byte) (state : CueState) (s : State) : State :=
  updateCues (Cue.waitingFor tag) (fun c => c.finishAs state s.time.fieldCount) s

/-- A SOFT cue that fires without readiness (R144). -/
def slipAtFire (tag : Byte) (s : State) : State :=
  setFlag .syncSlip (updateCues (Cue.waitingFor tag) (fun c => { c with slipped := true }) s)

/-- The fire of a waiting RECORD or TRANSITION cue, judged for readiness (R144). -/
def fireJudged (ownOk : Bool) (c : Cue) (make : State → State) (s : State) : State :=
  if cueReady ownOk c.required s then make s
  else if c.hard then setFlag .cueAborted (finishWaiting c.tag .aborted s)
  else make (slipAtFire c.tag s)

/-- The fire of a WAITING cue (R144), own-readiness being `ownOk`. -/
def fireCue (ownOk : Bool) (c : Cue) (s : State) : State :=
  match c.action with
  | .record tracks length => fireJudged ownOk c (fireRecord c.tag tracks length) s
  | .transition p => fireJudged ownOk c (fireTransition c.tag c.hard p) s
  | .transport _ | .gpiPulse _ _ | .mark => actAtOnce c.action (finishWaiting c.tag .done s)

/-- A taken edge of a line bound to CUE fires the first WAITING cue of its trigger kind (R142). -/
def fireLine (line : GpiLine) (s : State) : State :=
  match s.cues.list.find? fun c => c.state = .waiting && c.trigger = .gpi line with
  | some c => fireCue (ownReady s) c s
  | none => s

/-! ### Abort -/

/-- Every ACTIVE cue goes to ABORTED with its outcome (R139). -/
def abortActive (s : State) : State :=
  if s.cues.list.any fun c => c.state = .active then
    let cut := if s.cues.list.any fun c => c.state = .active && c.isTransition then cutContext s else s
    setFlag .cueAborted
      (updateCues (fun c => c.state = .active) (fun c => c.finishAs .aborted s.time.fieldCount) (punchOut cut))
  else s

/-- ABORT, with the mix port told when a context was cut (R139, R170). -/
def abortCues (s : State) : State :=
  let t := abortActive s
  if t.fader.context = s.fader.context then t else sendMix t

/-! ### The course of a RECORD cue -/

/-- The ACTIVE RECORD cue whose remaining count has reached 0 goes to DONE and punches out (R147). -/
def recordLengthEnd (s : State) : State :=
  match activeRecord s with
  | some c => if c.remaining = 0 then punchOut (endActiveRecord s) else s
  | none => s

/-- At a not-ready count of 3 a HARD cue is aborted and punched out; a SOFT one slips and goes on (R148). -/
def notReadyLimit (s : State) : State :=
  match activeRecord s with
  | some c =>
    if c.notReady = 3 then
      if c.hard then punchOut (abortActiveRecord s)
      else setFlag .syncSlip (updateCues Cue.recording (fun c => { c with slipped := true }) s)
    else s
  | none => s

/-- The not-ready count after a record that finds the cue ready or not (R148). -/
def countNotReady (ready : Bool) (n : Nat) : Nat := if ready then 0 else min 3 (n + 1)

/-- The readiness of the ACTIVE RECORD cue is judged at a record (R148). -/
def judgeRecord (ownOk : Bool) (s : State) : State :=
  match activeRecord s with
  | some c =>
    notReadyLimit
      (updateCues Cue.recording
        (fun q => { q with notReady := countNotReady (cueReady ownOk c.required s) q.notReady }) s)
  | none => s

/-- A record taken by the RECORD cue that was ACTIVE before it: its count is lowered, then it is judged (R147, R148). -/
def runRecord (ownOk : Bool) (s : State) : State :=
  judgeRecord ownOk
    (recordLengthEnd (updateCues Cue.recording (fun c => { c with remaining := c.remaining - 1 }) s))

/-! ### Clocks and timed firing -/

/-- A clock crossed a trigger point between two samples (R141). -/
def crossed (std : Standard) (p0 p1 : Option Nat) (frame : Nat) : Bool :=
  match p0, p1 with
  | some a, some b =>
    let d := forwardDistance std a b
    let x := forwardDistance std a (512 * frame)
    0 < d && d ≤ 1024 && 0 < x && x ≤ d
  | _, _ => false

/-- A timed cue's trigger point was crossed by the clock its trigger kind names (R141). -/
def timedDue (std : Standard) (e : CueEngine) (ownNow leadNow : Option Nat) (c : Cue) : Bool :=
  match c.trigger with
  | .own f => crossed std e.ownSample ownNow f
  | .lead f => crossed std e.leadSample leadNow f
  | .gpi _ | .manual => false

/-- The OWN clock sample: the published position, usable when its quality is not NONE (R140). -/
def ownSampleNow (s : State) : Option Nat :=
  if s.pos.published.quality = .none then none else some s.pos.published.position

/-- The LEAD clock sample: the record's target, usable when the record marks it so (R140). -/
def leadSampleNow (s : State) : Option Nat :=
  if s.chase.handed.usable then some s.chase.handed.target else none

/-- One cue of the list as it stood is tested and, if still WAITING and due, fired (R141). -/
def fireIfDue (ownOk : Bool) (due : Cue → Bool) (s : State) (c : Cue) : State :=
  match findCue c.tag s with
  | some q => if q.state = .waiting && due q then fireCue ownOk q s else s
  | none => s

/-- The timed cues are tested and fired in list order (R141). -/
def fireTimed (ownOk : Bool) (due : Cue → Bool) (s : State) : State :=
  s.cues.list.foldl (fireIfDue ownOk due) s

/-- After the fires, the RECORD cue that was ACTIVE before the record is run, unless a butt edit ended it (R147). -/
def runEarlier (ownOk : Bool) (before : Option Cue) (s : State) : State :=
  match before, activeRecord s with
  | some b, some c => if b.tag = c.tag then runRecord ownOk s else s
  | _, _ => s

/-- The Cue Engine takes a published chase record (R140, R141, R147, R148). -/
def cueBoundary (s : State) : State :=
  let ownOk := s.chase.handed.ready
  let due := timedDue (std s) s.cues (ownSampleNow s) (leadSampleNow s)
  let t := runEarlier ownOk (activeRecord s) (fireTimed ownOk due s)
  t.setCues { t.cues with ownSample := ownSampleNow s, leadSample := leadSampleNow s }

/-! ### Meanings -/

/-- RECORD_LENGTH_END (R147). -/
def execRecordLengthEnd (s : State) : Result := inRun recordLengthEnd s

/-- NOT_READY_LIMIT (R148). -/
def execNotReadyLimit (s : State) : Result := inRun notReadyLimit s

end Sys2Proof.Machine
end

