-- ==== Sys2Proof/Machine/Gpi.lean ====
section
/-! DEFINITION. The GPI inputs (R173 to R175): filter, edge select, holdoff and bindings, and the GPI Unit at a boundary;
the meanings of GPI_SAMPLE and GPI_EDGE. -/

namespace Sys2Proof.Machine

/-! ### One input -/

/-- The run count after a sample that differs from the accepted level: raised by 1, or started again at 1 when the sample
differs from the one before it (R173). -/
def GpiInput.runAfter (i : GpiInput) (level : Bool) : Nat := if i.lastSample = some level then i.run + 1 else 1

/-- One sample of an input (R173). -/
def GpiInput.sample (i : GpiInput) (level : Bool) : GpiInput :=
  if i.accepted = some level then { i with run := 0, lastSample := some level }
  else if 4 ≤ i.runAfter level then { i with accepted := some level, run := 0, lastSample := some level }
  else { i with run := i.runAfter level, lastSample := some level }

/-- An edge qualifies: the binding is not NONE and the edge select names it (R174). -/
def GpiInput.qualifies (i : GpiInput) (rise : Bool) : Bool :=
  i.binding != .none &&
    (match i.edge with
     | .fall => !rise
     | .rise => rise
     | .both => true)

/-- Change one input. -/
def updateInput (line : GpiLine) (f : GpiInput → GpiInput) (s : State) : State :=
  s.setGpi { s.gpi with inputs := s.gpi.inputs.set line (f s.gpi.inputs[line]) }

/-! ### Edges -/

/-- A PLAY edge: ignored while the chase is enabled (R86, R175). -/
def edgePlay (s : State) : State := if s.chase.state = .free then takeCommand (.speed 256) s else s

/-- A STOP edge: it disables the chase; no effect on a LIVE station (R86, R87, R175). -/
def edgeStop (s : State) : State := if isDeck s then commandStop s else s

/-- A taken edge performs the binding of its input (R175). -/
def performBinding (binding : Binding) (line : GpiLine) (s : State) : State :=
  match binding with
  | .cue => fireLine line s
  | .mark => pushMark (.gpi line) s
  | .play => edgePlay s
  | .stop => edgeStop s
  | .abort => abortCues s
  | .none => s

/-- A qualifying edge met with holdoff 0 is taken: the holdoff becomes 3 and the binding is performed (R174, R175). -/
def meetEdge (rise : Bool) (s : State) (line : GpiLine) : State :=
  let i := s.gpi.inputs[line]
  if i.qualifies rise ∧ i.holdoff = 0 then
    performBinding i.binding line (updateInput line (fun j => { j with holdoff := 3 }) s)
  else s

/-- The level of a line in a sample of the four inputs. -/
def levelOf (levels : BitVec 4) (line : GpiLine) : Bool := levels.getLsbD line.val

/-- The inputs after one sample of each (R173). -/
def sampleInputs (levels : BitVec 4) (s : State) : State :=
  s.setGpi { s.gpi with inputs := s.gpi.inputs.mapIdx fun n i => i.sample (levels.getLsbD n) }

/-- The lines whose accepted level this sample moves from one level to the other: a fall or a rise (R173). -/
def sampleEdges (levels : BitVec 4) (s : State) : List GpiLine :=
  (List.finRange 4).filter fun line =>
    s.gpi.inputs[line].accepted = some (!levelOf levels line)
      && (s.gpi.inputs[line].sample (levelOf levels line)).accepted = some (levelOf levels line)

/-- The edges in the order in which they are met: one alone needs no order, several take the free one (log 10). -/
def edgeOrder (n : Nat) (edges : List GpiLine) : List GpiLine :=
  match edges with
  | [] => []
  | [line] => [line]
  | a :: b :: rest =>
    (a :: b :: rest).insertionSort fun x y => Config.lineRank n x ≤ Config.lineRank n y

/-- The choice counter after meeting these edges: several edges draw one choice (log 30). -/
def choicesAfter (edges : List GpiLine) (n : Nat) : Nat := if edges.length ≤ 1 then n else n + 1

/-- One sample of the four inputs, and the edges it makes (R173 to R175). -/
def gpiSample (levels : BitVec 4) (s : State) : State :=
  let edges := sampleEdges levels s
  let t := (sampleInputs levels s).setChoices (choicesAfter edges s.choices)
  (edgeOrder s.choices edges).foldl (fun u line => meetEdge (levelOf levels line) u line) t

/-- A filtered fall or rise of one line: the accepted level moves to the other level and the edge is met; the first
level accepted is no edge (R173, R174; log 25). -/
def gpiEdge (line : GpiLine) (rise : Bool) (s : State) : State :=
  match s.gpi.inputs[line].accepted with
  | some level =>
    if level = rise then s
    else meetEdge rise (updateInput line (fun i => { i with accepted := some rise, run := 0 }) s) line
  | none => updateInput line (fun i => { i with accepted := some rise, run := 0 }) s

/-! ### The boundary -/

/-- The GPI Unit takes a boundary: holdoffs are lowered, running pulses counted (R174, R179). -/
def gpiBoundary (s : State) : State :=
  s.setGpi
    { inputs := s.gpi.inputs.map fun i => { i with holdoff := i.holdoff - 1 }
      outputs := s.gpi.outputs.map (GpiOutput.boundary s.time.fieldCount) }

/-! ### Meanings -/

/-- GPI_SAMPLE (R173). -/
def execGpiSample (levels : BitVec 4) (s : State) : Result := inRun (gpiSample levels) s

/-- GPI_EDGE (R174, R175). -/
def execGpiEdge (line : GpiLine) (rise : Bool) (s : State) : Result := inRun (gpiEdge line rise) s

end Sys2Proof.Machine
end

