-- ==== Sys2Proof/Machine/Operands.lean ====
section
/-! DEFINITION. Every layout of chapter 12: the codes of values, the parameters of requests and the cue record as they
are read, the POSITION payload both ways, and the bodies of the reports. -/

namespace Sys2Proof.Machine

/-! ### Labels -/

/-- A label: four bytes H, M, S, F (§12.4). -/
def labelAt (bs : List Byte) (i : Nat) : Label :=
  { hours := byteAt bs i, minutes := byteAt bs (i + 1), seconds := byteAt bs (i + 2), frames := byteAt bs (i + 3) }

/-! ### Codes (Tables 12.2 to 12.7) -/

def TransportState.code : TransportState → Nat
  | .stopped => 0
  | .parked => 1
  | .play => 2
  | .vari => 3
  | .wind => 4
  | .locating => 5
  | .offline => 6
  | .localControl => 7

def transportOfCode (n : Nat) : TransportState :=
  match n with
  | 0 => .stopped
  | 1 => .parked
  | 2 => .play
  | 3 => .vari
  | 4 => .wind
  | 5 => .locating
  | 6 => .offline
  | _ => .localControl

def ChaseState.code : ChaseState → Nat
  | .free => 0
  | .park => 1
  | .seek => 2
  | .sync => 3
  | .locked => 4
  | .lost => 5

def RefState.code : RefState → Nat
  | .lost => 0
  | .settling => 1
  | .present => 2

def Quality.code : Quality → Nat
  | .none => 0
  | .tach => 1
  | .ltc => 2
  | .virtual => 3

def qualityOfCode (n : Nat) : Quality :=
  match n with
  | 0 => .none
  | 1 => .tach
  | 2 => .ltc
  | _ => .virtual

def Compare.code : Compare → Nat
  | .level => 0
  | .ahead => 1
  | .behind => 2

def ReqResult.code : ReqResult → Nat
  | .ok => 0
  | .clamped => 1
  | .refusedState => 2
  | .refusedRole => 3
  | .refusedFull => 4
  | .refusedFormat => 5
  | .refusedUnknown => 6
  | .refusedTag => 7
  | .refusedLocal => 8

def CueState.code : CueState → Nat
  | .waiting => 0
  | .active => 1
  | .done => 2
  | .aborted => 3

def Trigger.code : Trigger → Nat
  | .own _ => 0
  | .lead _ => 1
  | .gpi line => 2 + line.val
  | .manual => 6

def CueAction.code : CueAction → Nat
  | .record _ _ => 0
  | .transition _ => 1
  | .transport _ => 2
  | .gpiPulse _ _ => 3
  | .mark => 4

def Binding.code : Binding → Nat
  | .cue => 0
  | .mark => 1
  | .play => 2
  | .stop => 3
  | .abort => 4
  | .none => 5

def bindingOfCode (n : Nat) : Option Binding :=
  match n with
  | 0 => some .cue
  | 1 => some .mark
  | 2 => some .play
  | 3 => some .stop
  | 4 => some .abort
  | 5 => some .none
  | _ => none

def EdgeSelect.code : EdgeSelect → Nat
  | .fall => 0
  | .rise => 1
  | .both => 2

def edgeOfCode (n : Nat) : Option EdgeSelect :=
  match n with
  | 0 => some .fall
  | 1 => some .rise
  | 2 => some .both
  | _ => none

def TallySource.code : TallySource → Nat
  | .none => 0
  | .record => 1
  | .air => 2
  | .lock => 3
  | .ready => 4
  | .fault => 5

def sourceOfCode (n : Nat) : Option TallySource :=
  match n with
  | 0 => some .none
  | 1 => some .record
  | 2 => some .air
  | 3 => some .lock
  | 4 => some .ready
  | 5 => some .fault
  | _ => none

def TallyPattern.code : TallyPattern → Nat
  | .steady => 0
  | .slow => 1
  | .fast => 2

def tallyPatternOfCode (n : Nat) : Option TallyPattern :=
  match n with
  | 0 => some .steady
  | 1 => some .slow
  | 2 => some .fast
  | _ => none

def Origin.code : Origin → Nat
  | .request => 0
  | .gpi line => 1 + line.val
  | .cue => 5

/-- A GPI line number 1 to 4 (Table 12.4). -/
def lineOfCode (n : Nat) : Option GpiLine :=
  match n with
  | 1 => some 0
  | 2 => some 1
  | 3 => some 2
  | 4 => some 3
  | _ => none

def curveOfCode (n : Nat) : Option Curve :=
  match n with
  | 0 => some .linear
  | 1 => some .smooth
  | 2 => some .fast
  | _ => none

def patternOfCode (n : Nat) : Option Pattern :=
  match n with
  | 0 => some .left
  | 1 => some .top
  | 2 => some .box
  | 3 => some .split
  | 4 => some .sparkle
  | _ => none

def lawOfCode (n : Nat) : Option AudioLaw :=
  match n with
  | 0 => some .linear
  | 1 => some .power
  | 2 => some .cut
  | _ => none

def kindOfCode (n : Nat) : Option TransKind :=
  match n with
  | 0 => some .dissolve
  | 1 => some .wipe
  | _ => none

def directionOfCode (n : Nat) : Option Direction :=
  match n with
  | 0 => some .inward
  | 1 => some .outward
  | _ => none

/-- HARD or SOFT, or plus or minus: 0 or 1. -/
def flagOfCode (n : Nat) : Option Bool :=
  match n with
  | 0 => some false
  | 1 => some true
  | _ => none

/-- The station in bits 0 to 3. -/
def stationOf (n : Nat) : Station := Fin.ofNat 16 n

/-! ### The REQUEST header (Table 12.3) -/

/-- TARGET of a REQUEST payload: its bytes 0 and 1, high byte first (Table 12.3, R184). -/
def targetAt (payload : List Byte) : Word16 := BitVec.ofNat 16 (wordAt payload 0)

/-- TARGET of a request (Table 12.3). -/
def targetOf (r : Request) : Word16 := targetAt [r.targetHigh, r.targetLow]

/-! ### The cue record (Tables 12.5, 12.6) -/

/-- A value read from a request and whether it was coerced on the way (R68). -/
structure Coerced (α : Type) where
  value : α
  coerced : Bool
  deriving DecidableEq, Repr

/-- A request label: none when it fails R5; coerced by R8. -/
def readLabel (std : Standard) (l : Label) : Option (Coerced Nat) :=
  if labelValid std l then some { value := requestCount std l, coerced := labelOmitted std l } else none

/-- A number held at no more than a bound (Table 9.4). -/
def atMost (bound n : Nat) : Coerced Nat := { value := min bound n, coerced := bound < n }

/-- A number held at no less than 1 (Table 9.4). -/
def atLeastOne (n : Nat) : Coerced Nat := { value := max 1 n, coerced := n = 0 }

/-- The trigger of a cue record; an untimed cue's label is ignored (R132). -/
def readTrigger (std : Standard) (bs : List Byte) : Option (Coerced Trigger) :=
  match byteAt bs 1 with
  | 0 => (readLabel std (labelAt bs 2)).map fun c => { value := .own c.value, coerced := c.coerced }
  | 1 => (readLabel std (labelAt bs 2)).map fun c => { value := .lead c.value, coerced := c.coerced }
  | 2 => some { value := .gpi 0, coerced := false }
  | 3 => some { value := .gpi 1, coerced := false }
  | 4 => some { value := .gpi 2, coerced := false }
  | 5 => some { value := .gpi 3, coerced := false }
  | 6 => some { value := .manual, coerced := false }
  | _ => none

/-- The partner byte: bit 4 set when present, the station in bits 0 to 3 (Table 12.6). -/
def partnerOf (n : Nat) : Option Station := if bitOf n 4 then some (stationOf n) else none

/-- The parameters of a TRANSITION (Table 12.6; target and duration coerced by Table 9.4). The context carries every choice,
so each is checked, a DISSOLVE's direction and pattern too (R69, R135; log 20). -/
def readTransition (bs : List Byte) : Option (Coerced CueAction) :=
  match kindOfCode (byteAt bs 10), directionOfCode (byteAt bs 11), curveOfCode (byteAt bs 16),
    patternOfCode (byteAt bs 17), lawOfCode (byteAt bs 20) with
  | some kind, some direction, some curve, some pattern, some law =>
    let target := atMost 1024 (wordAt bs 12)
    let duration := atMost 999 (wordAt bs 14)
    some
      { value :=
          .transition
            { kind := kind, direction := direction, target := target.value, duration := duration.value,
              curve := curve, pattern := pattern, softness := byteAt bs 18 % 64,
              partner := partnerOf (byteAt bs 19), law := law }
        coerced := target.coerced || duration.coerced }
  | _, _, _, _, _ => none

/-- The parameters of a TRANSPORT; the label of STOP and PLAY is ignored (R185). -/
def readTransport (std : Standard) (bs : List Byte) : Option (Coerced CueAction) :=
  match byteAt bs 10 with
  | 0 => some { value := .transport .stop, coerced := false }
  | 1 => some { value := .transport .play, coerced := false }
  | 2 =>
    (readLabel std (labelAt bs 11)).map fun c => { value := .transport (.locate c.value), coerced := c.coerced }
  | _ => none

/-- The action of a cue record and its parameters (Tables 12.5, 12.6, 9.4). -/
def readAction (std : Standard) (bs : List Byte) : Option (Coerced CueAction) :=
  match byteAt bs 9 with
  | 0 =>
    let length := atLeastOne (wordAt bs 11)
    some { value := .record (BitVec.ofNat 4 (byteAt bs 10)) length.value, coerced := length.coerced }
  | 1 => readTransition bs
  | 2 => readTransport std bs
  | 3 =>
    let width := atLeastOne (byteAt bs 11)
    (lineOfCode (byteAt bs 10)).map fun line =>
      { value := .gpiPulse line width.value, coerced := width.coerced }
  | 4 => some { value := .mark, coerced := false }
  | _ => none

/-- A newly loaded cue (R132). -/
def newCue (tag : Byte) (trigger : Trigger) (hard : Bool) (required : Word16) (action : CueAction) : Cue :=
  { tag := tag, trigger := trigger, hard := hard, required := required, action := action, state := .waiting,
    slipped := false, unpaired := false, rehearsal := false, finish := none, remaining := 0, notReady := 0 }

/-- The cue record of CUE LOAD: none when its FORMAT check fails (R69, R135). The mode is held for every cue and checked
for every one (R132; log 20). -/
def readCue (std : Standard) (bs : List Byte) : Option (Coerced Cue) :=
  if bs.length = 21 ∧ byteAt bs 0 ≠ 0 then
    match readTrigger std bs, flagOfCode (byteAt bs 6), readAction std bs with
    | some trigger, some soft, some action =>
      some
        { value :=
            newCue (bs.getD 0 0) trigger.value (!soft) (BitVec.ofNat 16 (wordAt bs 7)) action.value
          coerced := trigger.coerced || action.coerced }
    | _, _, _ => none
  else none

/-! ### The POSITION payload (Table 12.2) -/

/-- The twenty bytes of a bulletin with every value as it stands at composition (R50 to R56). -/
def bulletinBytes (s : State) : List Byte :=
  let r := s.pos.published
  let c := s.chase.handed
  bytesOf 1 ((transportState s).code + 8 * c.state.code + 64 * s.time.refState.code)
    ++ bytesOf 3 (frameView r.position)
    ++ bytesOf 2 (phaseView r.position + 512 * r.quality.code + 2048 * boolCode c.ready + 4096 * c.compare.code)
    ++ bytesOf 2 (wordOfInt r.motion)
    ++ bytesOf 1 (s.chase.lead.val + 16 * s.tr.armed.toNat)
    ++ bytesOf 1 ((editLines s).toNat + 16 * s.marks.length)
    ++ bytesOf 2 (s.fader.level + 2048 * boolCode (onAir s) + 4096 * s.req.lastResult.code)
    ++ [match s.fader.context with | some x => x.tag | none => 0, activeRecordTag s]
    ++ bytesOf 1 (waitingCount s)
    ++ bytesOf 2 s.flags.toNat
    ++ [s.req.lastTag, s.req.count, 0]

/-- What a peer entry holds of a bulletin (R57). -/
structure PeerContents where
  frame : Nat
  phase : Nat
  quality : Quality
  speed : Int
  transport : TransportState
  ready : Bool
  tag : Byte
  deriving DecidableEq, Repr

/-- A POSITION payload is well formed (R60). -/
def bulletinWellFormed (std : Standard) (bs : List Byte) : Bool :=
  bs.length = 20 && byteAt bs 0 / 8 % 8 ≤ 5 && byteAt bs 0 / 64 ≤ 2 && wideAt bs 1 < std.fpd
    && wordAt bs 4 / 4096 % 4 ≤ 2 && byteAt bs 9 / 16 ≤ 8 && wordAt bs 10 % 2048 ≤ 1024
    && wordAt bs 10 / 4096 ≤ 8 && byteAt bs 14 % 32 ≤ 24

/-- The contents a peer entry takes from a payload (R57, Table 12.2). -/
def readBulletin (bs : List Byte) : PeerContents :=
  { frame := wideAt bs 1, phase := wordAt bs 4 % 512, quality := qualityOfCode (wordAt bs 4 / 512 % 4),
    speed := signedWord (wordAt bs 6), transport := transportOfCode (byteAt bs 0 % 8),
    ready := bitOf (wordAt bs 4) 11, tag := bs.getD 12 0 }

/-! ### Reports (§12.5) -/

/-- The header of a report: kind, tag echo, requester (R71). -/
def reportHeader (kind : Nat) (r : Request) : List Byte :=
  bytesOf 1 kind ++ [r.tag] ++ bytesOf 1 (r.source.toNat % 16)

/-- The straps as read (Table 12.7). -/
def strapByte (p : Straps) : Nat := p.station.val + 16 * p.role.toNat + 64 * p.std.toNat

/-- An input's byte (Table 12.7). -/
def GpiInput.statusByte (i : GpiInput) : List Byte := bytesOf 1 (i.binding.code + 16 * i.edge.code)

/-- An output's byte (Table 12.7). -/
def GpiOutput.statusByte (o : GpiOutput) : List Byte := bytesOf 1 (o.source.code + 16 * o.pattern.code)

/-- The STATUS body (R72, Table 12.7). -/
def statusBody (s : State) : List Byte :=
  bytesOf 1 (strapByte s.straps) ++ bytesOf 1 (role s).code ++ bytesOf 1 s.time.refState.code
    ++ bytesOf 2 s.time.fieldCount.toNat ++ bytesOf 2 s.flags.toNat
    ++ bytesOf 2 s.link.rxBad ++ bytesOf 2 s.link.collisions ++ bytesOf 2 s.link.txDropped
    ++ bytesOf 2 s.pos.tcRejects ++ bytesOf 2 s.pos.jams
    ++ bytesOf 1 s.chase.lead.val ++ bytesOf 3 s.chase.offset ++ bytesOf 1 s.tr.armed.toNat
    ++ s.gpi.inputs.toList.flatMap GpiInput.statusByte ++ s.gpi.outputs.toList.flatMap GpiOutput.statusByte

/-- A cue's state byte (§12.5). -/
def Cue.stateByte (c : Cue) : Nat :=
  c.state.code + 4 * boolCode c.slipped + 8 * boolCode c.unpaired + 16 * boolCode c.rehearsal

/-- A cue's entry in the CUES report (R73). -/
def Cue.entryBytes (c : Cue) : List Byte :=
  [c.tag] ++ bytesOf 1 c.stateByte ++ bytesOf 1 c.trigger.code ++ bytesOf 3 (c.frame?.getD 0)
    ++ bytesOf 1 c.action.code

/-- The CUES body: up to five entries from the start index (R73). -/
def cuesBody (start : Nat) (s : State) : List Byte :=
  bytesOf 1 s.cues.list.length ++ bytesOf 1 start ++ ((s.cues.list.drop start).take 5).flatMap Cue.entryBytes

/-- A mark's entry in the MARKS report (R74). -/
def Mark.entryBytes (m : Mark) : List Byte :=
  bytesOf 3 m.frame ++ bytesOf 2 (m.phase + 512 * m.quality.code + 2048 * m.origin.code)

/-- The MARKS body: the count and every entry, top first (R74). -/
def marksBody (s : State) : List Byte := bytesOf 1 s.marks.length ++ s.marks.flatMap Mark.entryBytes

end Sys2Proof.Machine
end

