-- ==== Sys2Proof/Machine/Link.lean ====
section
/-! DEFINITION. The Suite Link Interface and the Peer Table's taking of bulletins (chapters 3 and 4): the CRC, the
receiver, deferral, sending, collision, the transmit queue; the meanings of the link commands. -/

namespace Sys2Proof.Machine

/-! ### Frames and their check -/

/-- One data bit of the CRC (R37). -/
def crcBit (crc : BitVec 16) (bit : Bool) : BitVec 16 :=
  if crc.getLsbD 15 ^^ bit then (crc <<< 1) ^^^ 0x1021 else crc <<< 1

/-- One character of the CRC, most significant bit first (R37). -/
def crcByte (crc : BitVec 16) (b : Byte) : BitVec 16 :=
  [7, 6, 5, 4, 3, 2, 1, 0].foldl (fun c i => crcBit c (b.getLsbD i)) crc

/-- The CRC of a run of characters (R37). -/
def crcOf (bs : List Byte) : BitVec 16 := bs.foldl crcByte 0xFFFF

/-- SOURCE of the station's own frames (Table 12.1). -/
def sourceByte (p : Straps) : Byte :=
  BitVec.ofNat 8 (p.station.val + 16 * (heldRole p).code + 64 * p.std.toNat)

/-- The KIND of a frame the station sends (Table 12.1). -/
def TxKind.byte : TxKind → Byte
  | .position => 0x31
  | .report => 0x64

/-- The characters of a frame the station sends: preamble, SYNC, KIND, SOURCE, LENGTH, payload, CRC (R36). -/
def frameChars (p : Straps) (f : TxFrame) : List Byte :=
  let body := f.kind.byte :: sourceByte p :: BitVec.ofNat 8 f.payload.length :: f.payload
  [0x55, 0xD3] ++ body ++ bytesOf 2 (crcOf body).toNat

/-- The standard in a SOURCE byte (Table 12.1). -/
def sourceStandard (source : Byte) : BitVec 2 := BitVec.ofNat 2 (source.toNat / 64)

/-- The station number in a SOURCE byte (Table 12.1). -/
def sourceStation (source : Byte) : Station := stationOf source.toNat

/-- A SOURCE of a standard other than the own strap (R39). -/
def foreignStandard (source : Byte) (s : State) : Bool := sourceStandard source != s.straps.std

/-- The first error of R39 is met within these characters from KIND on: a framing error on a character of the frame, a
LENGTH above 48, and at the last CRC character a wrong CRC or a foreign standard. What follows the last is no part of it. -/
def frameBroken (chars : List LinkChar) (s : State) : Bool :=
  let bs := chars.map LinkChar.byte
  let total := 5 + byteAt bs 2
  let body := bs.take (total - 2)
  (chars.take total).any LinkChar.framing
    || (3 ≤ bs.length && 48 < byteAt bs 2)
    || (3 ≤ bs.length && total ≤ bs.length
        && (wordAt bs (total - 2) != (crcOf body).toNat || foreignStandard (bs.getD 1 0) s))

/-! ### Backoff and the head of the queue -/

/-- The register is stepped once (R41). -/
def stepBackoff (s : State) : State := s.setLink { s.link with backoff := stepRegister s.link.backoff }

/-- How many low bits a frame draws: 3 to 6, by its collisions (Table 3.2). -/
def drawBits (collisions : Nat) : Nat := min 6 (3 + collisions)

/-- The window W of a frame (Table 3.2). -/
def windowOf (collisions : Nat) : Nat := 2 ^ drawBits collisions

/-- The head of the waiting frames: the POSITION, and otherwise the oldest REPORT (R46). -/
def headFrame (l : Link) : Option TxFrame :=
  match l.position with
  | some f => some f
  | none => l.reports.head?

/-- The start cutoff: at least 960 µs, 11,520 clocks, remain before the expected next boundary (R47). -/
def beforeCutoff (s : State) : Bool := s.time.clock + 11520 ≤ s.time.lastBoundary + (std s).period

/-- The REPORT at the head starts. -/
def startReport (s : State) : State :=
  match s.link.reports with
  | [] => s
  | f :: rest =>
    s.setLink { s.link with phase := .sending f false, reports := rest, rx := .ignore, quiet := false }

/-- The head frame starts, unless a POSITION meets the start cutoff and is held back (R42, R47). While a frame is sent
the receiver stays in IGNORE (R40). -/
def startHead (s : State) : State :=
  match s.link.position with
  | some f =>
    if beforeCutoff s then
      s.setLink { s.link with phase := .sending f false, position := none, rx := .ignore, quiet := false }
    else s.setLink { s.link with phase := .idle, heldBack := true }
  | none => startReport s

/-- The draw of a deferral: the register is stepped, then k is its low bits (R41). -/
def drawSlots (r : BitVec 15) (collisions : Nat) : Nat := r.toNat % windowOf collisions

/-- A deferral for a head frame: a draw, and at k = 0 an immediate start (R42). -/
def deferFor (f : TxFrame) (s : State) : State :=
  let t := stepBackoff s
  let k := drawSlots t.link.backoff f.collisions
  if k = 0 then startHead t else t.setLink { t.link with phase := .deferring k }

/-- A deferral begins when the line is quiet, nothing is being sent or deferred, and the head may start (R42, R47). -/
def beginDeferral (s : State) : State :=
  if s.link.quiet ∧ s.link.phase = .idle ∧ ¬(s.link.position.isSome ∧ s.link.heldBack) then
    match headFrame s.link with
    | some f => deferFor f s
    | none => s
  else s

/-- A deferral is abandoned (R43). -/
def abandonDeferral (s : State) : State :=
  match s.link.phase with
  | .deferring _ => s.setLink { s.link with phase := .idle }
  | .idle | .sending _ _ | .jamming => s

/-- The head changed: a running deferral is abandoned and a new one begun at once if the line is quiet (R43, R47). -/
def headChanged (s : State) : State := beginDeferral (abandonDeferral s)

/-! ### The queue -/

/-- tx_dropped rises by n (R49). -/
def dropFrames (n : Nat) (s : State) : State :=
  s.setLink { s.link with txDropped := bumpCounterBy n s.link.txDropped }

/-- A waiting POSITION is dropped (R46, R47). -/
def dropPosition (s : State) : State :=
  setFlag .bulletinDropped (dropFrames 1 (s.setLink { s.link with position := none, heldBack := false }))

/-- A POSITION on the line is let go (R46, R47). -/
def letGo (s : State) : State :=
  match s.link.phase with
  | .sending f _ =>
    if f.kind = .position then s.setLink { s.link with phase := .sending f true } else s
  | .idle | .deferring _ | .jamming => s

/-- A new POSITION joins: a waiting one is dropped, one on the line is let go, and the head changes (R46). -/
def joinPosition (payload : List Byte) (s : State) : State :=
  let t := if s.link.position.isSome then dropPosition s else letGo s
  headChanged
    (t.setLink
      { t.link with
        position :=
          some { kind := .position, payload := payload, collisions := 0, joined := t.time.fieldCount }
        heldBack := false })

/-- How many REPORTs the queue holds, the one on the line included (R46, R71). -/
def reportsHeld (l : Link) : Nat :=
  l.reports.length +
    (match l.phase with
     | .sending f _ => if f.kind = .report then 1 else 0
     | .idle | .deferring _ | .jamming => 0)

/-- A new REPORT joins at the tail (R46); a deferral begins when it is the first frame of a quiet line (R42). -/
def joinReport (payload : List Byte) (s : State) : State :=
  beginDeferral
    (s.setLink
      { s.link with
        reports := s.link.reports
          ++ [{ kind := .report, payload := payload, collisions := 0, joined := s.time.fieldCount }] })

/-- A REPORT has reached its 25th boundary (R48). -/
def TxFrame.expired (f : TxFrame) (fc : Word16) : Bool := 25 ≤ elapsed f.joined fc

/-- The waiting REPORTs that have expired are dropped, each counted (R48). -/
def dropExpired (s : State) : State :=
  dropFrames (s.link.reports.filter fun f => f.expired s.time.fieldCount).length
    (s.setLink { s.link with reports := s.link.reports.filter fun f => !f.expired s.time.fieldCount })

/-- A head other than before restarts the deferral (R43). -/
def restartIfChanged (before s : State) : State :=
  if headFrame s.link = headFrame before.link then s else headChanged s

/-- The waiting REPORTs that have expired are dropped; a changed head restarts the deferral (R43, R48). -/
def expireReports (s : State) : State := restartIfChanged s (dropExpired s)

/-- A POSITION on the line that was composed before this boundary is let go; one composed for it is kept (R47). -/
def letOldGo (s : State) : State :=
  match s.link.phase with
  | .sending f _ => if f.joined = s.time.fieldCount then s else letGo s
  | .idle | .deferring _ | .jamming => s

/-- The POSITION is settled at a boundary: a waiting one composed before it is dropped, one on the line is let go
(R46, R47). -/
def settlePosition (s : State) : State :=
  match s.link.position with
  | some f => if f.joined = s.time.fieldCount then s else dropPosition s
  | none => letOldGo s

/-- The Suite Link Interface takes a boundary (R47, R48). That the POSITION is settled and the REPORTs expire before a
changed head draws once is the model's choice (log 32). -/
def linkBoundary (s : State) : State := restartIfChanged s (dropExpired (settlePosition (stepBackoff s)))

/-! ### Reception -/

/-- A frame is discarded: rx_bad rises and LINK_ERROR is set; the receiver goes on in a state (R39). -/
def discardFrame (next : RxState) (s : State) : State :=
  setFlag .linkError (s.setLink { s.link with rxBad := bumpCounter s.link.rxBad, rx := next })

/-- The time of a timed event: the clock and the internal timebase count move on together, the count starting again at each
nominal period; outside PRESENT each period completed so makes a boundary due (R22; log 14). -/
def atTime (time : Nat) (s : State) : State :=
  let now := max s.time.clock time
  let n := s.time.count + (now - s.time.clock)
  s.setTime
    { s.time with
      clock := now, count := n % (std s).period
      due := if s.time.refState = .present then 0 else s.time.due + n / (std s).period }

/-- The line becomes quiet: a frame being collected ends with a gap error, the receiver enters WAIT, a waiting sender
begins its deferral (R35, R38, R39, R42). -/
def quietNow (s : State) : State :=
  let t := if s.link.rx = .frame then discardFrame .wait s else s
  beginDeferral (t.setLink { t.link with quiet := true, rx := .wait })

/-- The station drives nothing: the line can become quiet (R33, R35). -/
def driverReleased (l : Link) : Bool :=
  match l.phase with
  | .idle | .deferring _ => true
  | .sending _ _ | .jamming => false

/-- LINE_QUIET: an event when the line was not quiet and the station drives nothing (R35). -/
def lineQuiet (time : Nat) (s : State) : State :=
  if driverReleased s.link ∧ !s.link.quiet then quietNow (atTime time s) else atTime time s

/-- GAP_ERROR: within a frame it is the moment the line becomes quiet (R39). -/
def gapError (time : Nat) (s : State) : State :=
  if s.link.rx = .frame ∧ driverReleased s.link then quietNow (atTime time s) else atTime time s

/-- A start bit of another station: the line is no longer quiet and a deferral is abandoned (R35, R43). -/
def startBit (s : State) : State :=
  if driverReleased s.link then
    let t := abandonDeferral s
    t.setLink { t.link with quiet := false }
  else s

/-- A character of this value without a framing error. -/
def cleanChar (c : LinkChar) (value : Byte) : Bool := c.byte = value && !c.framing

/-- The first character after a quiet, and the next one after a clean 55h, are a frame start (R38). -/
def startRecognised (first : LinkChar) (second : Option LinkChar) : Bool :=
  cleanChar first 0xD3 ||
    (cleanChar first 0x55 &&
      match second with
      | some c => cleanChar c 0xD3
      | none => false)

/-- The first character after a quiet is judged, in WAIT alone; the receiver enters FRAME or IGNORE (R38). -/
def judgeStart (first : LinkChar) (second : Option LinkChar) (s : State) : State :=
  if s.link.rx = .wait ∧ driverReleased s.link then
    let t := startBit s
    t.setLink { t.link with rx := if startRecognised first second then .frame else .ignore }
  else s

/-- FRAME_START: the line is read and its first character judged; a glitch alone is no character (R34, R38). -/
def frameStart (line : List Bool) (s : State) : State :=
  match readLine line with
  | [] => s
  | first :: rest => judgeStart first rest.head? s

/-- BROKEN_FRAME: the line is read; a frame being collected that meets an error is discarded (R34, R39). -/
def brokenFrame (line : List Bool) (s : State) : State :=
  if s.link.rx = .frame ∧ frameBroken (readLine line) s then discardFrame .ignore s else s

/-- The arrival of a frame whose CRC is right, in FRAME: a foreign standard discards it (R39); otherwise the receiver
enters IGNORE and the frame is handed on (R40). -/
def arrive (source : Byte) (take : State → State) (s : State) : State :=
  if s.link.rx = .frame then
    if foreignStandard source s then discardFrame .ignore s
    else take (s.setLink { s.link with rx := .ignore })
  else s

/-- An entry replaced by an arrival (R57, R58). -/
def PeerEntry.replaced (e : PeerEntry) (c : PeerContents) (fc : Word16) : PeerEntry :=
  { heard := true, frame := c.frame, phase := c.phase, quality := c.quality, speed := c.speed,
    transport := c.transport, ready := c.ready, tag := c.tag, arrival := fc, updates := e.updates + 1 }

/-- Change one entry of the Peer Table. -/
def updateEntry (st : Station) (f : PeerEntry → PeerEntry) (s : State) : State :=
  s.setPeers (s.peers.set st (f s.peers[st]))

/-- The Peer Table takes a POSITION: the clash test, the payload's form, then the replacement (R58 to R60). -/
def takeBulletin (source : Byte) (payload : List Byte) (s : State) : State :=
  if sourceStation source = own s then setFlag .clash s
  else if bulletinWellFormed (std s) payload then
    updateEntry (sourceStation source) (fun e => e.replaced (readBulletin payload) s.time.fieldCount) s
  else s

/-- An entry silent for 250 boundaries is cleared to unheard (R62). -/
def PeerEntry.silenced (fc : Word16) (e : PeerEntry) : PeerEntry :=
  if e.heard ∧ 250 ≤ elapsed e.arrival fc then { e with heard := false } else e

/-- The Peer Table takes a boundary (R62). -/
def peersBoundary (s : State) : State := s.setPeers (s.peers.map (PeerEntry.silenced s.time.fieldCount))

/-! ### Sending -/

/-- DEFERRAL_END: the head frame starts, unless a POSITION meets the start cutoff (R42, R47). -/
def deferralEnd (time : Nat) (s : State) : State :=
  let t := atTime time s
  match s.link.phase with
  | .deferring _ => startHead t
  | .idle | .sending _ _ | .jamming => t

/-- FRAME_SENT: the frame leaves the queue (R42). -/
def frameSent (s : State) : State :=
  match s.link.phase with
  | .sending _ _ => s.setLink { s.link with phase := .idle }
  | .idle | .deferring _ | .jamming => s

/-- A frame on the line that is not returned to the queue: a POSITION let go or a REPORT expired (R45). -/
def notReturned (f : TxFrame) (gone : Bool) (fc : Word16) : Bool :=
  gone || (f.kind = .report && f.expired fc)

/-- BULLETIN_DROPPED is set if the dropped frame is a POSITION (R45). -/
def flagDropped (f : TxFrame) (s : State) : State :=
  if f.kind = .position then setFlag .bulletinDropped s else s

/-- A collided frame goes back to its place, its count raised (R45). -/
def returnFrame (f : TxFrame) (s : State) : State :=
  let g := { f with collisions := f.collisions + 1 }
  match f.kind with
  | .position => s.setLink { s.link with position := some g, heldBack := false }
  | .report => s.setLink { s.link with reports := g :: s.link.reports }

/-- What becomes of a collided frame (R45). R45 sets LINK_ERROR at a frame's eighth collision and does not set it for one let go
or expired; where both hold, the second is followed, which is the model's choice (log 36). -/
def settleCollided (f : TxFrame) (gone : Bool) (s : State) : State :=
  if notReturned f gone s.time.fieldCount then flagDropped f (dropFrames 1 s)
  else if 8 ≤ f.collisions + 1 then setFlag .linkError (flagDropped f (dropFrames 1 s))
  else returnFrame f s

/-- COLLISION: the station stops its frame and jams; the collision is counted (R44, R45). -/
def collide (s : State) : State :=
  match s.link.phase with
  | .sending f gone =>
    settleCollided f gone
      (s.setLink { s.link with phase := .jamming, collisions := bumpCounter s.link.collisions })
  | .idle | .deferring _ | .jamming => s

/-- JAM_END: the line is released (R44). -/
def jamEnd (s : State) : State :=
  match s.link.phase with
  | .jamming => s.setLink { s.link with phase := .idle }
  | .idle | .deferring _ | .sending _ _ => s

/-- The characters of the frame on the line (R36); none when nothing is being sent. -/
def txChars (s : State) : List Byte :=
  match s.link.phase with
  | .sending f _ => frameChars s.straps f
  | .idle | .deferring _ | .jamming => []

/-- The bits the station drives: those of its frame, or the jam, one character time dominant; none while the driver is
released (R33, R34, R44). -/
def txLevels (s : State) : List Bool :=
  match s.link.phase with
  | .sending _ _ => lineLevels (txChars s)
  | .jamming => List.replicate 10 false
  | .idle | .deferring _ => []

/-! ### Meanings -/

/-- LINE_QUIET (R35, R38, R42). -/
def execLineQuiet (time : Nat) (s : State) : Result := inRun (lineQuiet time) s

/-- DEFERRAL_END (R42). -/
def execDeferralEnd (time : Nat) (s : State) : Result := inRun (deferralEnd time) s

/-- START_BIT_SEEN (R43). -/
def execStartBitSeen (s : State) : Result := inRun startBit s

/-- FRAME_SENT (R42). -/
def execFrameSent (s : State) : Result := inRun frameSent s

/-- COLLISION (R44, R45). -/
def execCollision (s : State) : Result := inRun collide s

/-- JAM_END (R44). -/
def execJamEnd (s : State) : Result := inRun jamEnd s

/-- GAP_ERROR (R39). -/
def execGapError (time : Nat) (s : State) : Result := inRun (gapError time) s

/-- FRAME_START (R38). -/
def execFrameStart (start next : List Bool) (s : State) : Result := inRun (frameStart (start ++ next)) s

/-- BROKEN_FRAME (R39). -/
def execBrokenFrame (line : List Bool) (s : State) : Result := inRun (brokenFrame line) s

/-- POSITION_ARRIVAL (R40, R58 to R60). -/
def execPositionArrival (source : Byte) (payload : List Byte) (s : State) : Result :=
  inRun (arrive source (takeBulletin source payload)) s

/-- REPORT_ARRIVAL: handed to no block (R40). -/
def execReportArrival (source : Byte) (_payload : List Byte) (s : State) : Result := inRun (arrive source id) s

/-- UNKNOWN_KIND_ARRIVAL: dropped without counting (R40). -/
def execUnknownKindArrival (_kind source : Byte) (_payload : List Byte) (s : State) : Result :=
  inRun (arrive source id) s

/-- PEER_SILENCE_CLEAR (R62). -/
def execPeerSilenceClear (station : Station) (s : State) : Result :=
  inRun (updateEntry station (PeerEntry.silenced s.time.fieldCount)) s

/-- REPORT_EXPIRY (R48). -/
def execReportExpiry (s : State) : Result := inRun expireReports s

end Sys2Proof.Machine
end

