-- ==== Sys2Proof/Machine/Position.lean ====
section
/-! DEFINITION. The Position Unit (chapter 7): tach, timecode words, trim and jam, quality, publication and the virtual
position; the meanings of TACH_PULSE, TIMECODE_WORD, CANDIDATE_EXPIRY and SILENT_COUNT_EXPIRY. -/

namespace Sys2Proof.Machine

/-- A count of field pulses stays within its range (R100). -/
def holdPulses (x : Int) : Int := clampInt (-32768) 32767 x

/-- A tach pulse on a deck station (R100). -/
def tachPulse (forward : Bool) (s : State) : State :=
  if isDeck s then
    s.setPos
      { s.pos with
        held := modSum (std s) s.pos.held (if forward then 32 else -32)
        pulses := holdPulses (s.pos.pulses + (if forward then 1 else -1)) }
  else s

/-- The reader delivers words at this moment (R101). -/
def wordsDelivered (s : State) : Bool :=
  isDeck s && s.pins.threaded && 32 ≤ s.pos.published.motion.natAbs && s.pos.published.motion.natAbs ≤ 4096

/-- The position of a delivered word of count c (R101). -/
def wordPosition (std : Standard) (c : Nat) (backward : Bool) : Nat :=
  if backward then c * 512 else (c + 1) * 512 % std.day

/-- tc_rejects rises by 1 (R110). -/
def bumpRejects (s : State) : State := s.setPos { s.pos with tcRejects := bumpCounter s.pos.tcRejects }

/-- A word adopted as a trim; the record is written at once (R103). -/
def trimTo (x : Nat) (s : State) : State :=
  s.setPos
    { s.pos with
      held := x, quality := .ltc, adopted := true, silent := 0,
      record := { s.pos.record with position := x, quality := .ltc } }

/-- TC_JUMP is set if the quality before the jam was TACH or LTC (R105). -/
def jumpFlag (q : Quality) (s : State) : State :=
  if q = .tach ∨ q = .ltc then setFlag .tcJump s else s

/-- A jam to the position of a confirming word (R105); the candidate is then absent (R104). -/
def jamTo (x : Nat) (s : State) : State :=
  jumpFlag s.pos.quality
    (s.setPos
      { s.pos with
        held := x, quality := .ltc, adopted := true, jammed := true, silent := 0, candidate := none,
        jams := bumpCounter s.pos.jams,
        record := { s.pos.record with position := x, quality := .ltc, jammed := true } })

/-- A valid word judged with no candidate held: a trim within 1,024 micros, and otherwise the candidate (R103). -/
def judgeWord (c : Nat) (backward : Bool) (s : State) : State :=
  let x := wordPosition (std s) c backward
  if (signedDiff (std s) x s.pos.held).natAbs ≤ 1024 then trimTo x s
  else s.setPos
    { s.pos with candidate := some { count := c, backward := backward, arrival := s.time.fieldCount } }

/-- A word confirms the candidate (R104). -/
def confirms (std : Standard) (k : Candidate) (c : Nat) (backward : Bool) (fc : Word16) : Bool :=
  k.backward = backward && c = (if backward then prevCount std k.count else nextCount std k.count)
    && elapsed k.arrival fc ≤ 3

/-- The candidate is discarded and counted (R104). -/
def discardCandidate (s : State) : State := bumpRejects (s.setPos { s.pos with candidate := none })

/-- A valid word (R103, R104). -/
def takeWord (c : Nat) (backward : Bool) (s : State) : State :=
  match s.pos.candidate with
  | none => judgeWord c backward s
  | some k =>
    if confirms (std s) k c backward s.time.fieldCount then jamTo (wordPosition (std s) c backward) s
    else judgeWord c backward (discardCandidate s)

/-- A decoded word at its arrival (R101, R102): a label that is invalid or omitted is rejected. -/
def timecodeWord (label : Label) (backward : Bool) (s : State) : State :=
  if wordsDelivered s then
    if labelValid (std s) label && !labelOmitted (std s) label then takeWord (labelCount (std s) label) backward s
    else bumpRejects s
  else s

/-- A candidate four boundaries old is discarded and counted (R104). -/
def expireCandidate (s : State) : State :=
  match s.pos.candidate with
  | some k => if 4 ≤ elapsed k.arrival s.time.fieldCount then discardCandidate s else s
  | none => s

/-- LTC with a silent count of 25 becomes TACH (R106). -/
def expireSilence (s : State) : State :=
  if s.pos.quality = .ltc ∧ 25 ≤ s.pos.silent then s.setPos { s.pos with quality := .tach } else s

/-- The silent count at a boundary (R106). -/
def countSilence (s : State) : State :=
  if s.pos.pulses ≠ 0 ∧ !s.pos.adopted then s.setPos { s.pos with silent := min 25 (s.pos.silent + 1) } else s

/-- The record a deck station publishes (R108). -/
def deckRecord (p : Position) : PosRecord :=
  { position := p.held, quality := p.quality, motion := holdMotion (32 * p.pulses), jammed := p.jammed }

/-- A record is published and the field's own marks are cleared (R108). -/
def publishRecord (r : PosRecord) (s : State) : State :=
  s.setPos { s.pos with record := r, published := r, pulses := 0, adopted := false, jammed := false }

/-- Publication on a PLAYER or RECORDER (R108). -/
def publishDeck (s : State) : State :=
  let t := expireSilence (countSilence (expireCandidate s))
  publishRecord (deckRecord t.pos) t

/-- The record a LIVE station publishes at the advanced position (R109). -/
def virtualRecord (s : State) : PosRecord :=
  let x := modSum (std s) s.pos.held 256
  { position := x, quality := .virtual, motion := holdMotion (signedDiff (std s) x s.pos.published.position),
    jammed := false }

/-- Publication on a LIVE station: the virtual position advances a field at play speed (R109). -/
def publishLive (s : State) : State :=
  let r := virtualRecord s
  publishRecord r (s.setPos { s.pos with held := r.position })

/-- The Position Unit takes a boundary (R108, R109). -/
def positionBoundary (s : State) : State := if isDeck s then publishDeck s else publishLive s

/-- A LIVE station takes the chase record: a usable target of an enabled chase becomes the held position and the record
is written again (R109). -/
def setVirtual (s : State) : State :=
  if !isDeck s && s.chase.handed.state != .free && s.chase.handed.usable then
    s.setPos
      { s.pos with
        held := s.chase.handed.target
        record := { s.pos.record with position := s.chase.handed.target, quality := .virtual, jammed := false } }
  else s

/-! ### Meanings -/

/-- TACH_PULSE (R100). -/
def execTachPulse (forward : Bool) (s : State) : Result := inRun (tachPulse forward) s

/-- TIMECODE_WORD (R101 to R105). -/
def execTimecodeWord (label : Label) (backward : Bool) (s : State) : Result := inRun (timecodeWord label backward) s

/-- CANDIDATE_EXPIRY (R104). -/
def execCandidateExpiry (s : State) : Result := inRun expireCandidate s

/-- SILENT_COUNT_EXPIRY (R106). -/
def execSilentCountExpiry (s : State) : Result := inRun expireSilence s

end Sys2Proof.Machine
end

