-- ==== Sys2Proof/Machine/Transport.lean ====
section
/-! DEFINITION. The Transport Controller at its own events (chapter 6): the deck's status lines, the locate's records, the
servo and tally timers and the speed word; the meanings of the deck-line commands and of the locate and timer limits. -/

namespace Sys2Proof.Machine

/-! ### The locate at a published record -/

/-- The distance of a locate at the published record (R92). -/
def locateDistance (l : Locate) (s : State) : Int := signedDiff (std s) (512 * l.target) s.pos.published.position

/-- The DRIVE formula (R92). -/
def locateSpeed (dist : Int) : Command :=
  .speed (signOf dist * (min 12800 (max 64 (dist.natAbs / 32)) : Nat))

/-- A record taken in DRIVE (R92). -/
def Locate.inDrive (l : Locate) (dist : Int) : Locate :=
  if dist.natAbs ≤ 256 then { l with phase := .settle, settle := 0, drive := .stop }
  else { l with phase := .drive, drive := locateSpeed dist }

/-- A record taken in SETTLE (R92). -/
def Locate.inSettle (l : Locate) (motion : Int) : Locate :=
  { l with drive := .stop, settle := if motion = 0 then l.settle + 1 else 0 }

/-- The EOT count at a record: consecutive still records under a forward drive that EOT replaces (R85; log 16). -/
def Locate.eotStill (l : Locate) (eot : Bool) (motion : Int) : Nat :=
  if eot && l.drive.forward then (if motion = 0 then l.eotCount + 1 else 0) else 0

/-- A record taken by the locate, before any ending is judged (R91, R92, R85). -/
def Locate.take (l : Locate) (r : PosRecord) (eot : Bool) (dist : Int) : Locate :=
  let m := { l with records := l.records + 1, eotCount := l.eotStill eot r.motion, skips := none }
  match m.phase with
  | .acquire => if r.quality = .none then m else m.inDrive dist
  | .drive => m.inDrive dist
  | .settle => m.inSettle r.motion

/-- The locate takes the published record (R91, R92). -/
def locateTake (s : State) : State :=
  match s.tr.locate with
  | some l =>
    s.setTr { s.tr with locate := some (l.take s.pos.published s.pins.eot (locateDistance l s)) }
  | none => s

/-- A settled locate out of reach begins a further attempt (R92). -/
def Locate.retry (l : Locate) (dist : Int) : Locate :=
  { l with attempts := l.attempts + 1, phase := .drive, settle := 0, drive := locateSpeed dist }

/-- The settle count has reached 2: success, a further attempt, or failure at 4 attempts (R92, R93). -/
def locateSettle (s : State) : State :=
  match s.tr.locate with
  | some l =>
    if l.phase = .settle ∧ 2 ≤ l.settle then
      if (locateDistance l s).natAbs ≤ 512 then locateSucceed l s
      else if 4 ≤ l.attempts + 1 then locateFail l s
      else s.setTr { s.tr with locate := some (l.retry (locateDistance l s)) }
    else s
  | none => s

/-- The 250th record was taken in ACQUIRE with the quality still NONE (R91). -/
def locateAcquireLimit (s : State) : State :=
  match s.tr.locate with
  | some l =>
    if l.phase = .acquire ∧ 250 ≤ l.records ∧ s.pos.published.quality = .none then locateFail l s else s
  | none => s

/-- Two consecutive still records under a forward drive stopped by EOT (R85). -/
def locateEotLimit (s : State) : State :=
  match s.tr.locate with
  | some l => if 2 ≤ l.eotCount then locateFail l s else s
  | none => s

/-- The 3,000th record was taken without success (R93). -/
def locateRecordLimit (s : State) : State :=
  match s.tr.locate with
  | some l => if 3000 ≤ l.records then locateFail l s else s
  | none => s

/-- The locate acts on a record; success is judged first (R91 to R93). -/
def locateRecord (s : State) : State :=
  locateRecordLimit (locateEotLimit (locateAcquireLimit (locateSettle (locateTake s))))

/-- The locate's target was given in this field, after its publication, by a request or a cue (R89). -/
def locateSkips (s : State) : Bool :=
  match s.tr.locate with
  | some l => l.skips = some s.time.fieldCount
  | none => false

/-- The locate at a boundary: it acts on the record just published, unless a cue fired on this boundary has given the target
before its turn; then the next publication is its first record (R89). That it does the same where the cue or an evaluation
has started the locate, and that a record passed over is not counted, is the model's choice (log 33). -/
def locateBoundary (s : State) : State := if locateSkips s then s else locateRecord s

/-! ### Timers and speed word -/

/-- The servo timer at a boundary (R97). -/
def countServo (s : State) : State :=
  s.setTr
    { s.tr with
      servoTimer := if transportState s = .play ∧ !s.pins.servo then min 120 (s.tr.servoTimer + 1) else 0 }

/-- TRANSPORT_FAULT while the servo timer stands at 120 in PLAY with SERVO false (R97). -/
def servoExpiry (s : State) : State :=
  if s.tr.servoTimer = 120 ∧ transportState s = .play ∧ !s.pins.servo then setFlag .transportFault s else s

/-- The tally timer of a punch-in at a boundary (R98). -/
def Punch.count (p : Punch) : Punch :=
  match p.tally with
  | .running n => { p with tally := .running (n + 1) }
  | .confirmed | .expired => p

/-- The tally timer rises at each boundary taken while PUNCHED and unconfirmed (R98). -/
def countTally (s : State) : State := s.setTr { s.tr with punch := s.tr.punch.map Punch.count }

/-- The tally timer has reached 4: RECORD_FAULT, and the timer stops (R98). -/
def tallyExpiry (s : State) : State :=
  match s.tr.punch with
  | some { tracks := tracks, tally := .running n } =>
    if 4 ≤ n then
      setFlag .recordFault (s.setTr { s.tr with punch := some { tracks := tracks, tally := .expired } })
    else s
  | _ => s

/-- No speed word is sent (R79). -/
def stopSpeedWord (s : State) : State := s.setTr { s.tr with speedWord := 0, speedSent := false }

/-- The speed word of the new field; none while the port is released (R79, R81). -/
def sendSpeedWord (s : State) : State :=
  match drive s with
  | some d => s.setTr { s.tr with speedWord := d.word, speedSent := true }
  | none => stopSpeedWord s

/-- A port that is released sends no speed word (R79). -/
def quietPort (s : State) : State := if (drive s).isSome then s else stopSpeedWord s

/-- The two characters of the speed word, high byte first; none while no word is sent (R81, R184, §12.6). -/
def speedWordChars (s : State) : List Byte := if s.tr.speedSent then bytesOf 2 (wordOfInt s.tr.speedWord) else []

/-- The bits of those characters on the SPEED pin (R34, §12.6). -/
def speedWordLevels (s : State) : List Bool := lineLevels (speedWordChars s)

/-- The Transport Controller takes a boundary (R81, R97, R98). -/
def transportBoundary (s : State) : State :=
  sendSpeedWord (tallyExpiry (countTally (servoExpiry (countServo s))))

/-! ### Status lines -/

/-- The deck is lost to the controller: command STOP, parked mark clear, no locate; a record is broken (R83, R84). -/
def dropDeck (s : State) : State :=
  breakRecord (s.setTr { s.tr with command := .stop, parkedMark := false, locate := none })

/-- A running locate fails (R83, R93). -/
def failLocate (s : State) : State :=
  match s.tr.locate with
  | some l => locateFail l s
  | none => s

/-- The Position Unit at the fall of THREADED: quality NONE, candidate discarded without counting (R107). -/
def loseTape (s : State) : State := s.setPos { s.pos with quality := .none, candidate := none }

/-- The fall and the rise of THREADED on a deck station; a rise in LOCAL releases the port (R79, R83, R107). -/
def threadedTaken (level : Bool) (s : State) : State :=
  if level then quietPort (s.setTr { s.tr with command := .stop }) else loseTape (dropDeck (failLocate s))

/-- The rise and the fall of LOCAL on a threaded deck; the rise releases the port at once (R79, R84). -/
def localTaken (level : Bool) (s : State) : State :=
  if level then quietPort (dropDeck s) else s.setTr { s.tr with command := .stop }

/-- THREADED takes a level: an event for the controller when it changes on a deck station in RUN (R79, R83). -/
def threadedChange (level : Bool) (s : State) : State :=
  let t := s.setPins { s.pins with threaded := level }
  if s.power.supervisor = .run ∧ isDeck s ∧ s.pins.threaded ≠ level then threadedTaken level t else t

/-- LOCAL takes a level; while THREADED is false it has no effect on the state (R83, R84). -/
def localChange (level : Bool) (s : State) : State :=
  let t := s.setPins { s.pins with localOn := level }
  if s.power.supervisor = .run ∧ isDeck s ∧ s.pins.threaded ∧ s.pins.localOn ≠ level then localTaken level t else t

/-- EOT takes a level: the drive is re-formed, and a record is broken when the state leaves PLAY (R80, R85, R96). -/
def eotChange (level : Bool) (s : State) : State :=
  let t := s.setPins { s.pins with eot := level }
  if s.power.supervisor = .run ∧ isDeck s then breakRecord t else t

/-- SERVO takes a level: its fall ends a lock on a deck station (R125). -/
def servoChange (level : Bool) (s : State) : State :=
  let t := s.setPins { s.pins with servo := level }
  if s.power.supervisor = .run ∧ isDeck s ∧ s.pins.servo ∧ !level then loseLock t else t

/-- A punch-in that runs its tally timer is confirmed (R98). -/
def Punch.confirm (p : Punch) : Punch :=
  match p.tally with
  | .running _ => { p with tally := .confirmed }
  | .confirmed | .expired => p

/-- RECTALLY takes a level: its rise while PUNCHED and unconfirmed confirms the punch-in (R98). -/
def rectallyChange (level : Bool) (s : State) : State :=
  let t := s.setPins { s.pins with rectally := level }
  if s.power.supervisor = .run ∧ isDeck s ∧ level ∧ !s.pins.rectally then
    t.setTr { t.tr with punch := t.tr.punch.map Punch.confirm }
  else t

/-! ### Meanings -/

/-- THREADED_CHANGE (R83, R107); in HOLD the line alone changes (log 11). -/
def execThreadedChange (level : Bool) (s : State) : Result := .next (threadedChange level s)

/-- LOCAL_CHANGE (R84). -/
def execLocalChange (level : Bool) (s : State) : Result := .next (localChange level s)

/-- EOT_CHANGE (R85). -/
def execEotChange (level : Bool) (s : State) : Result := .next (eotChange level s)

/-- SERVO_FALL (R125). -/
def execServoFall (level : Bool) (s : State) : Result := .next (servoChange level s)

/-- RECTALLY_RISE (R98). -/
def execRectallyRise (level : Bool) (s : State) : Result := .next (rectallyChange level s)

/-- SERVO_TIMER_EXPIRY (R97). -/
def execServoTimerExpiry (s : State) : Result := inRun servoExpiry s

/-- TALLY_TIMER_EXPIRY (R98). -/
def execTallyTimerExpiry (s : State) : Result := inRun tallyExpiry s

/-- LOCATE_SETTLE (R92). -/
def execLocateSettle (s : State) : Result := inRun locateSettle s

/-- LOCATE_ACQUIRE_LIMIT (R91). -/
def execLocateAcquireLimit (s : State) : Result := inRun locateAcquireLimit s

/-- LOCATE_RECORD_LIMIT (R93). -/
def execLocateRecordLimit (s : State) : Result := inRun locateRecordLimit s

/-- LOCATE_EOT_LIMIT (R85). -/
def execLocateEotLimit (s : State) : Result := inRun locateEotLimit s

end Sys2Proof.Machine
end

