-- ==== Sys2Proof/Machine/Boundary.lean ====
section
/-! DEFINITION. The field boundary (R28, R51) and the Reference Monitor and Field Timebase (chapter 2); the meanings of
REFERENCE_PULSE, MISSING_LIMIT_PRESENT, MISSING_LIMIT_SETTLING and INTERNAL_BOUNDARY. -/

namespace Sys2Proof.Machine

/-! ### The takers of a boundary -/

/-- The Bulletin Composer composes the POSITION and places it in the transmit queue (R50, R46). -/
def composeBulletin (s : State) : State := joinPosition (bulletinBytes s) s

/-- What each taker does at a boundary. -/
def takeBoundary (t : Taker) (s : State) : State :=
  match t with
  | .publish => positionBoundary s
  | .evaluate => chaseBoundary s
  | .setVirtual => setVirtual s
  | .cues => cueBoundary s
  | .locate => locateBoundary s
  | .fader => faderBoundary s
  | .gpi => gpiBoundary s
  | .peers => peersBoundary s
  | .transport => transportBoundary s
  | .link => linkBoundary s
  | .compose => composeBulletin s

/-- The takers, each after the one whose record it takes. -/
def allTakers : List Taker :=
  [.publish, .evaluate, .setVirtual, .cues, .locate, .fader, .gpi, .peers, .transport, .link, .compose]

/-- A rank lifted to that of the taker whose record is answered: the evaluation answers the publication (R115), the locate
acts on it (R92), and the Position Unit of a LIVE station, the Cue Engine and the Composer take the chase record (R130). -/
def liftedRank (rank : Taker → Nat) : Taker → Nat
  | .publish => rank .publish
  | .evaluate => max (rank .publish) (rank .evaluate)
  | .setVirtual => max (max (rank .publish) (rank .evaluate)) (rank .setVirtual)
  | .cues => max (max (rank .publish) (rank .evaluate)) (rank .cues)
  | .compose => max (max (rank .publish) (rank .evaluate)) (rank .compose)
  | .locate => max (rank .publish) (rank .locate)
  | .fader => rank .fader
  | .gpi => rank .gpi
  | .peers => rank .peers
  | .transport => rank .transport
  | .link => rank .link

/-- The takers in the order of their lifted ranks; equal ranks keep the order of `allTakers`. -/
def takerOrder (rank : Taker → Nat) : List Taker :=
  allTakers.insertionSort fun a b => liftedRank rank a ≤ liftedRank rank b

/-- The frame phase of the new field: the other value, or the pulse's identity (R29). -/
def phaseAfter (identity : Option Bool) (second : Bool) : Bool :=
  match identity with
  | some first => !first
  | none => !second

/-- The boundary itself: the field count and the frame phase (R28 to R30). Its source dates it. -/
def openBoundary (identity : Option Bool) (s : State) : State :=
  s.setTime
    { s.time with
      fieldCount := s.time.fieldCount + 1, secondField := phaseAfter identity s.time.secondField }

/-- A boundary taken by the takers in a given order. -/
def boundaryInOrder (identity : Option Bool) (order : List Taker) (s : State) : State :=
  order.foldl (fun u t => takeBoundary t u) (openBoundary identity s)

/-- A field boundary; `identity` is the field identity of the reference pulse that makes it (R28). The order of the
takers is the free one (log 9). -/
def fieldBoundary (identity : Option Bool) (s : State) : State :=
  boundaryInOrder identity (takerOrder (Config.takerRank s.choices)) (s.setChoices (s.choices + 1))

/-! ### The Reference Monitor -/

/-- The spacing from an earlier time to now is within the good window (Table 2.3). -/
def goodSince (t : Nat) (s : State) : Bool := (std s).goodSpacing (s.time.clock - t)

/-- A good pulse in PRESENT: it becomes the last reference time and a boundary (R23). -/
def goodPulse (firstField : Bool) (s : State) : State :=
  fieldBoundary (some firstField)
    (s.setTime
      { s.time with
        lastRef := s.time.clock, prevPulse := some s.time.clock, count := 0, lastBoundary := s.time.clock })

/-- A pulse in LOST (R25). -/
def firstPulse (s : State) : State :=
  s.setTime { s.time with refState := .settling, warmUp := 1, prevPulse := some s.time.clock }

/-- A pulse of good spacing in SETTLING: the sixteenth takes the monitor to PRESENT, and a boundary then due is not issued
(R26, R27). -/
def warmPulse (s : State) : State :=
  if 16 ≤ s.time.warmUp + 1 then
    s.setTime
      { s.time with
        refState := .present, warmUp := 16, prevPulse := some s.time.clock, lastRef := s.time.clock, due := 0 }
  else s.setTime { s.time with warmUp := s.time.warmUp + 1, prevPulse := some s.time.clock }

/-- The monitor goes to LOST with the warm-up count at 0 (R24, R26). -/
def loseReference (s : State) : State := s.setTime { s.time with refState := .lost, warmUp := 0 }

/-- The pulse is judged against the previous pulse in SETTLING (R26). -/
def settlingPulse (s : State) : State :=
  match s.time.prevPulse with
  | some p => if goodSince p s then warmPulse s else loseReference s
  | none => loseReference s

/-- A reference pulse now (R23, R25, R26). -/
def pulseNow (firstField : Bool) (s : State) : State :=
  match s.time.refState with
  | .present => if goodSince s.time.lastRef s then goodPulse firstField s else s
  | .lost => firstPulse s
  | .settling => settlingPulse s

/-- REFERENCE_PULSE at its time (R23). -/
def referencePulse (time : Nat) (firstField : Bool) (s : State) : State := pulseNow firstField (atTime time s)

/-- The missing limit passes in PRESENT: LOST, REF_LOST, a lock lost, the count at half a period, and the missed boundary
issued (R24, R125). -/
def missPresent (s : State) : State :=
  let t := atTime (s.time.lastRef + (std s).missingLimit) s
  let u := loseReference (t.setTime { t.time with count := (std s).period / 2, lastBoundary := t.time.clock })
  fieldBoundary none (loseLock (setFlag .refLost u))

/-- MISSING_LIMIT_PRESENT (R24). -/
def missingLimitPresent (s : State) : State := if s.time.refState = .present then missPresent s else s

/-- MISSING_LIMIT_SETTLING (R26): at the limit after the previous pulse the monitor goes to LOST. -/
def missingLimitSettling (s : State) : State :=
  if s.time.refState = .settling then
    loseReference (atTime ((s.time.prevPulse.getD 0) + (std s).missingLimit) s)
  else s

/-- The oldest boundary due is issued, dated at the moment its period was completed; the count runs on (R22; log 14). -/
def issueDue (s : State) : State :=
  s.setTime
    { s.time with
      due := s.time.due - 1, lastBoundary := s.time.clock - (s.time.count + (s.time.due - 1) * (std s).period) }

/-- The clock reaches the moment at which the period completes, and the count starts again (R22). -/
def reachPeriod (s : State) : State :=
  let now := s.time.clock + ((std s).period - s.time.count)
  s.setTime { s.time with clock := now, count := 0, lastBoundary := now }

/-- The internal timebase completes its period (R22). -/
def completePeriod (s : State) : State := if s.time.due = 0 then reachPeriod s else issueDue s

/-- INTERNAL_BOUNDARY (R22): no boundary is issued in PRESENT. -/
def internalBoundary (s : State) : State :=
  if s.time.refState = .present then s else fieldBoundary none (completePeriod s)

/-! ### Meanings -/

/-- REFERENCE_PULSE (R23, R25 to R27). -/
def execReferencePulse (time : Nat) (firstField : Bool) (s : State) : Result :=
  inRun (referencePulse time firstField) s

/-- MISSING_LIMIT_PRESENT (R24). -/
def execMissingLimitPresent (s : State) : Result := inRun missingLimitPresent s

/-- MISSING_LIMIT_SETTLING (R26). -/
def execMissingLimitSettling (s : State) : Result := inRun missingLimitSettling s

/-- INTERNAL_BOUNDARY (R22). -/
def execInternalBoundary (s : State) : Result := inRun internalBoundary s

end Sys2Proof.Machine
end

