-- ==== Sys2Proof/Machine/Power.lean ====
section
/-! DEFINITION. The Power Supervisor (R19 to R21): HOLD, the end of HOLD and the full reset; the meanings of POWER_UP,
BROWNOUT, RESET_PIN_LOW, SUPPLY_RECOVERY and RESET_PIN_RELEASE. -/

namespace Sys2Proof.Machine

/-- The dip timer's qualification in microseconds (Table 2.2). -/
def dipLimit : Nat := 2000

/-- The good timer's qualification in microseconds (Table 2.2). -/
def goodLimit : Nat := 50000

/-- Every block held in reset with these straps (R20, R21); the lines keep their levels, the queue and the choice counter
are the model's own (log 5). -/
def resetBlocks (straps : Straps) (s : State) : State :=
  ((State.atReset straps s.pins).setChoices s.choices).setPending s.pending

/-- HOLD with these timers and this level of the RESET pin (R20; log 5). -/
def holdWith (dip good : Nat) (resetHigh : Bool) (s : State) : State :=
  (resetBlocks s.straps s).setPower
    { supervisor := .hold, dipTimer := dip, goodTimer := good, resetHigh := resetHigh }

/-- The full reset at the end of HOLD: the straps are read and POWER_RESTART is set (R18, R21). -/
def fullReset (straps : Straps) (s : State) : State := resetBlocks straps s

/-- POWER_UP: the supervisor enters HOLD (R19). -/
def powerUp (s : State) : State := holdWith 0 0 s.power.resetHigh s

/-- BROWNOUT: HOLD from RUN; in HOLD the low supply clears the good timer (R19; log 6). -/
def brownout (s : State) : State :=
  if s.power.supervisor = .run then holdWith dipLimit 0 s.power.resetHigh s
  else s.setPower { s.power with dipTimer := dipLimit, goodTimer := 0 }

/-- RESET_PIN_LOW: HOLD from RUN; in HOLD the good timer is left running (R19). -/
def resetPinLow (s : State) : State :=
  if s.power.supervisor = .run then holdWith 0 0 false s
  else s.setPower { s.power with resetHigh := false }

/-- In HOLD the supply, which has been above 4.55 V, falls to that or below: the good timer is cleared, the dip timer
having been so at the rise (R19; log 6). -/
def supplySags (s : State) : State :=
  if s.power.supervisor = .run then s else s.setPower { s.power with dipTimer := 0, goodTimer := 0 }

/-- In HOLD the good timer reaches 50 ms, and HOLD ends if the RESET pin is high (R19). -/
def supplyRecovers (straps : Straps) (s : State) : State :=
  if s.power.supervisor = .run then s
  else if s.power.resetHigh then fullReset straps s
  else s.setPower { s.power with dipTimer := 0, goodTimer := goodLimit }

/-- SUPPLY_RECOVERY: the good timer reaches 50 ms, or is cleared before or after that (R19; log 6). -/
def supplyRecovery (straps : Option Straps) (s : State) : State :=
  match straps with
  | some read => supplyRecovers read s
  | none => supplySags s

/-- RESET_PIN_RELEASE: HOLD ends if the good timer has reached 50 ms (R19). -/
def resetPinRelease (straps : Straps) (s : State) : State :=
  if s.power.supervisor = .hold ∧ goodLimit ≤ s.power.goodTimer then fullReset straps s
  else s.setPower { s.power with resetHigh := true }

/-! ### Meanings -/

/-- POWER_UP (R19, R20). -/
def execPowerUp (s : State) : Result := .next (powerUp s)

/-- BROWNOUT (R19, R20). -/
def execBrownout (s : State) : Result := .next (brownout s)

/-- RESET_PIN_LOW (R19, R20). -/
def execResetPinLow (s : State) : Result := .next (resetPinLow s)

/-- SUPPLY_RECOVERY (R19, R21). -/
def execSupplyRecovery (straps : Option Straps) (s : State) : Result := .next (supplyRecovery straps s)

/-- RESET_PIN_RELEASE (R19, R21). -/
def execResetPinRelease (straps : Straps) (s : State) : Result := .next (resetPinRelease straps s)

end Sys2Proof.Machine
end

