-- ==== Sys2Proof/WellFormed.lean ====
section
/-! DEFINITION. Which commands are well formed: their data can be what the row says it is. -/

namespace Sys2Proof

/-- The codes of Table 12.4. -/
def requestCodes : List Byte :=
  [0x01, 0x02, 0x03, 0x04, 0x05, 0x10, 0x11, 0x20, 0x21, 0x22, 0x23, 0x24, 0x30, 0x40, 0x41, 0x42, 0x48, 0x49,
   0x60, 0x61, 0x62, 0x68, 0x6F]

/-- LENGTH is at most 48 (Table 3.1). -/
def payloadFits (payload : List Byte) : Bool := payload.length ≤ 48

/-- The four header characters and the parameters fit a payload (Table 12.3). -/
def Request.wf (r : Request) : Bool := r.params.length ≤ 44

/-- The samples hold at least one character of ten bits (R34). -/
def lineFits (line : List Bool) : Bool := 10 ≤ line.length

/-- Well-formedness of a command. -/
def Instr.wf : Instr → Bool
  | .powerUp | .brownout | .resetPinLow | .supplyRecovery _ | .resetPinRelease _ => true
  | .referencePulse _ _ | .missingLimitPresent | .missingLimitSettling | .internalBoundary => true
  | .transitionComplete | .mixRecordEnd | .peerSilenceClear _ | .reportExpiry | .candidateExpiry => true
  | .silentCountExpiry | .servoTimerExpiry | .tallyTimerExpiry | .pulseEnd _ | .recordLengthEnd => true
  | .notReadyLimit | .freewheelExpiry | .chaseLock | .outWindowExpiry | .locateSettle => true
  | .locateAcquireLimit | .locateRecordLimit | .locateEotLimit | .tachPulse _ | .timecodeWord _ _ => true
  | .threadedChange _ | .localChange _ | .eotChange _ | .servoFall _ | .rectallyRise _ | .gpiEdge _ _ => true
  | .lineQuiet _ | .deferralEnd _ | .startBitSeen | .frameSent | .collision | .jamEnd | .gapError _ => true
  | .positionArrival _ p | .reportArrival _ p | .requestNotAddressed _ p => payloadFits p
  | .refusedUnknown code r => r.wf && !requestCodes.contains code
  | .stop r | .play r | .shuttle r | .locate r | .arm r | .chase r | .unchase r | .cueLoad r | .cueDrop r => r.wf
  | .cueClear r | .fire r | .abort r | .fader r | .mark r | .markDrop r | .locateMark r | .gpiBind r => r.wf
  | .tallyMap r | .readStatus r | .readCues r | .readMarks r | .clearFlags r | .sessionClear r => r.wf
  | .gpiSample _ => true
  | .frameStart start _ => lineFits start
  | .brokenFrame line => lineFits line
  | .unknownKindArrival kind _ p => payloadFits p && kind != 0x31 && kind != 0x52 && kind != 0x64

end Sys2Proof
end

