-- ==== Sys2Proof/Machine/Requests.lean ====
section
/-! DEFINITION. The Request Unit (chapter 5) and the requests of every chapter: taking, the order of checks, the record of
the last request, reports and SESSION CLEAR; the meanings of the requests. -/

namespace Sys2Proof.Machine

/-! ### Taking and deciding -/

/-- What a request is judged to be and the state it leaves (R67). -/
abbrev Judged := ReqResult × State

/-- The record of a taken request (R70). -/
def record (tag : Byte) (j : Judged) : State :=
  j.2.setReq { lastTag := tag, lastResult := j.1, count := j.2.req.count + 1 }

/-- The TARGET contains the station's own number (R66). -/
def addressed (target : Word16) (s : State) : Bool := target.getLsbD (own s).val

/-- A taken request is decided and recorded; one not addressed to the station is not taken (R66, R70). -/
def takeIfAddressed (r : Request) (judge : State → Judged) (s : State) : State :=
  if addressed (targetOf r) s then record r.tag (judge s) else s

/-- A REQUEST frame arrives: it is screened as any frame, then decided (R40, R66, R67). -/
def takeRequest (r : Request) (judge : State → Judged) (s : State) : State := arrive r.source (takeIfAddressed r judge) s

/-- The first check that fails gives the result and leaves the subject as it was; otherwise the request has its effect
(R67, R68). -/
def answer (refusal : Option ReqResult) (result : ReqResult) (effect : State → State) (s : State) : Judged :=
  match refusal with
  | some x => (x, s)
  | none => (result, effect s)

/-- CLAMPED when a value was coerced, and OK otherwise (R68). -/
def resultOf (coerced : Bool) : ReqResult := if coerced then .clamped else .ok

/-- A parameter length other than the code's own fails FORMAT (R69). -/
def withLength (n : Nat) (r : Request) (judge : State → Judged) (s : State) : Judged :=
  if r.params.length = n then judge s else (.refusedFormat, s)

/-! ### The checks of the transport requests -/

/-- The ROLE and LOCAL checks of STOP, PLAY, SHUTTLE, LOCATE and LOCATE MARK (§6.5, R182). -/
def deckRefusal (s : State) : Option ReqResult :=
  if role s = .live then some .refusedRole
  else if transportState s = .localControl then some .refusedLocal
  else none

/-- Those checks and the STATE check of PLAY, SHUTTLE, LOCATE and LOCATE MARK (§6.5, R182). -/
def motionRefusal (s : State) : Option ReqResult :=
  match deckRefusal s with
  | some x => some x
  | none => if s.chase.state ≠ .free ∨ transportState s = .offline then some .refusedState else none

/-! ### Transport requests -/

/-- STOP (R88). -/
def judgeStop (r : Request) : State → Judged :=
  withLength 0 r fun s => answer (deckRefusal s) .ok commandStop s

/-- PLAY (R88). -/
def judgePlay (r : Request) : State → Judged :=
  withLength 0 r fun s => answer (motionRefusal s) .ok (takeCommand (.speed 256)) s

/-- The speed a SHUTTLE carries (Table 12.4). -/
def shuttleSpeed (r : Request) : Int := signedWord (wordAt r.params 0)

/-- The speed a SHUTTLE commands (R88). -/
def shuttleClamped (r : Request) : Int := clampInt (-12800) 12800 (shuttleSpeed r)

/-- SHUTTLE (R88). -/
def judgeShuttle (r : Request) : State → Judged :=
  withLength 2 r fun s =>
    answer (motionRefusal s) (resultOf (shuttleClamped r != shuttleSpeed r))
      (takeCommand (.speed (shuttleClamped r))) s

/-- LOCATE (R89). -/
def judgeLocate (r : Request) : State → Judged :=
  withLength 4 r fun s =>
    match readLabel (std s) (labelAt r.params 0) with
    | none => (.refusedFormat, s)
    | some c => answer (motionRefusal s) (resultOf c.coerced) (takeLocate c.value) s

/-- The checks of ARM (R90). -/
def armRefusal (s : State) : Option ReqResult :=
  if role s ≠ .recorder then some .refusedRole
  else if (activeRecord s).isSome then some .refusedState
  else none

/-- The armed set is replaced (R90). -/
def setArmed (tracks : Tracks) (s : State) : State := s.setTr { s.tr with armed := tracks }

/-- ARM (R90). -/
def judgeArm (r : Request) : State → Judged :=
  withLength 1 r fun s => answer (armRefusal s) .ok (setArmed (BitVec.ofNat 4 (byteAt r.params 0))) s

/-! ### Chase requests -/

/-- The chase record's rewrite at a CHASE (R130); no target was formed, so it is the own position (Table 8.3; log 18). -/
def seekRecord (s : State) : ChaseRecord :=
  { state := .seek, target := s.pos.record.position, usable := false, error := 0, compare := .level, ready := false }

/-- A lead is taken up at an offset (R112). -/
def startChase (lead : Station) (offset : Nat) (s : State) : State :=
  s.setChase
    { s.chase with
      lead := lead, offset := offset, state := .seek, integral := 0, inWindow := 0, outWindow := 0,
      freewheel := 0, parkFrame := none, parkDone := false, lastError := 0, record := seekRecord s }

/-- A CHASE of another station: a repetition changes nothing (R112). -/
def chaseLead (lead : Station) (offset : Nat) (s : State) : State :=
  if s.chase.state ≠ .free ∧ s.chase.lead = lead ∧ s.chase.offset = offset then s else startChase lead offset s

/-- The hand-over command of UNCHASE (R113). -/
def handOver (state : ChaseState) : Command :=
  if state = .sync ∨ state = .locked then .speed 256 else .stop

/-- UNCHASE's effect (R113; log 17). -/
def unchase (s : State) : State :=
  if s.chase.state = .free then s else takeCommand (handOver s.chase.state) (freeChase s)

/-- The STATE check of CHASE (R112). -/
def chaseRefusal (s : State) : Option ReqResult :=
  if (activeRecord s).isSome then some .refusedState else none

/-- The offset label's coercion: by R8, or by R15 when the signed reading differs from σ × c. -/
def offsetCoerced (std : Standard) (minus : Bool) (c : Coerced Nat) : Bool :=
  c.coerced || signedReading std (heldOffset std minus c.value) != signedCount minus c.value

/-- CHASE with its parameters read (R112). -/
def judgeChaseWith (lead : Station) (minus : Bool) (c : Coerced Nat) (s : State) : Judged :=
  if lead = own s then answer (chaseRefusal s) .ok unchase s
  else
    answer (chaseRefusal s) (resultOf (offsetCoerced (std s) minus c))
      (chaseLead lead (heldOffset (std s) minus c.value)) s

/-- CHASE (R112): FORMAT fails for a lead above 15, an undefined sign or an invalid label. -/
def judgeChase (r : Request) : State → Judged :=
  withLength 6 r fun s =>
    match flagOfCode (byteAt r.params 1), readLabel (std s) (labelAt r.params 2) with
    | some minus, some c =>
      if byteAt r.params 0 ≤ 15 then judgeChaseWith (stationOf (byteAt r.params 0)) minus c s
      else (.refusedFormat, s)
    | _, _ => (.refusedFormat, s)

/-- UNCHASE (R113). -/
def judgeUnchase (r : Request) : State → Judged := withLength 0 r fun s => answer none .ok unchase s

/-! ### Cue requests -/

/-- The ROLE check of CUE LOAD (R135). -/
def cueRoleRefused (c : Cue) (s : State) : Bool :=
  match c.action with
  | .record _ _ => role s != .recorder
  | .transport _ => role s == .live
  | .transition _ | .gpiPulse _ _ | .mark => false

/-- The load replaces a cue that is not ACTIVE (R136). -/
def replaces (tag : Byte) (s : State) : Bool := s.cues.list.any fun c => c.tag = tag && c.state != .active

/-- The list is full and no cue of it is finished (R136). -/
def listFull (s : State) : Bool := 24 ≤ s.cues.list.length && !(s.cues.list.any Cue.finished)

/-- The tag is held by an ACTIVE cue (R136). -/
def tagActive (tag : Byte) (s : State) : Bool := s.cues.list.any fun c => c.tag = tag && c.state = .active

/-- The checks of CUE LOAD: ROLE, FULL, TAG (R135, R136). -/
def loadRefusal (c : Cue) (s : State) : Option ReqResult :=
  if cueRoleRefused c s then some .refusedRole
  else if !replaces c.tag s && listFull s then some .refusedFull
  else if tagActive c.tag s then some .refusedTag
  else none

/-- Change the list. -/
def setList (cs : List Cue) (s : State) : State := s.setCues { s.cues with list := cs }

/-- The list with room for a new cue: a replaced cue is removed, or the oldest finished one of a full list (R136). -/
def roomFor (tag : Byte) (s : State) : List Cue :=
  if replaces tag s then removeTag tag s.cues.list
  else if 24 ≤ s.cues.list.length then
    match oldestFinished s.time.fieldCount s.cues.list with
    | some d => removeTag d.tag s.cues.list
    | none => s.cues.list
  else s.cues.list

/-- A cue is loaded (R134, R136). -/
def loadCue (c : Cue) (s : State) : State := setList (placeCue c (roomFor c.tag s)) s

/-- CUE LOAD (R135, R136). -/
def judgeCueLoad (r : Request) (s : State) : Judged :=
  match readCue (std s) r.params with
  | none => (.refusedFormat, s)
  | some c => answer (loadRefusal c.value s) (resultOf c.coerced) (loadCue c.value) s

/-- The tag a request carries. -/
def tagParam (r : Request) : Byte := r.params.getD 0 0

/-- The checks of CUE DROP: STATE, TAG (R137). -/
def dropRefusal (tag : Byte) (s : State) : Option ReqResult :=
  match findCue tag s with
  | some c => if c.state = .active then some .refusedState else none
  | none => some .refusedTag

/-- CUE DROP (R137). -/
def judgeCueDrop (r : Request) : State → Judged :=
  withLength 1 r fun s =>
    answer (dropRefusal (tagParam r) s) .ok (fun t => setList (removeTag (tagParam r) t.cues.list) t) s

/-- CUE CLEAR keeps the ACTIVE cues in their places (R137). -/
def clearCues (s : State) : State := setList (s.cues.list.filter fun c => c.state = .active) s

/-- CUE CLEAR (R137). -/
def judgeCueClear (r : Request) : State → Judged := withLength 0 r fun s => answer none .ok clearCues s

/-- The WAITING cue of a tag (R138). -/
def waitingCue (tag : Byte) (s : State) : Option Cue := s.cues.list.find? (Cue.waitingFor tag)

/-- FIRE (R138): the STATE check fails when no WAITING cue holds the tag. -/
def judgeFire (r : Request) : State → Judged :=
  withLength 1 r fun s =>
    match waitingCue (tagParam r) s with
    | some c => (.ok, fireCue (ownReady s) c s)
    | none => (.refusedState, s)

/-- ABORT (R139). -/
def judgeAbort (r : Request) : State → Judged := withLength 0 r fun s => answer none .ok abortCues s

/-! ### FADER -/

/-- The level and the fields of a FADER as held (R156). -/
def faderLevel (r : Request) : Coerced Nat := atMost 1024 (wordAt r.params 0)

/-- The number of fields of a FADER as held (R156). -/
def faderFields (r : Request) : Coerced Nat := atMost 999 (wordAt r.params 2)

/-- A pattern that nothing reads: the free one of the n-th choice (R156; log 22). -/
def freePattern (n : Nat) : Pattern := (patternOfCode (Config.faderPattern n % 5)).getD .left

/-- The parameters of a FADER context (R156), its pattern being open. -/
def faderParams (target duration : Nat) (pattern : Pattern) : TransParams :=
  { kind := .dissolve, direction := .inward, target := target, duration := duration, curve := .linear,
    pattern := pattern, softness := 0, partner := none, law := .linear }

/-- FADER's effect: the context starts; its pattern draws one choice (R156; log 30). -/
def startFader (target duration : Nat) (s : State) : State :=
  startContext 0 false (faderParams target duration (freePattern s.choices)) (s.setChoices (s.choices + 1))

/-- The STATE check of FADER: the context that exists was started by a cue (R156). -/
def faderRefusal (s : State) : Option ReqResult :=
  match s.fader.context with
  | some c => if c.tag = 0 then none else some .refusedState
  | none => none

/-- FADER (R156). -/
def judgeFader (r : Request) : State → Judged :=
  withLength 4 r fun s =>
    answer (faderRefusal s) (resultOf ((faderLevel r).coerced || (faderFields r).coerced))
      (startFader (faderLevel r).value (faderFields r).value) s

/-! ### Marks -/

/-- MARK (R181). -/
def judgeMark (r : Request) : State → Judged :=
  withLength 0 r fun s =>
    answer (if s.pos.record.quality = .none then some .refusedState else none) .ok (pushMark .request) s

/-- The top mark is removed (R181, R182). -/
def popMark (s : State) : State := s.setMarks s.marks.tail

/-- MARK DROP (R181). -/
def judgeMarkDrop (r : Request) : State → Judged :=
  withLength 0 r fun s => answer (if s.marks.isEmpty then some .refusedState else none) .ok popMark s

/-- LOCATE MARK (R182). -/
def judgeLocateMark (r : Request) : State → Judged :=
  withLength 0 r fun s =>
    match motionRefusal s, s.marks with
    | some x, _ => (x, s)
    | none, [] => (.refusedState, s)
    | none, m :: _ => (.ok, takeLocate m.frame (popMark s))

/-! ### GPI requests -/

/-- GPI BIND (R176). -/
def judgeGpiBind (r : Request) : State → Judged :=
  withLength 3 r fun s =>
    match lineOfCode (byteAt r.params 0), bindingOfCode (byteAt r.params 1), edgeOfCode (byteAt r.params 2) with
    | some line, some binding, some edge =>
      (.ok, updateInput line (fun i => { i with binding := binding, edge := edge }) s)
    | _, _, _ => (.refusedFormat, s)

/-- TALLY MAP (R178). -/
def judgeTallyMap (r : Request) : State → Judged :=
  withLength 3 r fun s =>
    match lineOfCode (byteAt r.params 0), sourceOfCode (byteAt r.params 1),
      tallyPatternOfCode (byteAt r.params 2) with
    | some line, some source, some pattern =>
      (.ok, updateOutput line (fun o => { o with source := source, pattern := pattern }) s)
    | _, _, _ => (.refusedFormat, s)

/-! ### Reports -/

/-- The FULL check of a READ (R71). -/
def readRefusal (s : State) : Option ReqResult := if 3 ≤ reportsHeld s.link then some .refusedFull else none

/-- READ STATUS (R71, R72). -/
def judgeReadStatus (r : Request) : State → Judged :=
  withLength 0 r fun s => answer (readRefusal s) .ok (joinReport (reportHeader 1 r ++ statusBody s)) s

/-- READ CUES (R69, R71, R73). -/
def judgeReadCues (r : Request) : State → Judged :=
  withLength 1 r fun s =>
    if byteAt r.params 0 ≤ 23 then
      answer (readRefusal s) .ok (joinReport (reportHeader 2 r ++ cuesBody (byteAt r.params 0) s)) s
    else (.refusedFormat, s)

/-- READ MARKS (R71, R74). -/
def judgeReadMarks (r : Request) : State → Judged :=
  withLength 0 r fun s => answer (readRefusal s) .ok (joinReport (reportHeader 3 r ++ marksBody s)) s

/-! ### CLEAR FLAGS and SESSION CLEAR -/

/-- CLEAR FLAGS (R76). -/
def judgeClearFlags (r : Request) : State → Judged :=
  withLength 2 r fun s => answer none .ok (clearFlags (BitVec.ofNat 16 (wordAt r.params 0))) s

/-- The fader after the aborts: a context that is left is cut, then the level is 0 and g formed from it (R77, R172). -/
def clearFader (s : State) : State :=
  let t := cutContext s
  t.setFader { t.fader with level := 0, gain := audioGain t.fader.law 0 }

/-- The chase is set FREE with the offset at 0 and its record rewritten (R114, R131, Table 8.4; log 17). -/
def clearChase (s : State) : State := freeChase (s.setChase { s.chase with offset := 0 })

/-- Bindings and edge selects return to their defaults; the filters and holdoffs are kept (R176). -/
def GpiInput.cleared (i : GpiInput) : GpiInput := { i with binding := .cue, edge := .fall }

/-- Tally maps return to their defaults; pulses run on (R178, R179). -/
def GpiOutput.cleared (o : GpiOutput) : GpiOutput := { o with source := .none, pattern := .steady }

/-- The GPI Unit at SESSION CLEAR (Table 5.7). -/
def clearGpi (s : State) : State :=
  s.setGpi { inputs := s.gpi.inputs.map GpiInput.cleared, outputs := s.gpi.outputs.map GpiOutput.cleared }

/-- SESSION CLEAR (R77, R99): aborts, the cut, the emptied list, the chase FREE, STOP, no arms, the GPI defaults, no
marks, every flag clear; the mix port is told (R172). -/
def sessionClear (s : State) : State :=
  let aborted := setList [] (clearFader (abortActive s))
  let stopped := setArmed 0 (takeCommand .stop (clearChase aborted))
  sendMix (((clearGpi stopped).setMarks []).setFlags 0)

/-- SESSION CLEAR (R77). -/
def judgeSessionClear (r : Request) : State → Judged := withLength 0 r fun s => answer none .ok sessionClear s

/-! ### Frames that are no request to the station -/

/-- A REQUEST payload that is not taken: shorter than its header, or its TARGET lacks the station (R66). -/
def notTaken (payload : List Byte) (s : State) : Bool :=
  payload.length < 4 || !addressed (targetAt payload) s

/-- REQUEST_NOT_ADDRESSED: the frame is received and nothing recorded (R66; log 7). -/
def requestNotAddressed (source : Byte) (payload : List Byte) (s : State) : State :=
  if notTaken payload s then arrive source id s else s

/-- REFUSED_UNKNOWN: a CODE that names no request is recorded so (R68, R70; log 7). -/
def refusedUnknown (code : Byte) (r : Request) (s : State) : State :=
  if requestCodes.contains code then s else takeRequest r (fun t => (.refusedUnknown, t)) s

/-! ### Meanings -/

/-- REFUSED_UNKNOWN (R68). -/
def execRefusedUnknown (code : Byte) (r : Request) (s : State) : Result := inRun (refusedUnknown code r) s

/-- REQUEST_NOT_ADDRESSED (R66). -/
def execRequestNotAddressed (source : Byte) (payload : List Byte) (s : State) : Result :=
  inRun (requestNotAddressed source payload) s

/-- STOP (R88). -/
def execStop (r : Request) (s : State) : Result := inRun (takeRequest r (judgeStop r)) s

/-- PLAY (R88). -/
def execPlay (r : Request) (s : State) : Result := inRun (takeRequest r (judgePlay r)) s

/-- SHUTTLE (R88). -/
def execShuttle (r : Request) (s : State) : Result := inRun (takeRequest r (judgeShuttle r)) s

/-- LOCATE (R89). -/
def execLocate (r : Request) (s : State) : Result := inRun (takeRequest r (judgeLocate r)) s

/-- ARM (R90). -/
def execArm (r : Request) (s : State) : Result := inRun (takeRequest r (judgeArm r)) s

/-- CHASE (R112). -/
def execChase (r : Request) (s : State) : Result := inRun (takeRequest r (judgeChase r)) s

/-- UNCHASE (R113). -/
def execUnchase (r : Request) (s : State) : Result := inRun (takeRequest r (judgeUnchase r)) s

/-- CUE_LOAD (R135, R136). -/
def execCueLoad (r : Request) (s : State) : Result := inRun (takeRequest r (judgeCueLoad r)) s

/-- CUE_DROP (R137). -/
def execCueDrop (r : Request) (s : State) : Result := inRun (takeRequest r (judgeCueDrop r)) s

/-- CUE_CLEAR (R137). -/
def execCueClear (r : Request) (s : State) : Result := inRun (takeRequest r (judgeCueClear r)) s

/-- FIRE (R138). -/
def execFire (r : Request) (s : State) : Result := inRun (takeRequest r (judgeFire r)) s

/-- ABORT (R139). -/
def execAbort (r : Request) (s : State) : Result := inRun (takeRequest r (judgeAbort r)) s

/-- FADER (R156). -/
def execFader (r : Request) (s : State) : Result := inRun (takeRequest r (judgeFader r)) s

/-- MARK (R181). -/
def execMark (r : Request) (s : State) : Result := inRun (takeRequest r (judgeMark r)) s

/-- MARK_DROP (R181). -/
def execMarkDrop (r : Request) (s : State) : Result := inRun (takeRequest r (judgeMarkDrop r)) s

/-- LOCATE_MARK (R182). -/
def execLocateMark (r : Request) (s : State) : Result := inRun (takeRequest r (judgeLocateMark r)) s

/-- GPI_BIND (R176). -/
def execGpiBind (r : Request) (s : State) : Result := inRun (takeRequest r (judgeGpiBind r)) s

/-- TALLY_MAP (R178). -/
def execTallyMap (r : Request) (s : State) : Result := inRun (takeRequest r (judgeTallyMap r)) s

/-- READ_STATUS (R71, R72). -/
def execReadStatus (r : Request) (s : State) : Result := inRun (takeRequest r (judgeReadStatus r)) s

/-- READ_CUES (R71, R73). -/
def execReadCues (r : Request) (s : State) : Result := inRun (takeRequest r (judgeReadCues r)) s

/-- READ_MARKS (R71, R74). -/
def execReadMarks (r : Request) (s : State) : Result := inRun (takeRequest r (judgeReadMarks r)) s

/-- CLEAR_FLAGS (R76). -/
def execClearFlags (r : Request) (s : State) : Result := inRun (takeRequest r (judgeClearFlags r)) s

/-- SESSION_CLEAR (R77). -/
def execSessionClear (r : Request) (s : State) : Result := inRun (takeRequest r (judgeSessionClear r)) s

end Sys2Proof.Machine
end

