-- ==== Sys2Proof/Machine/Dispatch.lean ====
section
/-! DEFINITION. The dispatch: one arm for each command. -/

namespace Sys2Proof.Machine

/-- The effect of a command. -/
def exec (i : Instr) (s : State) : Host.Outcome State Fault Refusal :=
  match i with
  | .powerUp => Sys2Proof.Machine.execPowerUp s
  | .brownout => Sys2Proof.Machine.execBrownout s
  | .resetPinLow => Sys2Proof.Machine.execResetPinLow s
  | .supplyRecovery straps => Sys2Proof.Machine.execSupplyRecovery straps s
  | .resetPinRelease straps => Sys2Proof.Machine.execResetPinRelease straps s
  | .referencePulse time firstField => Sys2Proof.Machine.execReferencePulse time firstField s
  | .missingLimitPresent => Sys2Proof.Machine.execMissingLimitPresent s
  | .missingLimitSettling => Sys2Proof.Machine.execMissingLimitSettling s
  | .internalBoundary => Sys2Proof.Machine.execInternalBoundary s
  | .transitionComplete => Sys2Proof.Machine.execTransitionComplete s
  | .mixRecordEnd => Sys2Proof.Machine.execMixRecordEnd s
  | .peerSilenceClear station => Sys2Proof.Machine.execPeerSilenceClear station s
  | .reportExpiry => Sys2Proof.Machine.execReportExpiry s
  | .candidateExpiry => Sys2Proof.Machine.execCandidateExpiry s
  | .silentCountExpiry => Sys2Proof.Machine.execSilentCountExpiry s
  | .servoTimerExpiry => Sys2Proof.Machine.execServoTimerExpiry s
  | .tallyTimerExpiry => Sys2Proof.Machine.execTallyTimerExpiry s
  | .pulseEnd line => Sys2Proof.Machine.execPulseEnd line s
  | .recordLengthEnd => Sys2Proof.Machine.execRecordLengthEnd s
  | .notReadyLimit => Sys2Proof.Machine.execNotReadyLimit s
  | .freewheelExpiry => Sys2Proof.Machine.execFreewheelExpiry s
  | .chaseLock => Sys2Proof.Machine.execChaseLock s
  | .outWindowExpiry => Sys2Proof.Machine.execOutWindowExpiry s
  | .locateSettle => Sys2Proof.Machine.execLocateSettle s
  | .locateAcquireLimit => Sys2Proof.Machine.execLocateAcquireLimit s
  | .locateRecordLimit => Sys2Proof.Machine.execLocateRecordLimit s
  | .locateEotLimit => Sys2Proof.Machine.execLocateEotLimit s
  | .tachPulse forward => Sys2Proof.Machine.execTachPulse forward s
  | .timecodeWord label backward => Sys2Proof.Machine.execTimecodeWord label backward s
  | .threadedChange level => Sys2Proof.Machine.execThreadedChange level s
  | .localChange level => Sys2Proof.Machine.execLocalChange level s
  | .eotChange level => Sys2Proof.Machine.execEotChange level s
  | .servoFall level => Sys2Proof.Machine.execServoFall level s
  | .rectallyRise level => Sys2Proof.Machine.execRectallyRise level s
  | .gpiEdge line rise => Sys2Proof.Machine.execGpiEdge line rise s
  | .lineQuiet time => Sys2Proof.Machine.execLineQuiet time s
  | .deferralEnd time => Sys2Proof.Machine.execDeferralEnd time s
  | .startBitSeen => Sys2Proof.Machine.execStartBitSeen s
  | .frameSent => Sys2Proof.Machine.execFrameSent s
  | .collision => Sys2Proof.Machine.execCollision s
  | .jamEnd => Sys2Proof.Machine.execJamEnd s
  | .gapError time => Sys2Proof.Machine.execGapError time s
  | .positionArrival source payload => Sys2Proof.Machine.execPositionArrival source payload s
  | .reportArrival source payload => Sys2Proof.Machine.execReportArrival source payload s
  | .refusedUnknown code r => Sys2Proof.Machine.execRefusedUnknown code r s
  | .stop r => Sys2Proof.Machine.execStop r s
  | .play r => Sys2Proof.Machine.execPlay r s
  | .shuttle r => Sys2Proof.Machine.execShuttle r s
  | .locate r => Sys2Proof.Machine.execLocate r s
  | .arm r => Sys2Proof.Machine.execArm r s
  | .chase r => Sys2Proof.Machine.execChase r s
  | .unchase r => Sys2Proof.Machine.execUnchase r s
  | .cueLoad r => Sys2Proof.Machine.execCueLoad r s
  | .cueDrop r => Sys2Proof.Machine.execCueDrop r s
  | .cueClear r => Sys2Proof.Machine.execCueClear r s
  | .fire r => Sys2Proof.Machine.execFire r s
  | .abort r => Sys2Proof.Machine.execAbort r s
  | .fader r => Sys2Proof.Machine.execFader r s
  | .mark r => Sys2Proof.Machine.execMark r s
  | .markDrop r => Sys2Proof.Machine.execMarkDrop r s
  | .locateMark r => Sys2Proof.Machine.execLocateMark r s
  | .gpiBind r => Sys2Proof.Machine.execGpiBind r s
  | .tallyMap r => Sys2Proof.Machine.execTallyMap r s
  | .readStatus r => Sys2Proof.Machine.execReadStatus r s
  | .readCues r => Sys2Proof.Machine.execReadCues r s
  | .readMarks r => Sys2Proof.Machine.execReadMarks r s
  | .clearFlags r => Sys2Proof.Machine.execClearFlags r s
  | .sessionClear r => Sys2Proof.Machine.execSessionClear r s
  | .frameStart start next => Sys2Proof.Machine.execFrameStart start next s
  | .brokenFrame line => Sys2Proof.Machine.execBrokenFrame line s
  | .requestNotAddressed source payload => Sys2Proof.Machine.execRequestNotAddressed source payload s
  | .unknownKindArrival kind source payload => Sys2Proof.Machine.execUnknownKindArrival kind source payload s
  | .gpiSample levels => Sys2Proof.Machine.execGpiSample levels s

end Sys2Proof.Machine
end

