-- ==== Sys2Proof/Safety.lean ====
section
/-! DEFINITION. What the statements speak of: running and taking, the values after a full reset, the commands that make a
boundary, and the invariants of the station. -/

namespace Sys2Proof.Machine

/-! ### Running and taking -/

/-- The supervisor is in RUN (R19). -/
abbrev Running (s : State) : Prop := s.power.supervisor = .run

/-- A request arrives at a running station whose receiver is collecting the frame, passes the screening of R39 and is
addressed to the station (R40, R66). -/
abbrev Taken (r : Request) (s : State) : Prop :=
  Running s ∧ s.link.rx = .frame ∧ foreignStandard r.source s = false ∧ addressed (targetOf r) s = true

/-- The station once the frame is taken off the line: the receiver is in IGNORE (R40). -/
def received (s : State) : State := s.setLink { s.link with rx := .ignore }

/-- The record of a request taken in state s (R70). -/
def requestRecord (r : Request) (result : ReqResult) (s : State) : RequestUnit :=
  { lastTag := r.tag, lastResult := result, count := s.req.count + 1 }

/-- A result that is a refusal (Table 5.1). -/
def refusal : ReqResult → Bool
  | .ok | .clamped => false
  | .refusedState | .refusedRole | .refusedFull | .refusedFormat | .refusedUnknown | .refusedTag | .refusedLocal => true

/-- The request a command brings, for the twenty-three requests of Table 5.2. -/
def requestOf : Instr → Option Request
  | .stop r | .play r | .shuttle r | .locate r | .arm r | .chase r | .unchase r | .cueLoad r => some r
  | .cueDrop r | .cueClear r | .fire r | .abort r | .fader r | .mark r | .markDrop r | .locateMark r => some r
  | .gpiBind r | .tallyMap r | .readStatus r | .readCues r | .readMarks r | .clearFlags r => some r
  | .sessionClear r => some r
  | _ => none

/-- The parameter length of a request (Table 12.4). -/
def paramLength : Instr → Nat
  | .shuttle _ | .clearFlags _ => 2
  | .locate _ | .fader _ => 4
  | .arm _ | .cueDrop _ | .fire _ | .readCues _ => 1
  | .chase _ => 6
  | .cueLoad _ => 21
  | .gpiBind _ | .tallyMap _ => 3
  | _ => 0

/-- A parameter byte of a request. -/
def paramAt (r : Request) (i : Nat) : Nat := (r.params.getD i 0).toNat

/-- The label whose four bytes begin at an offset of the parameters (§12.4). -/
def labelFrom (r : Request) (i : Nat) : Label :=
  { hours := paramAt r i, minutes := paramAt r (i + 1), seconds := paramAt r (i + 2), frames := paramAt r (i + 3) }

/-- A byte that names no GPI line (Table 12.4). -/
def noLine (n : Nat) : Prop := n = 0 ∨ 4 < n

/-- The action parameters of a cue record that name no value of their list, or a LOCATE label that fails R5 (R69, R135,
Table 12.6). -/
def badAction (x : Standard) (r : Request) : Prop :=
  (paramAt r 9 = 1
      ∧ (1 < paramAt r 10 ∨ 1 < paramAt r 11 ∨ 2 < paramAt r 16 ∨ 4 < paramAt r 17 ∨ 2 < paramAt r 20))
    ∨ (paramAt r 9 = 2 ∧ (2 < paramAt r 10 ∨ (paramAt r 10 = 2 ∧ labelValid x (labelFrom r 11) = false)))
    ∨ (paramAt r 9 = 3 ∧ noLine (paramAt r 10)) ∨ 4 < paramAt r 9

/-- A cue record that fails FORMAT (R69, R135, Table 12.5): the tag, the trigger kind, the label of a timed cue, the mode,
or the action. -/
def badCue (x : Standard) (r : Request) : Prop :=
  paramAt r 0 = 0 ∨ 6 < paramAt r 1 ∨ (paramAt r 1 ≤ 1 ∧ labelValid x (labelFrom r 2) = false) ∨ 1 < paramAt r 6
    ∨ badAction x r

/-- A parameter of a request of the right length that fails FORMAT (R69). -/
def badParams (x : Standard) : Instr → Prop
  | .locate r => labelValid x (labelFrom r 0) = false
  | .chase r => 15 < paramAt r 0 ∨ 1 < paramAt r 1 ∨ labelValid x (labelFrom r 2) = false
  | .cueLoad r => badCue x r
  | .gpiBind r => noLine (paramAt r 0) ∨ 5 < paramAt r 1 ∨ 2 < paramAt r 2
  | .tallyMap r => noLine (paramAt r 0) ∨ 5 < paramAt r 1 ∨ 2 < paramAt r 2
  | .readCues r => 23 < paramAt r 0
  | _ => False

/-- A request that fails FORMAT (R69). -/
def badFormat (x : Standard) (c : Instr) (r : Request) : Prop := r.params.length ≠ paramLength c ∨ badParams x c

/-- The five commands of the supply and the RESET pin. -/
def isPowerCommand : Instr → Bool
  | .powerUp | .brownout | .resetPinLow | .supplyRecovery _ | .resetPinRelease _ => true
  | _ => false

/-- The five commands of the deck's status lines. -/
def isDeckLine : Instr → Bool
  | .threadedChange _ | .localChange _ | .eotChange _ | .servoFall _ | .rectallyRise _ => true
  | _ => false

/-- The command makes a field boundary in this state (R28). -/
def MakesBoundary (c : Instr) (s : State) : Prop :=
  (c = .internalBoundary ∧ s.time.refState ≠ .present)
    ∨ (c = .missingLimitPresent ∧ s.time.refState = .present)
    ∨ (∃ time first,
        c = .referencePulse time first ∧ s.time.refState = .present
          ∧ (std s).goodSpacing (max s.time.clock time - s.time.lastRef) = true)

/-- What the takers of a boundary begin from: the command has run from s to t, whose timebase and choices the boundary has set
before them; at the missing limit REF_LOST is set and a lock is lost first (R24, R28, R125). -/
def boundaryStart (c : Instr) (s t : State) : State :=
  ((if c = .missingLimitPresent then setFlag .refLost (loseLock s) else s).setTime t.time).setChoices t.choices

/-- No WAITING cue is timed, so no cue fires at a boundary (R141). -/
def NoTimedCue (s : State) : Prop := ∀ c ∈ s.cues.list, c.state = .waiting → c.frame? = none

/-- The ACTIVE RECORD cue, if there is one, neither ends nor comes to its not-ready limit at the next record (R147,
R148). -/
def RecordGoesOn (s : State) : Prop := ∀ c, activeRecord s = some c → 1 < c.remaining ∧ c.notReady < 2

/-- Nothing at the next boundary moves the transport: the chase is FREE, no locate runs, no cue fires and the record goes
on. -/
def TransportRests (s : State) : Prop :=
  s.chase.state = .free ∧ s.tr.locate = none ∧ NoTimedCue s ∧ RecordGoesOn s

/-- Everything but the state of the transport, the cues and the sticky flags is as before. -/
def OnlyTransportCuesFlags (s t : State) : Prop := t = ((s.setTr t.tr).setCues t.cues).setFlags t.flags

/-- A peer's bulletin of the context's tag has been taken since the context started, if it has a partner (R168). -/
def PartnerConfirms (k : Context) (s : State) : Prop :=
  ∀ st, k.params.partner = some st → s.peers[st].updates ≠ k.noted ∧ s.peers[st].tag = k.tag

/-- The partner check of a context is due at its next advance (R157, R168). -/
def CheckDue (k : Context) : Prop := k.pair = .pending ∧ k.k = 0

/-- The pair status after the next advance (R168). -/
def PairAfter (k : Context) (s : State) (pair : PairStatus) : Prop :=
  (¬CheckDue k ∧ pair = k.pair) ∨ (CheckDue k ∧ PartnerConfirms k s ∧ pair = .paired)
    ∨ (CheckDue k ∧ ¬PartnerConfirms k s ∧ k.hard = false ∧ pair = .unpaired)

/-- A cue of this tag and state is in the list, finished at the field count of t where the state is a finished one. -/
def HoldsTag (t : State) (tag : Byte) (state : CueState) : Prop :=
  ∃ d ∈ t.cues.list, d.tag = tag ∧ d.state = state ∧ (d.finished = true → d.finish = some t.time.fieldCount)

/-- The record of s is broken in t: the lines are released and the ACTIVE RECORD cue is ABORTED, finished at the field count
of s, with CUE_ABORTED (R96, R149). -/
def RecordBroken (s t : State) : Prop :=
  t.tr.punch = none ∧ activeRecord t = none
    ∧ t.cues =
      { s.cues with
        list := s.cues.list.map fun c => if c.recording then
          { c with state := .aborted, finish := some s.time.fieldCount } else c }
    ∧ ((activeRecord s).isSome = true → hasFlag t .cueAborted = true)
    ∧ (activeRecord s = none → hasFlag t .cueAborted = hasFlag s .cueAborted)

/-- No record of s is broken in t: the punch-in, the cues and the sticky flags stay. -/
def RecordKept (s t : State) : Prop := t.tr.punch = s.tr.punch ∧ t.cues = s.cues ∧ t.flags = s.flags

/-! ### The values after a full reset (Tables 2.6, 3.3, 6.8, 7.2, 8.4, 9.6, 10.6, 11.1; R65, R70, R178, R179, R183) -/

/-- The station t is the one a full reset with these straps makes, with the lines at these levels. -/
def FullyReset (straps : Straps) (pins : Pins) (t : State) : Prop :=
  t.straps = straps ∧ t.pins = pins
    ∧ t.power = { supervisor := .run, dipTimer := 0, goodTimer := 0, resetHigh := true }
    ∧ t.time.refState = .lost ∧ t.time.warmUp = 0 ∧ t.time.prevPulse = none ∧ t.time.count = 0 ∧ t.time.due = 0
    ∧ t.time.fieldCount = 0 ∧ t.time.secondField = false
    ∧ t.pos.held = 0 ∧ t.pos.quality = (if heldRole straps = .live then .virtual else .none)
    ∧ t.pos.pulses = 0 ∧ t.pos.adopted = false ∧ t.pos.jammed = false ∧ t.pos.silent = 0
    ∧ t.pos.candidate = none ∧ t.pos.tcRejects = 0 ∧ t.pos.jams = 0
    ∧ t.pos.record = { position := 0, quality := t.pos.quality, motion := 0, jammed := false }
    ∧ (∀ st : Station, t.peers[st].heard = false ∧ t.peers[st].arrival = 0 ∧ t.peers[st].updates = 0)
    ∧ t.req = { lastTag := 0, lastResult := .ok, count := 0 }
    ∧ t.link.rx = .ignore ∧ t.link.quiet = false ∧ t.link.phase = .idle ∧ t.link.position = none
    ∧ t.link.reports = [] ∧ t.link.backoff.toNat = straps.station.val * 1999 + 1
    ∧ t.link.rxBad = 0 ∧ t.link.collisions = 0 ∧ t.link.txDropped = 0
    ∧ t.tr.command = .stop ∧ t.tr.parkedMark = false ∧ t.tr.locate = none ∧ t.tr.armed = 0 ∧ t.tr.punch = none
    ∧ t.tr.servoTimer = 0 ∧ t.tr.speedWord = 0 ∧ t.tr.speedSent = false
    ∧ t.chase.state = .free ∧ t.chase.lead = straps.station ∧ t.chase.offset = 0 ∧ t.chase.integral = 0
    ∧ t.chase.inWindow = 0 ∧ t.chase.outWindow = 0 ∧ t.chase.freewheel = 0 ∧ t.chase.parkFrame = none
    ∧ t.chase.parkDone = false ∧ t.chase.lastError = 0
    ∧ t.chase.record
        = { state := .free, target := 0, usable := heldRole straps == .live, error := 0, compare := .level,
            ready := false }
    ∧ t.cues = { list := [], ownSample := none, leadSample := none }
    ∧ t.fader
        = { level := 0, gain := 0, law := .linear, windowClass := .full, invert := false, softness := 0,
            context := none }
    ∧ t.mix.sending = none
    ∧ (∀ line : GpiLine,
        t.gpi.inputs[line].accepted = none ∧ t.gpi.inputs[line].run = 0 ∧ t.gpi.inputs[line].edge = .fall
          ∧ t.gpi.inputs[line].binding = .cue ∧ t.gpi.inputs[line].holdoff = 0
          ∧ t.gpi.outputs[line] = { source := .none, pattern := .steady, pulse := none })
    ∧ t.marks = [] ∧ t.flags = Flag.powerRestart.mask

/-! ### Invariants -/

/-- R49, R110: no counter passes 65,535. -/
def CountersHeld (s : State) : Prop :=
  s.link.rxBad ≤ 65535 ∧ s.link.collisions ≤ 65535 ∧ s.link.txDropped ≤ 65535 ∧ s.pos.tcRejects ≤ 65535
    ∧ s.pos.jams ≤ 65535

/-- A frame of the transmit queue has met fewer than 8 collisions (R45). -/
def FrameSound (f : TxFrame) : Prop := f.collisions < 8

/-- What the sender may be doing: a deferral of 1 to 63 slots runs only on a quiet line; while the station drives the line
its receiver is in IGNORE (R40, R41, R42). -/
def PhaseSound (l : Link) : Prop :=
  match l.phase with
  | .idle => True
  | .deferring k => 1 ≤ k ∧ k < 64 ∧ l.quiet = true
  | .sending f _ => FrameSound f ∧ l.rx = .ignore ∧ l.quiet = false
  | .jamming => l.rx = .ignore ∧ l.quiet = false

/-- The Suite Link Interface (R40 to R46): the register is never zero, the queue holds at most one POSITION and three
REPORTs, each in its own place, no frame of 8 collisions, and a frame is collected on a line that is not quiet. -/
def LinkSound (s : State) : Prop :=
  s.link.backoff ≠ 0 ∧ reportsHeld s.link ≤ 3 ∧ (∀ f ∈ s.link.reports, FrameSound f ∧ f.kind = .report)
    ∧ (∀ f ∈ s.link.position, FrameSound f ∧ f.kind = .position) ∧ PhaseSound s.link
    ∧ (s.link.rx = .frame → s.link.quiet = false)

/-- R180: at most 8 marks, none of quality NONE. -/
def MarksSound (s : State) : Prop := s.marks.length ≤ 8 ∧ ∀ m ∈ s.marks, m.quality ≠ .none

/-- R125: LOCKED only while the reference is PRESENT and, except on LIVE, SERVO is true. -/
def LockSound (s : State) : Prop :=
  s.chase.state = .locked → Running s ∧ s.time.refState = .present ∧ (role s = .live ∨ s.pins.servo = true)

/-- R112, R15: the lead is the own station exactly while the chase is FREE, and the offset is a frame count. -/
def LeadSound (s : State) : Prop :=
  (s.chase.lead = own s ↔ s.chase.state = .free) ∧ s.chase.offset < (std s).fpd

/-- R22, R27: the count stays below the period, PRESENT leaves no internal boundary due, and the warm-up count stays
within 16. -/
def TimebaseSound (s : State) : Prop :=
  s.time.count < (std s).period ∧ (s.time.refState = .present → s.time.due = 0) ∧ s.time.warmUp ≤ 16

/-- R1, R17: the positions and the chase record's targets lie within the day, and VIRTUAL is the quality of a LIVE station
and no other. -/
def PositionsSound (s : State) : Prop :=
  s.pos.held < (std s).day ∧ s.pos.record.position < (std s).day ∧ s.pos.published.position < (std s).day
    ∧ s.chase.handed.target < (std s).day ∧ s.chase.record.target < (std s).day
    ∧ (s.pos.quality = .virtual ↔ role s = .live) ∧ (s.pos.record.quality = .virtual ↔ role s = .live)
    ∧ (s.pos.published.quality = .virtual ↔ role s = .live)

/-- The trigger frame and the locate target of a cue, where it has them, are frame counts (Tables 9.1, 9.2). -/
def CueFramesSound (x : Standard) (c : Cue) : Prop :=
  (∀ f ∈ c.frame?, f < x.fpd) ∧ ∀ f, c.action = .transport (.locate f) → f < x.fpd

/-- A peer entry's frame and phase are those of a position (R57, R60). -/
def EntryFrameSound (x : Standard) (e : PeerEntry) : Prop := e.frame < x.fpd ∧ e.phase < 512

/-- R1, R60, R91, R120, R132, §11.3: every frame held, in a peer entry, a mark, a cue, a locate or as the park frame, is a
frame count of the standard, and every phase is below 512. -/
def FramesSound (s : State) : Prop :=
  (∀ st : Station, EntryFrameSound (std s) s.peers[st]) ∧ (∀ m ∈ s.marks, m.frame < (std s).fpd ∧ m.phase < 512)
    ∧ (∀ c ∈ s.cues.list, CueFramesSound (std s) c) ∧ (∀ l ∈ s.tr.locate, l.target < (std s).fpd)
    ∧ ∀ f ∈ s.chase.parkFrame, f < (std s).fpd

/-- Cue a may stand ahead of cue b: timed cues by trigger frame, ahead of untimed ones (R134). -/
def mayPrecede (a b : Cue) : Prop :=
  match a.frame?, b.frame? with
  | some f, some g => f ≤ g
  | some _, none => True
  | none, some _ => False
  | none, none => True

/-- R134: at most 24 cues, distinct tags from 1 to 255, timed cues in order ahead of the untimed. -/
def CueListSound (s : State) : Prop :=
  s.cues.list.length ≤ 24 ∧ (s.cues.list.map Cue.tag).Nodup ∧ (∀ c ∈ s.cues.list, c.tag ≠ 0)
    ∧ s.cues.list.Pairwise mayPrecede

/-- A RECORD cue that is ACTIVE with these EDIT lines: they are its tracks within the armed set (R94). -/
def recordsWith (armed tracks : Tracks) (c : Cue) : Prop :=
  c.state = .active ∧ ∃ own length, c.action = .record own length ∧ own &&& armed = tracks

/-- R94, R96, R146: REC and the EDIT lines are asserted only on a running RECORDER with its RECORD cue ACTIVE and the
transport in PLAY, the lines being the cue's tracks that are armed; at most one RECORD cue is ACTIVE; only a RECORDER
holds a RECORD cue. -/
def RecordSound (s : State) : Prop :=
  CueListSound s ∧ (s.cues.list.filter Cue.recording).length ≤ 1
    ∧ (∀ c ∈ s.cues.list, c.isRecord = true → role s = .recorder)
    ∧ (∀ p ∈ s.tr.punch,
        Running s ∧ role s = .recorder ∧ transportState s = .play ∧ p.tracks ≠ 0
          ∧ ∃ c ∈ s.cues.list, recordsWith s.tr.armed p.tracks c)

/-- Transition parameters within the ranges of Table 9.2. -/
def ParamsSound (p : TransParams) : Prop := p.target ≤ 1024 ∧ p.duration ≤ 999 ∧ p.softness < 64

/-- A cue's transition parameters, where it has them, are within their ranges. -/
def CueParamsSound (c : Cue) : Prop := ∀ p, c.action = .transition p → ParamsSound p

/-- A context within the ranges of Table 10.2; between commands it has not reached its duration (R157, R158). -/
def ContextSound (c : Context) : Prop := ParamsSound c.params ∧ c.fromLevel ≤ 1024 ∧ c.k < c.params.duration

/-- R154, R162, R167: the level and the gain stay within 0 to 1,024 and the softness within 0 to 63. -/
def FaderSound (s : State) : Prop :=
  s.fader.level ≤ 1024 ∧ s.fader.gain ≤ 1024 ∧ s.fader.softness < 64 ∧ (∀ c ∈ s.fader.context, ContextSound c)
    ∧ ∀ c ∈ s.cues.list, CueParamsSound c

/-- A command or drive within the command range (R3). -/
def CommandSound : Command → Prop
  | .stop => True
  | .speed v => -12800 ≤ v ∧ v ≤ 12800

/-- R81: the speed word always lies within −12,800 to 12,800, as do the command and the locate drive. -/
def SpeedSound (s : State) : Prop :=
  CommandSound s.tr.command ∧ (∀ l ∈ s.tr.locate, CommandSound l.drive) ∧ -12800 ≤ s.tr.speedWord
    ∧ s.tr.speedWord ≤ 12800

/-- R79: no speed word is sent while the port is released. -/
def PortQuiet (s : State) : Prop := s.tr.speedSent = true → (drive s).isSome = true

end Sys2Proof.Machine
end

