-- ==== Sys2Proof/Certificates/Slice0/Obligations.lean ====
section
/-! DEFINITION. The statements for the provers. -/

open Sys2Proof Sys2Proof.Machine

/-! ### The queue and the step -/

/-- A step takes the command at the front of the queue and runs it on the queue's rest; on an empty queue the block idles,
which is the model's choice (log 1). -/
def Obligations.StepTakesTheQueue : Prop :=
  (∀ (c : Instr) (rest : List Instr) (s : State), s.pending = c :: rest → step s = exec c (s.setPending rest)) ∧
  (∀ s : State, s.pending = [] → step s = .next s)

/-- Every command answers a next state, leaves the queue as it was, and leaves the straps as they were but at the end of
HOLD (R18). -/
def Obligations.EveryCommandAnswersNext : Prop :=
  ∀ (c : Instr) (s : State),
    ∃ t, exec c s = .next t ∧ t.pending = s.pending
      ∧ ((∀ p, c ≠ .supplyRecovery (some p) ∧ c ≠ .resetPinRelease p) → t.straps = s.straps)

/-! ### Supply and reset -/

/-- Power-up, and from RUN a brownout or a low RESET pin, enter HOLD with every output released: nothing is driven on the
deck, the link, the outputs, the mix port and the SPEED pin (R19, R20). -/
def Obligations.HoldEntryReleasesOutputs : Prop :=
  ∀ (c : Instr) (s : State),
    (c = .powerUp ∨ (Running s ∧ (c = .brownout ∨ c = .resetPinLow))) →
      ∃ t, exec c s = .next t ∧ t.power.supervisor = .hold
        ∧ t.tr.punch = none ∧ editLines t = 0 ∧ drive t = none ∧ modeLine t = none ∧ t.tr.speedSent = false
        ∧ driverReleased t.link = true ∧ txChars t = [] ∧ txLevels t = [] ∧ (∀ line : GpiLine, outputActive t line = false)
        ∧ t.mix.sending = none ∧ mixChars t = [] ∧ speedWordChars t = [] ∧ t.straps = s.straps ∧ t.pins = s.pins

/-- In HOLD no command but those of the supply and the RESET pin acts (R20); a deck line takes its level and changes
nothing else, which is the model's reading of the pins (log 11). -/
def Obligations.HoldTakesNoInput : Prop :=
  ∀ s : State, s.power.supervisor = .hold →
    (∀ c : Instr, isPowerCommand c = false → isDeckLine c = false → exec c s = .next s)
      ∧ ∀ level : Bool,
        exec (.threadedChange level) s = .next (s.setPins { s.pins with threaded := level })
          ∧ exec (.localChange level) s = .next (s.setPins { s.pins with localOn := level })
          ∧ exec (.eotChange level) s = .next (s.setPins { s.pins with eot := level })
          ∧ exec (.servoFall level) s = .next (s.setPins { s.pins with servo := level })
          ∧ exec (.rectallyRise level) s = .next (s.setPins { s.pins with rectally := level })

/-- HOLD ends when the good timer reaches 50 ms with the RESET pin high, or at the pin's release after it: the full reset,
with every value of the chapters' reset tables and the straps as read then (R18, R19, R21); the deck's lines keep their
levels (log 4). It goes on while the pin is low or the timer has not reached 50 ms; a supply that falls to 4.55 V or below
has risen past 4.40 V, so that both timers are 0, and a brownout clears the good timer (R19). In RUN the recovery does
nothing. The timers' values are the model's, and so is the command that brings the fall (log 6). -/
def Obligations.HoldEndsInFullReset : Prop :=
  (∀ (straps : Straps) (s : State), s.power.supervisor = .hold →
        (s.power.resetHigh = true → ∃ t, exec (.supplyRecovery (some straps)) s = .next t ∧ FullyReset straps s.pins t)
          ∧ (50000 ≤ s.power.goodTimer → ∃ t, exec (.resetPinRelease straps) s = .next t ∧ FullyReset straps s.pins t)) ∧
  (∀ (straps : Straps) (s : State), s.power.supervisor = .hold →
        (s.power.resetHigh = false →
            exec (.supplyRecovery (some straps)) s
              = .next (s.setPower { s.power with dipTimer := 0, goodTimer := 50000 }))
          ∧ (s.power.goodTimer < 50000 →
            exec (.resetPinRelease straps) s = .next (s.setPower { s.power with resetHigh := true }))
          ∧ exec (.supplyRecovery none) s = .next (s.setPower { s.power with dipTimer := 0, goodTimer := 0 })
          ∧ exec .brownout s = .next (s.setPower { s.power with dipTimer := 2000, goodTimer := 0 })
          ∧ exec .resetPinLow s = .next (s.setPower { s.power with resetHigh := false })) ∧
  (∀ (straps : Straps) (s : State), Running s →
        exec (.supplyRecovery (some straps)) s = .next s ∧ exec (.supplyRecovery none) s = .next s
          ∧ exec (.resetPinRelease straps) s = .next (s.setPower { s.power with resetHigh := true }))

/-- The state after reset is a full reset of a station strapped unconnected on all pins: station 0, PLAYER, F25 (R18,
R21). The levels of the deck's lines are the model's choice (log 4). What any straps fix: the role, 11b held as PLAYER,
the standard, the frames of a day of 512 micros each, and the active lines of a field (R1, R2, R18, R163, Tables 1.2 and
2.1). -/
def Obligations.ResetStateIsFullReset : Prop :=
  FullyReset { station := 0, role := 0, std := 0 } State.reset.pins State.reset
    ∧ heldRole State.reset.straps = .player ∧ std State.reset = .f25 ∧ State.reset.pending = []
    ∧ ∀ s : State,
        own s = s.straps.station
          ∧ [Role.player, .recorder, .live, .player][s.straps.role.toNat]? = some (role s)
          ∧ [Standard.f25, .f30df, .f30nd, .f30][s.straps.std.toNat]? = some (std s)
          ∧ [2160000, 2589408, 2592000, 2592000][s.straps.std.toNat]? = some (std s).fpd
          ∧ (std s).day = 512 * (std s).fpd
          ∧ [288, 243, 243, 243][s.straps.std.toNat]? = some (std s).activeLines

/-! ### Reference and timebase -/

/-- The clock at a timed event: a reading earlier than the clock counts as now; the count starts again at each nominal
period, and outside PRESENT each period completed makes a boundary due, so that no time is lost (R22; logs 3 and 14). A
reference pulse that makes no boundary: LOST starts a warm-up; SETTLING counts a good pulse, is PRESENT at the sixteenth,
with no internal boundary due any longer, and goes to LOST at a bad one; PRESENT ignores a pulse out of the window (R23,
R25 to R27; that the sixteenth leaves the count in its phase is log 14). The nominal periods, the good windows and the
missing limits are those of Table 2.3. -/
def Obligations.ReferencePulseWithoutBoundary : Prop :=
  (∀ (time : Nat) (s : State),
    let t := atTime time s
    t = s.setTime { s.time with clock := max s.time.clock time, count := t.time.count, due := t.time.due }
      ∧ t.time.count < (std s).period
      ∧ (s.time.refState ≠ .present →
          t.time.due * (std s).period + t.time.count
            = s.time.due * (std s).period + s.time.count + (t.time.clock - s.time.clock))
      ∧ (s.time.refState = .present →
          t.time.due = 0 ∧ t.time.count = (s.time.count + (t.time.clock - s.time.clock)) % (std s).period)) ∧
  ∀ (time : Nat) (first : Bool) (s : State), Running s →
    let u := atTime time s
    let x := u.time
    (s.time.refState = .lost →
        exec (.referencePulse time first) s
          = .next (u.setTime { x with refState := .settling, warmUp := 1, prevPulse := some x.clock }))
      ∧ (∀ p, s.time.refState = .settling → s.time.prevPulse = some p →
          (std s).goodSpacing (x.clock - p) = true →
          (s.time.warmUp < 15 →
              exec (.referencePulse time first) s
                = .next (u.setTime { x with warmUp := s.time.warmUp + 1, prevPulse := some x.clock }))
            ∧ (s.time.warmUp = 15 →
              exec (.referencePulse time first) s
                = .next (u.setTime
                    { x with
                      refState := .present, warmUp := 16, prevPulse := some x.clock, lastRef := x.clock, due := 0 })))
      ∧ (∀ p, s.time.refState = .settling → s.time.prevPulse = some p →
          (std s).goodSpacing (x.clock - p) = false →
          exec (.referencePulse time first) s = .next (u.setTime { x with refState := .lost, warmUp := 0 }))
      ∧ (s.time.refState = .present → (std s).goodSpacing (x.clock - s.time.lastRef) = false →
          exec (.referencePulse time first) s = .next u)
      ∧ [240000, 200200, 200200, 200000][s.straps.std.toNat]? = some (std s).period
      ∧ [360000, 300300, 300300, 300000][s.straps.std.toNat]? = some (std s).missingLimit
      ∧ ∃ low high,
          [(237600, 242400), (198198, 202202), (198198, 202202), (198000, 202000)][s.straps.std.toNat]?
              = some (low, high)
            ∧ ∀ n, (std s).goodSpacing n = true ↔ low ≤ n ∧ n ≤ high

/-- What makes a boundary and what it does to the timebase. A good pulse in PRESENT: the last reference time, the count
and the frame phase come from it (R23, R28, R29), and a later SETTLING judges against it (log 31). In LOST and SETTLING
the completed period: the clock reaches its end, or, where other events have taken the clock past it, the oldest boundary
due is issued and dated at the moment its period was completed (R22, R28, R30; logs 3 and 14); in PRESENT the internal
timebase issues none. The missing limit in PRESENT: LOST, REF_LOST, the missed boundary with the count at half a period,
and no lock left (R24, R31, R125); in SETTLING it makes none (R26, R31). -/
def Obligations.BoundarySources : Prop :=
  (∀ (time : Nat) (first : Bool) (s : State), Running s → s.time.refState = .present →
        let now := max s.time.clock time
        (std s).goodSpacing (now - s.time.lastRef) = true →
          ∃ t, exec (.referencePulse time first) s = .next t
            ∧ t.time =
              { s.time with
                clock := now, lastRef := now, prevPulse := some now, count := 0, due := 0, lastBoundary := now,
                fieldCount := s.time.fieldCount + 1, secondField := !first }) ∧
  (∀ s : State, Running s →
        (s.time.refState ≠ .present → s.time.due = 0 →
            ∃ t, exec .internalBoundary s = .next t
              ∧ t.time =
                { s.time with
                  clock := s.time.clock + ((std s).period - s.time.count), count := 0,
                  lastBoundary := s.time.clock + ((std s).period - s.time.count),
                  fieldCount := s.time.fieldCount + 1, secondField := !s.time.secondField })
          ∧ (s.time.refState ≠ .present → s.time.due ≠ 0 →
            ∃ t, exec .internalBoundary s = .next t
              ∧ t.time =
                { s.time with
                  due := s.time.due - 1,
                  lastBoundary := s.time.clock - (s.time.count + (s.time.due - 1) * (std s).period),
                  fieldCount := s.time.fieldCount + 1, secondField := !s.time.secondField })
          ∧ (s.time.refState = .present → exec .internalBoundary s = .next s)) ∧
  (∀ s : State, Running s →
        (s.time.refState = .present →
            ∃ t, exec .missingLimitPresent s = .next t
              ∧ t.time =
                { s.time with
                  refState := .lost, warmUp := 0, clock := max s.time.clock (s.time.lastRef + (std s).missingLimit),
                  count := (std s).period / 2, due := 0,
                  lastBoundary := max s.time.clock (s.time.lastRef + (std s).missingLimit),
                  fieldCount := s.time.fieldCount + 1, secondField := !s.time.secondField }
              ∧ hasFlag t .refLost = true ∧ t.chase.state ≠ .locked)
          ∧ (∀ p, s.time.refState = .settling → s.time.prevPulse = some p →
            exec .missingLimitSettling s
              = .next
                  ((atTime (p + (std s).missingLimit) s).setTime
                    { (atTime (p + (std s).missingLimit) s).time with refState := .lost, warmUp := 0 })))

/-! ### The boundary -/

/-- Whatever the order of the takers, a boundary reaches each block: every holdoff falls by 1, silent entries are cleared,
the mix port has its first record, and the request record, the straps and the lines stay (R28, R62, R170, R174). What it
does to the position, the fader, the transport, the link and the cues is stated beside. -/
def Obligations.BoundaryReachesEveryBlock : Prop :=
  ∀ (c : Instr) (s : State), Running s → MakesBoundary c s →
    ∃ t, exec c s = .next t ∧ t.time.fieldCount = s.time.fieldCount + 1
      ∧ t.gpi.inputs = s.gpi.inputs.map (fun i => { i with holdoff := i.holdoff - 1 })
      ∧ t.peers = s.peers.map (PeerEntry.silenced (s.time.fieldCount + 1))
      ∧ t.mix.sending.isSome = true ∧ t.req = s.req ∧ t.straps = s.straps ∧ t.pins = s.pins
      ∧ t.power = s.power

/-- Publication at a boundary: on a deck station the held position, its quality after the silent count, and 32 micros a
pulse as motion (R106, R108); on a LIVE station the position a field at play speed further on, its motion the difference
from the position published before it, after which a usable target of an enabled chase becomes the held position and the
record is written again with it (R109). The first publication after reset takes its motion against position 0 (log 19). -/
def Obligations.BoundaryPublishesPosition : Prop :=
  ∀ (c : Instr) (s : State), Running s → MakesBoundary c s →
    let silent := if s.pos.pulses ≠ 0 ∧ s.pos.adopted = false then min 25 (s.pos.silent + 1) else s.pos.silent
    ∃ t, exec c s = .next t ∧ t.pos.pulses = 0 ∧ t.pos.adopted = false ∧ t.pos.jammed = false
      ∧ (isDeck s = true →
          t.pos.held = s.pos.held ∧ t.pos.silent = silent ∧ t.pos.record = t.pos.published
            ∧ t.pos.published =
              { position := s.pos.held
                quality := if s.pos.quality = .ltc ∧ 25 ≤ silent then .tach else s.pos.quality
                motion := clampInt (-32768) 32767 (32 * s.pos.pulses), jammed := s.pos.jammed })
      ∧ (isDeck s = false →
          t.pos.published =
              { position := modSum (std s) s.pos.held 256, quality := .virtual
                motion :=
                  clampInt (-32768) 32767
                    (signedDiff (std s) (modSum (std s) s.pos.held 256) s.pos.published.position)
                jammed := false }
            ∧ (t.chase.handed.state ≠ .free ∧ t.chase.handed.usable = true → t.pos.held = t.chase.handed.target)
            ∧ (t.chase.handed.state = .free ∨ t.chase.handed.usable = false →
                t.pos.held = t.pos.published.position)
            ∧ t.pos.record = { t.pos.published with position := t.pos.held })

/-- What a context gives at its position p: a DISSOLVE moves the level from L0 toward Lt by the part p of 1,024, toward L0
rounded, with the full picture; a WIPE holds Lt (IN) or L0, inverted (OUT), with its softness and its pattern's window or
cells at p; the share is the level, or Lt × p or L0 × (1,024 − p) over 1,024, and the gain is the share's by the law
(R160, R161, R166, R167). A boundary at which no timed cue can fire advances the Source Fader, in any order of the takers.
A context below its duration is raised by one field and gives the level, gain, class, invert and softness of its new k; at
its duration it ends at its end values and the cue of its tag goes to DONE (R157, R158). A free mix port starts a record
of the values as they then stand (R170). A context whose check is due is judged: it is PAIRED when a new bulletin of the
partner holds its tag; otherwise UNPAIRED is set, the cue of its tag bears it, a SOFT context runs on UNPAIRED and a HARD
one ends (R168, R169). A running pulse loses one and ends at 0, but for one started at this boundary (R179). -/
def Obligations.BoundaryAdvancesFader : Prop :=
  (∀ k : Context,
        let p := curvePosition k.params.curve k.k k.params.duration
        let lo := k.fromLevel
        let lt := k.params.target
        (k.params.kind = .dissolve →
            k.level = (if lo ≤ lt then lo + (lt - lo) * p / 1024 else lo - (lo - lt) * p / 1024)
              ∧ k.share = k.level ∧ k.windowClass = .full ∧ k.invert = false ∧ k.softness = 0 ∧ k.shape = .full)
          ∧ (k.params.kind = .wipe →
            k.softness = k.params.softness
              ∧ (k.params.direction = .inward → k.level = lt ∧ k.share = lt * p / 1024 ∧ k.invert = false)
              ∧ (k.params.direction = .outward →
                k.level = lo ∧ k.share = lo * (1024 - p) / 1024 ∧ k.invert = true)
              ∧ (k.params.pattern = .sparkle → k.windowClass = .cells ∧ k.shape = .cells k.seed p)
              ∧ (k.params.pattern ≠ .sparkle → k.windowClass = .window ∧ k.shape = .spans k.params.pattern p))) ∧
  (∀ q : Nat,
        audioGain .linear q = q ∧ audioGain .power q = q * (2048 - q) / 1024
          ∧ audioGain .cut q = if 512 ≤ q then 1024 else 0) ∧
  ∀ (c : Instr) (s : State), Running s → MakesBoundary c s → NoTimedCue s →
    let fc := s.time.fieldCount + 1
    ∃ t, exec c s = .next t
      ∧ (s.fader.context = none → t.fader = s.fader)
      ∧ (s.mix.sending = none →
          ∃ m, t.mix.sending = some m ∧ m.secondField = t.time.secondField ∧ m.level = t.fader.level
            ∧ m.gain = t.fader.gain ∧ m.invert = t.fader.invert ∧ m.softness = t.fader.softness
            ∧ m.windowClass = t.fader.windowClass
            ∧ m.shape = match t.fader.context with | some k => k.shape | none => .full)
      ∧ (∀ m, s.mix.sending = some m → t.mix.sending = some m ∧ t.mix.due = true)
      ∧ (∀ k, s.fader.context = some k → k.start = fc → k.k < k.params.duration → t.fader.context = some k)
      ∧ (∀ k pair, s.fader.context = some k → k.start ≠ fc → PairAfter k s pair →
          let n := { k with k := k.k + 1, pair := pair }
          (n.k < n.params.duration →
              t.fader =
                { s.fader with
                  level := n.level, gain := audioGain n.params.law n.share, windowClass := n.windowClass
                  invert := n.invert, softness := n.softness, context := some n })
            ∧ (n.params.duration ≤ n.k → t.fader = s.fader.ended k)
            ∧ (k.tag ≠ 0 → n.params.duration ≤ n.k → ∀ q ∈ s.cues.list, q.transiting k.tag = true →
                HoldsTag t k.tag .done)
            ∧ (¬(CheckDue k ∧ pair = .unpaired) → hasFlag t .unpaired = hasFlag s .unpaired)
            ∧ (CheckDue k ∧ pair = .unpaired → hasFlag t .unpaired = true
              ∧ ∀ q ∈ s.cues.list, q.transiting k.tag = true → ∃ d ∈ t.cues.list, d.tag = k.tag ∧ d.unpaired = true))
      ∧ (∀ k, s.fader.context = some k → k.start ≠ fc → CheckDue k → ¬PartnerConfirms k s → k.hard = true →
          t.fader = s.fader.ended k ∧ hasFlag t .unpaired = true
            ∧ (k.tag ≠ 0 → ∀ q ∈ s.cues.list, q.transiting k.tag = true →
                { q with unpaired := true, state := .done, finish := some fc } ∈ t.cues.list))
      ∧ ∀ line : GpiLine,
          t.gpi.outputs[line].source = s.gpi.outputs[line].source
            ∧ t.gpi.outputs[line].pattern = s.gpi.outputs[line].pattern
            ∧ (s.gpi.outputs[line].pulse = none → t.gpi.outputs[line].pulse = none)
            ∧ ∀ p, s.gpi.outputs[line].pulse = some p →
                (p.start = fc → t.gpi.outputs[line].pulse = some p)
                  ∧ (p.start ≠ fc → p.count ≤ 1 → t.gpi.outputs[line].pulse = none)
                  ∧ (p.start ≠ fc → 1 < p.count → t.gpi.outputs[line].pulse = some { p with count := p.count - 1 })

/-- At a boundary, in any order of the takers, the Transport Controller acts on the station u that the takers before it
leave: the servo timer counts a boundary in PLAY without SERVO, to 120 and no further, is else 0, and TRANSPORT_FAULT is
set where it stands at 120 (R97); the tally timer of an unconfirmed punch-in rises, and the fourth boundary sets
RECORD_FAULT and stops it, the lines staying asserted (R98); the speed word of the field is the drive's speed, 0 for STOP,
and none is sent while the port is released (R81). With no timed cue waiting, that drive and state are those of the
boundary's start, or those after the evaluation, after the locate's record, or after both in either order (R81, R92,
R115). At a boundary at which nothing moves the transport they are those of the start, and nothing else of the transport
changes. -/
def Obligations.BoundaryRunsTransport : Prop :=
  (∀ (c : Instr) (s : State), Running s → MakesBoundary c s →
    ∃ (t u w : State) (rank : Taker → Nat) (pre post : List Taker), exec c s = .next t
      ∧ takerOrder rank = pre ++ .transport :: post
      ∧ let start := boundaryStart c s t
        let timer := if transportState u = .play ∧ s.pins.servo = false then min 120 (s.tr.servoTimer + 1) else 0
        u = pre.foldl (fun v taker => takeBoundary taker v) start
          ∧ t = post.foldl (fun v taker => takeBoundary taker v) w
          ∧ w = (u.setTr w.tr).setFlags w.flags
          ∧ w.tr =
            { u.tr with
              servoTimer := timer, punch := w.tr.punch, speedWord := w.tr.speedWord, speedSent := w.tr.speedSent }
          ∧ t.tr.servoTimer = timer ∧ t.tr.speedWord = w.tr.speedWord ∧ t.tr.speedSent = w.tr.speedSent
          ∧ (timer = 120 → hasFlag t .transportFault = true)
          ∧ (timer ≠ 120 → hasFlag t .transportFault = hasFlag s .transportFault)
          ∧ ((∀ tracks n, u.tr.punch ≠ some { tracks := tracks, tally := .running n }) →
              w.tr.punch = u.tr.punch ∧ hasFlag t .recordFault = hasFlag s .recordFault)
          ∧ (∀ tracks n, u.tr.punch = some { tracks := tracks, tally := .running n } →
              (n < 3 →
                  w.tr.punch = some { tracks := tracks, tally := .running (n + 1) }
                    ∧ hasFlag t .recordFault = hasFlag s .recordFault)
                ∧ (3 ≤ n →
                  w.tr.punch = some { tracks := tracks, tally := .expired } ∧ hasFlag t .recordFault = true))
          ∧ (drive u = none → t.tr.speedSent = false)
          ∧ (drive u = some .stop → t.tr.speedWord = 0 ∧ t.tr.speedSent = true)
          ∧ (∀ v, drive u = some (.speed v) → t.tr.speedWord = v ∧ t.tr.speedSent = true)
          ∧ (NoTimedCue s →
              let p := positionBoundary start
              let e := chaseBoundary p
              let l := locateBoundary p
              ∃ x ∈ [start, e, l, locateBoundary e, chaseBoundary l],
                drive u = drive x ∧ transportState u = transportState x)) ∧
  ∀ (c : Instr) (s : State), Running s → MakesBoundary c s → TransportRests s →
    let timer := if transportState s = .play ∧ s.pins.servo = false then min 120 (s.tr.servoTimer + 1) else 0
    ∃ t, exec c s = .next t
      ∧ t.tr =
        { s.tr with
          servoTimer := timer, punch := t.tr.punch, speedWord := t.tr.speedWord, speedSent := t.tr.speedSent }
      ∧ transportState t = transportState s ∧ drive t = drive s ∧ editLines t = editLines s
      ∧ (timer = 120 → hasFlag t .transportFault = true)
      ∧ (timer ≠ 120 → hasFlag t .transportFault = hasFlag s .transportFault)
      ∧ ((∀ tracks n, s.tr.punch ≠ some { tracks := tracks, tally := .running n }) →
          t.tr.punch = s.tr.punch ∧ hasFlag t .recordFault = hasFlag s .recordFault)
      ∧ (∀ tracks n, s.tr.punch = some { tracks := tracks, tally := .running n } →
          (n < 3 →
              t.tr.punch = some { tracks := tracks, tally := .running (n + 1) }
                ∧ hasFlag t .recordFault = hasFlag s .recordFault)
            ∧ (3 ≤ n →
              t.tr.punch = some { tracks := tracks, tally := .expired } ∧ hasFlag t .recordFault = true))
      ∧ (drive s = none → t.tr.speedSent = false)
      ∧ (drive s = some .stop → t.tr.speedWord = 0 ∧ t.tr.speedSent = true)
      ∧ ∀ v, drive s = some (.speed v) → t.tr.speedWord = v ∧ t.tr.speedSent = true

/-- Whatever the order of the takers, a boundary leaves one new POSITION composed for it, waiting or on the line, and none
composed before it waits; it holds the record and the chase record of the boundary; no expired REPORT waits or is started;
the register has been stepped (R41, R46, R47, R48, R50). On a line that is not quiet the register is stepped once, a
waiting POSITION is dropped and counted with BULLETIN_DROPPED, one on the line is let go, and the expired REPORTs are
dropped and counted (R41, R46, R47, R48). The order of the settling and the expiry within a boundary is the model's choice
(log 32). -/
def Obligations.BoundaryQueuesBulletin : Prop :=
  (∀ (c : Instr) (s : State), Running s → MakesBoundary c s →
    ∃ t, exec c s = .next t
      ∧ (∃ (f : TxFrame) (u : State), f.kind = .position ∧ f.collisions = 0 ∧ f.joined = s.time.fieldCount + 1
          ∧ f.payload = bulletinBytes u ∧ u.time = t.time ∧ u.pos.published = t.pos.published
          ∧ u.chase.handed = t.chase.handed ∧ u.req = s.req ∧ u.straps = s.straps
          ∧ (t.link.position = some f ∨ (t.link.position = none ∧ t.link.phase = .sending f false)))
      ∧ (∀ g ∈ t.link.reports, g ∈ s.link.reports ∧ elapsed g.joined (s.time.fieldCount + 1) < 25)
      ∧ (∀ g gone, t.link.phase = .sending g gone → g.kind = .report →
          s.link.phase = .sending g gone
            ∨ (g ∈ s.link.reports ∧ elapsed g.joined (s.time.fieldCount + 1) < 25))
      ∧ ∃ n, 1 ≤ n ∧ t.link.backoff = stepRegisterBy n s.link.backoff) ∧
  (∀ (c : Instr) (s : State), Running s → MakesBoundary c s → s.link.quiet = false →
    (∀ k, s.link.phase ≠ .deferring k) →
    let expired := (s.link.reports.filter fun g => 25 ≤ elapsed g.joined (s.time.fieldCount + 1)).length
    let dropped := if s.link.position.isSome then expired + 1 else expired
    ∃ t f, exec c s = .next t
      ∧ t.link =
        { s.link with
          phase := t.link.phase, position := some f, heldBack := false, backoff := stepRegister s.link.backoff
          reports := s.link.reports.filter fun g => elapsed g.joined (s.time.fieldCount + 1) < 25
          txDropped := min (max 65535 s.link.txDropped) (s.link.txDropped + dropped) }
      ∧ f.kind = .position ∧ f.joined = s.time.fieldCount + 1 ∧ f.collisions = 0
      ∧ (s.link.position.isSome = true → hasFlag t .bulletinDropped = true)
      ∧ (s.link.position = none → hasFlag t .bulletinDropped = hasFlag s .bulletinDropped)
      ∧ (∀ g gone, s.link.phase = .sending g gone →
          (g.kind = .report → t.link.phase = .sending g gone)
            ∧ (g.kind = .position → s.link.position = none → g.joined ≠ s.time.fieldCount + 1 →
              t.link.phase = .sending g true))
      ∧ ((∀ g gone, s.link.phase ≠ .sending g gone) → t.link.phase = s.link.phase))

/-- The crossing test: a clock that moved forward by at most 1,024 micros to or past a trigger point crosses it; one that
stood still, stood on the point, or was unusable does not (R141). At a boundary, in any order of the takers, a WAITING
timed cue fires when its clock crossed its point and otherwise stays as it is; the own clock is the published position of
a usable quality, the lead clock the usable target of the chase record (R140, R141). With no timed cue waiting, on a FREE
chase and an enabled one alike: where the evaluation leaves the record unbroken, the ACTIVE RECORD cue's remaining count
falls by 1, at 0 it is DONE and punches out (R147), and the not-ready count follows the cue's readiness at the record: at
3 a HARD cue is aborted and punched out, a SOFT one SLIPPED (R148); where it breaks the record, that stays broken (R96). -/
def Obligations.BoundaryRunsCues : Prop :=
  (∀ (std : Standard) (frame : Nat),
    (∀ p, crossed std none p frame = false ∧ crossed std p none frame = false)
      ∧ ∀ p0 p1 : Nat, p0 < std.day → p1 < std.day → frame < std.fpd →
        let d := if p0 ≤ p1 then p1 - p0 else p1 + std.day - p0
        let x := if p0 ≤ 512 * frame then 512 * frame - p0 else 512 * frame + std.day - p0
        (crossed std (some p0) (some p1) frame = true ↔ 0 < d ∧ d ≤ 1024 ∧ 0 < x ∧ x ≤ d)) ∧
  (∀ (c : Instr) (s : State), Running s → MakesBoundary c s → CueListSound s →
    ∃ t, exec c s = .next t
      ∧ t.cues.ownSample = (if t.pos.published.quality = .none then none else some t.pos.published.position)
      ∧ t.cues.leadSample = (if t.chase.handed.usable = true then some t.chase.handed.target else none)
      ∧ ∀ q ∈ s.cues.list, q.state = .waiting →
          let crossing :=
            ∃ f, (q.trigger = .own f ∧ crossed (std s) s.cues.ownSample t.cues.ownSample f = true)
              ∨ (q.trigger = .lead f ∧ crossed (std s) s.cues.leadSample t.cues.leadSample f = true)
          (crossing → ∃ d ∈ t.cues.list, d.tag = q.tag ∧ d.state ≠ .waiting) ∧ (¬crossing → q ∈ t.cues.list)) ∧
  (∀ (c : Instr) (q : Cue) (s : State), Running s → MakesBoundary c s → NoTimedCue s →
    (s.tr.locate = none ∨ s.tr.punch = none) → activeRecord s = some q →
    ∃ t, exec c s = .next t
      ∧ let before := if c = .missingLimitPresent then loseLock s else s
        let u := chaseBoundary (positionBoundary (before.setTime t.time))
        let left := { q with remaining := q.remaining - 1 }
        let notReady :=
          if cueReady t.chase.handed.ready q.required t = true then 0 else min 3 (q.notReady + 1)
        (s.chase.state = .free → activeRecord u = some q)
          ∧ (activeRecord u ≠ some q → activeRecord t = none ∧ t.tr.punch = none ∧ hasFlag t .cueAborted = true)
          ∧ (activeRecord u = some q →
            (q.remaining ≤ 1 →
                { left with state := .done, finish := some (s.time.fieldCount + 1) } ∈ t.cues.list
                  ∧ t.tr.punch = none)
              ∧ (1 < q.remaining → notReady < 3 →
                { left with notReady := notReady } ∈ t.cues.list ∧ editLines t = editLines s)
              ∧ (1 < q.remaining → notReady = 3 → q.hard = true →
                { left with notReady := 3, state := .aborted, finish := some (s.time.fieldCount + 1) } ∈ t.cues.list
                  ∧ t.tr.punch = none ∧ hasFlag t .cueAborted = true)
              ∧ (1 < q.remaining → notReady = 3 → q.hard = false →
                { left with notReady := 3, slipped := true } ∈ t.cues.list ∧ editLines t = editLines s
                  ∧ hasFlag t .syncSlip = true)))

/-- The order of the takers, whatever the free ranks: each acts once; the evaluation answers the publication, the locate
takes it, and the virtual position, the Cue Engine and the Composer take the chase record (R50, R91, R115, R130). A
boundary is what the takers make of its start in such an order, and of nothing else (R28, R51; log 9). -/
def Obligations.TakersKeepTheirOrder : Prop :=
  (∀ (c : Instr) (s : State), Running s → MakesBoundary c s →
    ∃ (t : State) (rank : Taker → Nat), exec c s = .next t
      ∧ t = (takerOrder rank).foldl (fun v taker => takeBoundary taker v) (boundaryStart c s t)) ∧
  ∀ rank : Taker → Nat,
    (takerOrder rank).Perm allTakers
      ∧ [Taker.publish, .evaluate].Sublist (takerOrder rank) ∧ [Taker.publish, .locate].Sublist (takerOrder rank)
      ∧ [Taker.evaluate, .setVirtual].Sublist (takerOrder rank)
      ∧ [Taker.evaluate, .cues].Sublist (takerOrder rank)
      ∧ [Taker.evaluate, .compose].Sublist (takerOrder rank)

/-! ### Position Unit -/

/-- Each tach pulse moves the held position of a deck station by 32 micros and is counted; on LIVE it has no effect, and
in HOLD it is not taken (R100). -/
def Obligations.TachPulseMovesHeldPosition : Prop :=
  (∀ (forward : Bool) (s : State), s.power.supervisor = .hold → exec (.tachPulse forward) s = .next s) ∧
  ∀ (forward : Bool) (s : State), Running s →
    (isDeck s = true →
        exec (.tachPulse forward) s
          = .next
              (s.setPos
                { s.pos with
                  held := modSum (std s) s.pos.held (if forward then 32 else -32)
                  pulses := clampInt (-32768) 32767 (s.pos.pulses + (if forward then 1 else -1)) }))
      ∧ (isDeck s = false → exec (.tachPulse forward) s = .next s)

/-- A label is valid within its standard's label rate; drop-frame counting omits frames 0 and 1 of a minute not divisible
by 10, and a count is the seconds times the rate and the frames, less two for each such minute (R5 to R7); a request's
omitted label becomes frame 2 (R8). A word is delivered on a threaded deck whose published motion is 32 to 4,096; any
other is discarded without effect, and a delivered word with an invalid or omitted label raises tc_rejects alone (R101,
R102). A valid one with no candidate held is a trim within 1,024 micros of the estimate, and otherwise the candidate
(R103). -/
def Obligations.TimecodeWordWithoutCandidate : Prop :=
  (∀ (x : Standard) (l : Label),
        let rate := if x = .f25 then 25 else 30
        let seconds := 3600 * l.hours + 60 * l.minutes + l.seconds
        let tm := 60 * l.hours + l.minutes
        (labelValid x l = true ↔ l.hours ≤ 23 ∧ l.minutes ≤ 59 ∧ l.seconds ≤ 59 ∧ l.frames < rate)
          ∧ (labelOmitted x l = true ↔ x = .f30df ∧ l.seconds = 0 ∧ l.frames ≤ 1 ∧ l.minutes % 10 ≠ 0)
          ∧ (x ≠ .f30df → labelCount x l = rate * seconds + l.frames)
          ∧ (x = .f30df → labelCount x l + 2 * (tm - tm / 10) = 30 * seconds + l.frames)
          ∧ requestCount x l = labelCount x (if labelOmitted x l = true then { l with frames := 2 } else l)) ∧
  (∀ (label : Label) (backward : Bool) (s : State), Running s →
        (¬(isDeck s = true ∧ s.pins.threaded = true ∧ 32 ≤ s.pos.published.motion.natAbs
            ∧ s.pos.published.motion.natAbs ≤ 4096) →
            exec (.timecodeWord label backward) s = .next s)
          ∧ (isDeck s = true → s.pins.threaded = true → 32 ≤ s.pos.published.motion.natAbs →
            s.pos.published.motion.natAbs ≤ 4096 →
            (labelValid (std s) label = false ∨ labelOmitted (std s) label = true) →
            exec (.timecodeWord label backward) s
              = .next (s.setPos { s.pos with tcRejects := bumpCounter s.pos.tcRejects }))) ∧
  (∀ (label : Label) (backward : Bool) (s : State), Running s → wordsDelivered s = true →
        labelValid (std s) label = true → labelOmitted (std s) label = false → s.pos.candidate = none →
        let c := labelCount (std s) label
        let x := if backward then c * 512 else (c + 1) * 512 % (std s).day
        ((signedDiff (std s) x s.pos.held).natAbs ≤ 1024 →
            exec (.timecodeWord label backward) s
              = .next
                  (s.setPos
                    { s.pos with
                      held := x, quality := .ltc, adopted := true, silent := 0
                      record := { s.pos.record with position := x, quality := .ltc } }))
          ∧ (1024 < (signedDiff (std s) x s.pos.held).natAbs →
            exec (.timecodeWord label backward) s
              = .next
                  (s.setPos
                    { s.pos with
                      candidate := some { count := c, backward := backward, arrival := s.time.fieldCount } })))

/-- A valid delivered word that confirms the candidate jams the position, raises jams and sets TC_JUMP unless the quality
was NONE; one that does not confirm discards the candidate, is counted and judged as if none had been held (R104, R105). A
candidate four boundaries old is discarded and counted (R104); LTC with a silent count of 25 becomes TACH (R106). -/
def Obligations.TimecodeWordMeetsCandidate : Prop :=
  (∀ (label : Label) (backward : Bool) (k : Candidate) (s : State), Running s → wordsDelivered s = true →
        labelValid (std s) label = true → labelOmitted (std s) label = false → s.pos.candidate = some k →
        let c := labelCount (std s) label
        let x := if backward then c * 512 else (c + 1) * 512 % (std s).day
        let next := if backward then (k.count + (std s).fpd - 1) % (std s).fpd else (k.count + 1) % (std s).fpd
        (k.backward = backward → c = next → elapsed k.arrival s.time.fieldCount ≤ 3 →
            exec (.timecodeWord label backward) s
              = .next
                  ((s.setPos
                    { s.pos with
                      held := x, quality := .ltc, adopted := true, jammed := true, silent := 0, candidate := none
                      jams := bumpCounter s.pos.jams
                      record := { s.pos.record with position := x, quality := .ltc, jammed := true } }).setFlags
                    (if s.pos.quality = .tach ∨ s.pos.quality = .ltc then s.flags ||| Flag.tcJump.mask
                      else s.flags)))
          ∧ (¬(k.backward = backward ∧ c = next ∧ elapsed k.arrival s.time.fieldCount ≤ 3) →
            exec (.timecodeWord label backward) s
              = exec (.timecodeWord label backward)
                  (s.setPos { s.pos with candidate := none, tcRejects := bumpCounter s.pos.tcRejects }))) ∧
  ((∀ (k : Candidate) (s : State), Running s → s.pos.candidate = some k →
          4 ≤ elapsed k.arrival s.time.fieldCount →
          exec .candidateExpiry s
            = .next (s.setPos { s.pos with candidate := none, tcRejects := bumpCounter s.pos.tcRejects }))
        ∧ (∀ s : State, Running s → s.pos.quality = .ltc → s.pos.silent = 25 →
          exec .silentCountExpiry s = .next (s.setPos { s.pos with quality := .tach })))

/-! ### The deck's lines -/

/-- THREADED falls: OFFLINE with command STOP, the mark clear, a running locate failed, the lines released, the quality
NONE and the candidate gone; the chase's state and lead stay. THREADED rises: command STOP (R83, R96, R107). LOCAL rises
on a threaded deck: LOCAL with command STOP, the mark clear, a locate cancelled without LOCATE_FAIL, the lines released
and no speed word sent, as when THREADED rises in LOCAL (R79). LOCAL falls: command STOP; while the tape is unthreaded
LOCAL has no effect on the state (R84). A level that does not change has no effect; on a LIVE station, which has no deck,
a line takes its level and nothing else (R79; log 11). -/
def Obligations.ThreadedAndLocalTaken : Prop :=
  (∀ s : State, Running s → isDeck s = true →
        (s.pins.threaded = true →
            ∃ t, exec (.threadedChange false) s = .next t ∧ t.pins = { s.pins with threaded := false }
              ∧ transportState t = .offline ∧ t.tr.command = .stop ∧ t.tr.parkedMark = false ∧ t.tr.locate = none
              ∧ t.tr.punch = none ∧ t.tr.armed = s.tr.armed
              ∧ t.pos = { s.pos with quality := .none, candidate := none }
              ∧ (s.tr.locate.isSome = true → hasFlag t .locateFail = true)
              ∧ t.chase.state = s.chase.state ∧ t.chase.lead = s.chase.lead
              ∧ (s.tr.punch.isSome = true → RecordBroken s t)
              ∧ (s.tr.punch = none → t.cues = s.cues ∧ hasFlag t .cueAborted = hasFlag s .cueAborted)
              ∧ t =
                (((((s.setPins t.pins).setTr t.tr).setPos t.pos).setChase t.chase).setCues t.cues).setFlags t.flags)
          ∧ (s.pins.threaded = false → s.pins.localOn = false →
            exec (.threadedChange true) s
              = .next ((s.setPins { s.pins with threaded := true }).setTr { s.tr with command := .stop }))
          ∧ (s.pins.threaded = false → s.pins.localOn = true →
            ∃ t, exec (.threadedChange true) s = .next t ∧ t.tr.command = .stop ∧ drive t = none
              ∧ speedWordChars t = []
              ∧ t =
                (s.setPins { s.pins with threaded := true }).setTr
                  { s.tr with command := .stop, speedWord := 0, speedSent := false })) ∧
  (∀ s : State, Running s → isDeck s = true →
        (s.pins.threaded = true → s.pins.localOn = false →
            ∃ t, exec (.localChange true) s = .next t ∧ t.pins = { s.pins with localOn := true }
              ∧ transportState t = .localControl ∧ drive t = none ∧ t.tr.command = .stop ∧ t.tr.parkedMark = false
              ∧ t.tr.locate = none ∧ t.tr.punch = none ∧ hasFlag t .locateFail = hasFlag s .locateFail
              ∧ speedWordChars t = [] ∧ t.tr.armed = s.tr.armed
              ∧ (s.tr.punch.isSome = true → RecordBroken s t) ∧ (s.tr.punch = none → RecordKept s t)
              ∧ t = (((s.setPins t.pins).setTr t.tr).setCues t.cues).setFlags t.flags)
          ∧ (s.pins.threaded = true → s.pins.localOn = true →
            exec (.localChange false) s
              = .next ((s.setPins { s.pins with localOn := false }).setTr { s.tr with command := .stop }))
          ∧ (∀ level, s.pins.threaded = false →
            exec (.localChange level) s = .next (s.setPins { s.pins with localOn := level }))) ∧
  (∀ s : State, Running s →
        exec (.threadedChange s.pins.threaded) s = .next s ∧ exec (.localChange s.pins.localOn) s = .next s
          ∧ ∀ level, isDeck s = false →
            exec (.threadedChange level) s = .next (s.setPins { s.pins with threaded := level })
              ∧ exec (.localChange level) s = .next (s.setPins { s.pins with localOn := level }))

/-- The mode line and the transport state are those of the drive, which is the locate's or the command's: Tables 6.2 and
6.3, range by range, with OFFLINE, LOCAL, LOCATING and a LIVE station before them (R79, R80, R82). EOT replaces every
forward drive by STOP and keeps the command, the locate, the mark and the armed set; where the state is then not PLAY a
record is broken, the ACTIVE RECORD cue ABORTED with CUE_ABORTED, and else nothing but the line changes (R80, R85, R96,
R149). The fall of SERVO ends a lock on a deck station and changes nothing else; its rise, and its fall on a LIVE station,
change the line alone (R125, R130). The rise of RECTALLY confirms a punch-in whose timer runs, and else changes the line
alone, as its fall does (R98). That SERVO_FALL and RECTALLY_RISE bring the line's level either way, and that a LIVE
station's lines take theirs, is the model's reading (log 11). -/
def Obligations.EotServoAndRectallyTaken : Prop :=
  (∀ s : State, Running s →
        (isDeck s = false → drive s = none ∧ modeLine s = none ∧ transportState s = .stopped)
          ∧ (isDeck s = true → s.pins.threaded = false →
            drive s = some .stop ∧ modeLine s = some .stop ∧ transportState s = .offline)
          ∧ (isDeck s = true → s.pins.threaded = true → s.pins.localOn = true →
            drive s = none ∧ modeLine s = none ∧ transportState s = .localControl)
          ∧ (isDeck s = true → s.pins.threaded = true → s.pins.localOn = false →
            let asked := match s.tr.locate with | some l => l.drive | none => s.tr.command
            ∃ d, drive s = some d
              ∧ d = (match asked with
                  | .speed v => if s.pins.eot = true ∧ 0 < v then .stop else .speed v
                  | .stop => .stop)
              ∧ (d = .stop → modeLine s = some .stop)
              ∧ (∀ v, d = .speed v →
                  (-768 ≤ v → v ≤ 768 → modeLine s = some .play) ∧ (768 < v → modeLine s = some .fwdWind)
                    ∧ (v < -768 → modeLine s = some .revWind))
              ∧ (s.tr.locate.isSome = true → transportState s = .locating)
              ∧ (s.tr.locate = none → d = .stop →
                  transportState s = if s.tr.parkedMark = true then .parked else .stopped)
              ∧ ∀ v, s.tr.locate = none → d = .speed v →
                  (192 ≤ v → v ≤ 320 → transportState s = .play)
                    ∧ (-768 ≤ v → v ≤ 768 → (v < 192 ∨ 320 < v) → transportState s = .vari)
                    ∧ ((768 < v ∨ v < -768) → transportState s = .wind))) ∧
  (∀ (level : Bool) (s : State), Running s → isDeck s = true →
        ∃ t, exec (.eotChange level) s = .next t ∧ t.pins = { s.pins with eot := level }
          ∧ t.tr = { s.tr with punch := t.tr.punch }
          ∧ (s.tr.punch.isSome = true → transportState t ≠ .play → RecordBroken s t)
          ∧ (s.tr.punch = none ∨ transportState t = .play → RecordKept s t)
          ∧ (∀ f : Flag, f ≠ .cueAborted → hasFlag t f = hasFlag s f)
          ∧ (s.pins.threaded = true → s.pins.localOn = false →
              drive t = some (if level = true ∧ (wantedDrive s.tr).forward = true then .stop else wantedDrive s.tr))
          ∧ (transportState t ≠ .play → t.tr.punch = none)
          ∧ t = (((s.setPins t.pins).setTr t.tr).setCues t.cues).setFlags t.flags) ∧
  (∀ s : State, Running s →
        (isDeck s = true → s.pins.servo = true → s.chase.state = .locked →
            exec (.servoFall false) s
              = .next
                  ((s.setPins { s.pins with servo := false }).setChase
                    { s.chase with
                      state := .sync, inWindow := 0, outWindow := 0
                      record := { s.chase.record with state := .sync, ready := false } }))
          ∧ ((isDeck s = false ∨ s.chase.state ≠ .locked) →
            exec (.servoFall false) s = .next (s.setPins { s.pins with servo := false }))
          ∧ (∀ tracks n, isDeck s = true → s.pins.rectally = false →
            s.tr.punch = some { tracks := tracks, tally := .running n } →
            exec (.rectallyRise true) s
              = .next
                  ((s.setPins { s.pins with rectally := true }).setTr
                    { s.tr with punch := some { tracks := tracks, tally := .confirmed } }))) ∧
  (∀ s : State, Running s →
        exec (.servoFall true) s = .next (s.setPins { s.pins with servo := true })
          ∧ exec (.rectallyRise false) s = .next (s.setPins { s.pins with rectally := false })
          ∧ ((isDeck s = false ∨ s.pins.rectally = true
                ∨ ∀ tracks n, s.tr.punch ≠ some { tracks := tracks, tally := .running n }) →
            exec (.rectallyRise true) s = .next (s.setPins { s.pins with rectally := true }))
          ∧ ∀ level, isDeck s = false → exec (.eotChange level) s = .next (s.setPins { s.pins with eot := level }))

/-! ### Transport timers and locates -/

/-- A locate fails, with LOCATE_FAIL, STOP and the mark clear, at the 250th record in ACQUIRE with quality NONE, at the
3,000th record, and at two still records under a forward drive stopped by EOT (R85, R91, R93). TRANSPORT_FAULT at a servo
timer of 120 in PLAY without SERVO; RECORD_FAULT at a tally timer of 4, which stops, the lines staying asserted (R97,
R98). Park done becomes true where the locate was to the park frame (R120). That the servo timer's command sets its flag
between boundaries is the model's choice (log 8). -/
def Obligations.LocateLimitsAndTimers : Prop :=
  (∀ (l : Locate) (s : State), Running s → s.tr.locate = some l →
        let failed :=
          ((s.setTr { s.tr with command := .stop, locate := none, parkedMark := false }).setChase
            (if s.chase.parkFrame = some l.target then { s.chase with parkDone := true } else s.chase)).setFlags
            (s.flags ||| Flag.locateFail.mask)
        (l.phase = .acquire → l.records = 250 → s.pos.published.quality = .none →
            exec .locateAcquireLimit s = .next failed)
          ∧ (l.records = 3000 → exec .locateRecordLimit s = .next failed)
          ∧ (l.eotCount = 2 → exec .locateEotLimit s = .next failed)) ∧
  (∀ s : State, Running s →
        (s.tr.servoTimer = 120 → transportState s = .play → s.pins.servo = false →
            exec .servoTimerExpiry s = .next (s.setFlags (s.flags ||| Flag.transportFault.mask)))
          ∧ (∀ tracks, s.tr.punch = some { tracks := tracks, tally := .running 4 } →
            exec .tallyTimerExpiry s
              = .next
                  ((s.setTr { s.tr with punch := some { tracks := tracks, tally := .expired } }).setFlags
                    (s.flags ||| Flag.recordFault.mask))))

/-- At a boundary, in any order of the takers, a locate that runs while the chase is FREE and no timed cue waits acts
once, on the record just published (R91, R92). In ACQUIRE it keeps its drive at quality NONE and acts as in DRIVE on a
usable one; in DRIVE it settles within 256 micros and otherwise drives at a thirty-second of the distance, 64 to 12,800;
in SETTLE it counts records of motion 0 in a row. Still records under a forward drive at EOT are counted (R85); that the
drive judged is the one in force before the record acts, and that any other record sets the count to 0, is log 16. After
two settled records it succeeds within 512 micros, with STOP and the parked mark, and else tries again, at the fourth
attempt failing; it fails at 250 records in ACQUIRE, two still records at EOT, or 3,000 records, success coming first
(R85, R91, R92, R93). The record of a field in which a cue gave the target before the locate's turn is passed over (R89;
log 33). LOCATE_SETTLE settles so too. -/
def Obligations.LocateActsOnRecords : Prop :=
  (∀ (c : Instr) (l : Locate) (s : State), Running s → MakesBoundary c s → NoTimedCue s → s.chase.state = .free →
        s.tr.locate = some l → l.skips ≠ some (s.time.fieldCount + 1) →
        ∃ t, exec c s = .next t
          ∧ let u := locateRecord (positionBoundary (s.setTime t.time))
            t.tr.locate = u.tr.locate ∧ t.tr.command = u.tr.command ∧ t.tr.parkedMark = u.tr.parkedMark
              ∧ hasFlag t .locateFail = hasFlag u .locateFail) ∧
  (∀ (l : Locate) (s : State), s.tr.locate = some l →
        (l.skips = some s.time.fieldCount → locateBoundary s = s)
          ∧ (l.skips ≠ some s.time.fieldCount → locateBoundary s = locateRecord s)) ∧
  (∀ (l : Locate) (s : State), s.tr.locate = some l →
        let p := s.pos.published
        let dist := signedDiff (std s) (512 * l.target) p.position
        let speed : Command := .speed ((if dist < 0 then -1 else 1) * (min 12800 (max 64 (dist.natAbs / 32)) : Nat))
        let drives (m : Locate) : Prop :=
          (dist.natAbs ≤ 256 → m.phase = .settle ∧ m.settle = 0 ∧ m.drive = .stop)
            ∧ (256 < dist.natAbs → m.phase = .drive ∧ m.drive = speed)
        let forwardAtEot := s.pins.eot = true ∧ ∃ v : Int, l.drive = .speed v ∧ 0 < v
        ∃ m, locateTake s = s.setTr { s.tr with locate := some m }
          ∧ m.target = l.target ∧ m.attempts = l.attempts ∧ m.records = l.records + 1
          ∧ (forwardAtEot → m.eotCount = if p.motion = 0 then l.eotCount + 1 else 0)
          ∧ (¬forwardAtEot → m.eotCount = 0)
          ∧ (l.phase = .drive → drives m)
          ∧ (l.phase = .acquire → p.quality ≠ .none → drives m)
          ∧ (l.phase = .acquire → p.quality = .none → m.phase = .acquire ∧ m.drive = l.drive)
          ∧ (l.phase = .settle →
            m.phase = .settle ∧ m.drive = .stop ∧ m.settle = if p.motion = 0 then l.settle + 1 else 0)
          ∧ let t := locateRecord s
            let settled := m.phase = .settle ∧ 2 ≤ m.settle
            let limit := 2 ≤ m.eotCount ∨ 3000 ≤ m.records
            let failed :=
              t.tr = { s.tr with command := .stop, locate := none, parkedMark := false }
                ∧ hasFlag t .locateFail = true
            (¬settled → ¬limit → ¬(m.phase = .acquire ∧ 250 ≤ m.records) → t = locateTake s)
              ∧ (settled → dist.natAbs ≤ 512 →
                t.tr = { s.tr with command := .stop, locate := none, parkedMark := true } ∧ t.flags = s.flags)
              ∧ (settled → 512 < dist.natAbs → m.attempts < 3 → ¬limit →
                t =
                  s.setTr
                    { s.tr with
                      locate :=
                        some { m with attempts := m.attempts + 1, phase := .drive, settle := 0, drive := speed } })
              ∧ (settled → 512 < dist.natAbs → 3 ≤ m.attempts → failed)
              ∧ (¬(settled ∧ dist.natAbs ≤ 512) → limit → failed)
              ∧ (m.phase = .acquire → 250 ≤ m.records → failed)) ∧
  (∀ (l : Locate) (s : State), Running s → s.tr.locate = some l → l.phase = .settle → l.settle = 2 →
        let dist := signedDiff (std s) (512 * l.target) s.pos.published.position
        let parked := if s.chase.parkFrame = some l.target then { s.chase with parkDone := true } else s.chase
        (dist.natAbs ≤ 512 →
            exec .locateSettle s
              = .next
                  ((s.setTr { s.tr with command := .stop, locate := none, parkedMark := true }).setChase parked))
          ∧ (512 < dist.natAbs → l.attempts < 3 →
            exec .locateSettle s
              = .next
                  (s.setTr
                    { s.tr with
                      locate :=
                        some
                          { l with
                            attempts := l.attempts + 1, phase := .drive, settle := 0
                            drive :=
                              .speed
                                ((if dist < 0 then -1 else 1) * (min 12800 (max 64 (dist.natAbs / 32)) : Nat)) } }))
          ∧ (512 < dist.natAbs → l.attempts = 3 →
            exec .locateSettle s
              = .next
                  (((s.setTr { s.tr with command := .stop, locate := none, parkedMark := false }).setChase
                    parked).setFlags (s.flags ||| Flag.locateFail.mask))))

/-! ### Requests in general -/

/-- Every request taken records its tag and its result and raises the count by 1 (R70); a refused one changes that record
alone (R67), beside the receiver that took the frame. -/
def Obligations.RequestsAreRecorded : Prop :=
  (∀ (c : Instr) (r : Request) (s : State), requestOf c = some r → Taken r s →
        ∃ t result, exec c s = .next t ∧ t.req = requestRecord r result s) ∧
  (∀ (c : Instr) (r : Request) (s t : State), requestOf c = some r → Taken r s → exec c s = .next t →
        refusal t.req.lastResult = true →
        t = (received s).setReq (requestRecord r t.req.lastResult s))

/-- A request whose parameters have not its code's length, or that carries a label failing R5, a value outside its list, a
cue tag of 0 or a start index above 23, is refused with REFUSED_FORMAT and changes nothing else; no other request has that
result: the places that the request or cue does not hold, as an untimed cue's label, are not checked (R69, R135, R185).
That a cue holds its mode and a transition's direction and pattern whatever its action and kind is log 20. -/
def Obligations.FormatRefusals : Prop :=
  ∀ (c : Instr) (r : Request) (s : State), requestOf c = some r → Taken r s →
    (badFormat (std s) c r → exec c s = .next ((received s).setReq (requestRecord r .refusedFormat s)))
      ∧ (¬badFormat (std s) c r → ∃ t, exec c s = .next t ∧ t.req.lastResult ≠ .refusedFormat)

/-- TARGET comes high byte first: its second character holds stations 0 to 7, its first 8 to 15 (R184, Table 12.3). A
request whose TARGET lacks the station, and a REQUEST shorter than its header, are not taken: nothing is recorded (R66). A
request whose CODE names none of Table 5.2 is recorded with REFUSED_UNKNOWN and changes nothing else (R68). A
REPORT and a frame of an unknown KIND are taken and handed to no block, and nothing is counted (R40). -/
def Obligations.FramesThatAreNoRequest : Prop :=
  (∀ s : State,
        let n := s.straps.station.val
        let held (high low : Byte) := if n < 8 then low.getLsbD n else high.getLsbD (n - 8)
        (∀ r : Request, addressed (targetOf r) s = held r.targetHigh r.targetLow)
          ∧ (Running s → s.link.rx = .frame →
            (∀ (c : Instr) (r : Request), requestOf c = some r → foreignStandard r.source s = false →
                held r.targetHigh r.targetLow = false → exec c s = .next (received s))
              ∧ (∀ source : Byte, foreignStandard source s = false →
                (∀ payload : List Byte, payload.length < 4 →
                    exec (.requestNotAddressed source payload) s = .next (received s))
                  ∧ ∀ (high low : Byte) (rest : List Byte), held high low = false →
                    exec (.requestNotAddressed source (high :: low :: rest)) s = .next (received s)))) ∧
  (∀ (code : Byte) (r : Request) (s : State), Taken r s → code ∉ requestCodes →
        exec (.refusedUnknown code r) s
          = .next ((received s).setReq (requestRecord r .refusedUnknown s))) ∧
  (∀ (kind source : Byte) (payload : List Byte) (s : State), Running s → s.link.rx = .frame →
        foreignStandard source s = false →
        exec (.reportArrival source payload) s = .next (received s)
          ∧ exec (.unknownKindArrival kind source payload) s = .next (received s))

/-! ### Transport requests -/

/-- The checks of PLAY, SHUTTLE, LOCATE and LOCATE MARK, and with no STATE check of STOP: REFUSED_ROLE on LIVE,
REFUSED_LOCAL in LOCAL, REFUSED_STATE while the chase is enabled or OFFLINE (R68, R83, R84, R86, R182). PLAY commands
speed 256 and SHUTTLE its speed held to ±12,800, CLAMPED when it was held; both cancel a running locate and clear the
parked mark (R88). STOP disables an enabled chase, cancels a locate and takes STOP as the command, keeping the parked
mark; in OFFLINE the transport stays as it is (R83, R86 to R88). A record is broken where the state is then not PLAY, and
kept otherwise (R96, R149). -/
def Obligations.TransportCommandRequests : Prop :=
  (∀ (c : Instr) (r : Request) (s : State), Taken r s →
        ((c = .stop r ∧ r.params.length = 0) ∨ (c = .play r ∧ r.params.length = 0)
          ∨ (c = .shuttle r ∧ r.params.length = 2) ∨ (c = .locateMark r ∧ r.params.length = 0)
          ∨ (c = .locate r ∧ r.params.length = 4 ∧ labelValid (std s) (labelFrom r 0) = true)) →
        (role s = .live → exec c s = .next ((received s).setReq (requestRecord r .refusedRole s)))
          ∧ (transportState s = .localControl →
            exec c s = .next ((received s).setReq (requestRecord r .refusedLocal s)))
          ∧ (c ≠ .stop r → role s ≠ .live → transportState s ≠ .localControl →
            (s.chase.state ≠ .free ∨ transportState s = .offline) →
            exec c s = .next ((received s).setReq (requestRecord r .refusedState s)))) ∧
  (∀ (c : Instr) (r : Request) (v : Int) (result : ReqResult) (s : State), Taken r s → role s ≠ .live →
        s.pins.threaded = true → s.pins.localOn = false → s.chase.state = .free →
        ((c = .play r ∧ r.params = [] ∧ v = 256 ∧ result = .ok)
          ∨ (∃ hi lo : Byte,
              c = .shuttle r ∧ r.params = [hi, lo] ∧ v = max (-12800) (min 12800 ((hi ++ lo).toInt))
                ∧ result = (if v = (hi ++ lo).toInt then .ok else .clamped))) →
        ∃ t, exec c s = .next t ∧ t.req = requestRecord r result s
          ∧ t.tr.command = .speed v ∧ t.tr.locate = none ∧ t.tr.parkedMark = false ∧ t.tr.armed = s.tr.armed
          ∧ (transportState t ≠ .play → t.tr.punch = none)
          ∧ (s.tr.punch.isSome = true → transportState t ≠ .play → RecordBroken s t)
          ∧ (s.tr.punch = none ∨ transportState t = .play → RecordKept s t)
          ∧ t = ((((received s).setReq t.req).setTr t.tr).setCues t.cues).setFlags t.flags) ∧
  ∀ (r : Request) (s : State), Taken r s → r.params = [] → role s ≠ .live →
    transportState s ≠ .localControl →
    ∃ t, exec (.stop r) s = .next t ∧ t.req = requestRecord r .ok s
      ∧ t.chase.state = .free ∧ t.chase.offset = s.chase.offset
      ∧ (s.chase.state = .free → t.chase = s.chase) ∧ (s.chase.state ≠ .free → t.chase.lead = own s)
      ∧ (s.pins.threaded = true →
          t.tr.command = .stop ∧ t.tr.locate = none ∧ t.tr.parkedMark = s.tr.parkedMark ∧ t.tr.punch = none)
      ∧ (s.pins.threaded = false → t.tr = s.tr) ∧ t.tr.armed = s.tr.armed
      ∧ (s.pins.threaded = true → s.tr.punch.isSome = true → RecordBroken s t)
      ∧ (s.pins.threaded = false ∨ s.tr.punch = none → RecordKept s t)
      ∧ t =
        (((((received s).setReq t.req).setChase t.chase).setTr t.tr).setCues t.cues).setFlags t.flags

/-- LOCATE starts a locate to the count of its label, in ACQUIRE without a position and in DRIVE with one, or retargets
the running one, which keeps ACQUIRE and its record count; its first record is the next publication's (R89; log 33 for a
locate started); CLAMPED when the label was coerced (R8, R89, R91). A locate started breaks a record (R96). ARM replaces
the armed set of a RECORDER; it is refused with REFUSED_ROLE elsewhere and with REFUSED_STATE while a RECORD cue is ACTIVE
(R90). -/
def Obligations.LocateAndArmRequests : Prop :=
  (∀ (r : Request) (h m sec f : Byte) (s : State), Taken r s → role s ≠ .live → s.pins.threaded = true →
    s.pins.localOn = false → s.chase.state = .free → r.params = [h, m, sec, f] →
    let label : Label := { hours := h.toNat, minutes := m.toNat, seconds := sec.toNat, frames := f.toNat }
    labelValid (std s) label = true →
    ∃ t l, exec (.locate r) s = .next t ∧ t.tr.locate = some l
      ∧ t.req = requestRecord r (if labelOmitted (std s) label then .clamped else .ok) s
      ∧ l.target = requestCount (std s) label ∧ l.attempts = 0 ∧ l.settle = 0 ∧ l.eotCount = 0
      ∧ l.skips = some s.time.fieldCount
      ∧ transportState t = .locating
      ∧ (s.tr.locate = none →
          l.records = 0 ∧ t.tr.parkedMark = false ∧ t.tr.punch = none
            ∧ (s.tr.punch.isSome = true → RecordBroken s t) ∧ (s.tr.punch = none → RecordKept s t)
            ∧ (s.pos.record.quality = .none → l.phase = .acquire ∧ l.drive = .speed 256)
            ∧ (s.pos.record.quality ≠ .none → l.phase = .drive ∧ l.drive = s.tr.command))
      ∧ (∀ o, s.tr.locate = some o →
          l.records = o.records ∧ l.drive = o.drive
            ∧ l.phase = (if o.phase = .acquire then .acquire else .drive)
            ∧ t.tr.parkedMark = s.tr.parkedMark ∧ RecordKept s t)
      ∧ t.tr.command = s.tr.command ∧ t.tr.armed = s.tr.armed
      ∧ t = ((((received s).setReq t.req).setTr t.tr).setCues t.cues).setFlags t.flags) ∧
  ∀ (r : Request) (tracks : Byte) (s : State), Taken r s → r.params = [tracks] →
    (role s = .recorder → activeRecord s = none →
        exec (.arm r) s
          = .next
              (((received s).setTr { s.tr with armed := tracks.setWidth 4 }).setReq (requestRecord r .ok s)))
      ∧ (role s ≠ .recorder →
        exec (.arm r) s = .next ((received s).setReq (requestRecord r .refusedRole s)))
      ∧ (role s = .recorder → (activeRecord s).isSome = true →
        exec (.arm r) s = .next ((received s).setReq (requestRecord r .refusedState s)))

/-! ### Chase -/

/-- CHASE takes up a lead other than the station itself at the held offset: SEEK with every count 0, no command, CLAMPED
when the offset was coerced; a repetition while enabled changes nothing; an ACTIVE RECORD cue refuses it (R15, R112,
R130). The rewritten record's target, not usable, is the own position of the latest record (Table 8.3; log 18). -/
def Obligations.ChaseRequest : Prop :=
  ∀ (r : Request) (lead : Station) (minus : Bool) (h m sec f : Byte) (s : State), Taken r s →
    r.params = [BitVec.ofNat 8 lead.val, (if minus then 1 else 0), h, m, sec, f] →
    let label : Label := { hours := h.toNat, minutes := m.toNat, seconds := sec.toNat, frames := f.toNat }
    let c := requestCount (std s) label
    let o := (((if minus then -(c : Int) else (c : Int)) % ((std s).fpd : Int))).toNat
    labelValid (std s) label = true → lead ≠ own s →
    (activeRecord s = none →
        ∃ t, exec (.chase r) s = .next t
          ∧ t.req =
            requestRecord r
              (if labelOmitted (std s) label ∨ (std s).fpd / 2 < c ∨ (2 * c = (std s).fpd ∧ minus) then .clamped
                else .ok) s
          ∧ t.chase.lead = lead ∧ t.chase.offset = o ∧ t.chase.state ≠ .free
          ∧ (s.chase.state ≠ .free ∧ s.chase.lead = lead ∧ s.chase.offset = o → t.chase = s.chase)
          ∧ (¬(s.chase.state ≠ .free ∧ s.chase.lead = lead ∧ s.chase.offset = o) →
              t.chase =
                { lead := lead, offset := o, state := .seek, integral := 0, inWindow := 0, outWindow := 0
                  freewheel := 0, parkFrame := none, parkDone := false, lastError := 0
                  record :=
                    { state := .seek, target := s.pos.record.position, usable := false, error := 0
                      compare := .level, ready := false }
                  handed := s.chase.handed })
          ∧ t = ((received s).setReq t.req).setChase t.chase)
      ∧ ((activeRecord s).isSome = true →
        exec (.chase r) s = .next ((received s).setReq (requestRecord r .refusedState s)))

/-- UNCHASE, and a CHASE that names the station itself, let go of the lead: FREE with the own station as lead and the
offset kept; the deck is handed over at speed 256 from SYNC and LOCKED and with STOP otherwise; a FREE chase is left as it
is (R112, R113). -/
def Obligations.UnchaseRequest : Prop :=
  (∀ (r : Request) (minus : Bool) (h m sec f : Byte) (s : State), Taken r s → activeRecord s = none →
    r.params = [BitVec.ofNat 8 (own s).val, (if minus then 1 else 0), h, m, sec, f] →
    labelValid (std s) { hours := h.toNat, minutes := m.toNat, seconds := sec.toNat, frames := f.toNat } = true →
      exec (.chase r) s = exec (.unchase { r with params := [] }) s) ∧
  ∀ (r : Request) (s : State), Taken r s → r.params = [] →
    (s.chase.state = .free → exec (.unchase r) s = .next ((received s).setReq (requestRecord r .ok s)))
      ∧ (s.chase.state ≠ .free →
        ∃ t, exec (.unchase r) s = .next t ∧ t.req = requestRecord r .ok s
          ∧ t.chase.state = .free ∧ t.chase.lead = own s ∧ t.chase.offset = s.chase.offset
          ∧ t.chase.integral = 0 ∧ t.chase.inWindow = 0 ∧ t.chase.outWindow = 0 ∧ t.chase.freewheel = 0
          ∧ t.chase.lastError = 0 ∧ t.chase.parkFrame = none
          ∧ (deckReady s = true →
              t.tr.command
                  = (if s.chase.state = .sync ∨ s.chase.state = .locked then .speed 256 else .stop)
                ∧ t.tr.locate = none)
          ∧ (deckReady s = false → t.tr = s.tr)
          ∧ t =
            (((((received s).setReq t.req).setChase t.chase).setTr t.tr).setCues t.cues).setFlags t.flags)

/-- An evaluation reaches every boundary: in any order of the takers, with no locate running and no timed cue waiting, the
chase and the command after the boundary are those of one evaluation of the record just published, with the reference as
it stands then (R115, R124, R125, R130). One evaluation of a deck station whose lead is fresh and rolling within the
servo's range and whose error is small: the SYNC law's integral and speed, held within 32 of the lead's (R118, R122), and
the lock: the in-window count rises, at the evaluation that enters SYNC too (log 15), at an error within 64, to 10 and no
further, and is else 0, and at 10 with the reference PRESENT, SERVO and the quality LTC or TACH the chase is LOCKED with
the out-window count 0; LOCKED, the out-window count rises at an error above 128 and is else 0, and at 3, or without SERVO
or the reference, the chase is SYNC with both counts 0 (R123, R124). The lead's class, the target and the error are formed
by R12, R13, R61, R63, R115 and R118; a FREE chase answers with a record of the own position (R128, R129). A stale lead:
LOST with the counts and the integral 0 and no command; each further evaluation in LOST that finds the lead stale or
coasting raises the freewheel count, and the one that brings it to 50 commands STOP without disabling the chase (R116). -/
def Obligations.ChaseEvaluation : Prop :=
  (∀ (c : Instr) (s : State), Running s → MakesBoundary c s → NoTimedCue s → s.tr.locate = none →
    ∃ t, exec c s = .next t
      ∧ let before := if c = .missingLimitPresent then loseLock s else s
        let u := chaseBoundary (positionBoundary (before.setTime t.time))
        t.chase = u.chase ∧ t.tr.command = u.tr.command ∧ t.tr.parkedMark = u.tr.parkedMark
          ∧ (u.tr.locate = none → t.tr.locate = none)
          ∧ ∀ l, u.tr.locate = some l → ∃ m, t.tr.locate = some m ∧ m.target = l.target) ∧
  (∀ s : State,
        let x := s.peers[s.chase.lead]
        let age := (65536 + s.time.fieldCount.toNat - x.arrival.toNat) % 65536
        leadEntry s = x
          ∧ (leadClass s = .fresh ↔ x.heard = true ∧ age ≤ 4 ∧ x.quality ≠ .none)
          ∧ (leadClass s = .stale ↔ x.heard = false ∨ 8 < age)
          ∧ (chaseTarget s : Int)
            = (512 * x.frame + x.phase + x.speed * age + 512 * s.chase.offset) % (std s).day
          ∧ (∀ a b : Nat,
              let d := signedDiff (std s) a b
              2 * d ≤ (std s).day ∧ -((std s).day : Int) < 2 * d ∧ ((std s).day : Int) ∣ d - ((a : Int) - b))
          ∧ (s.chase.state = .free →
              ∃ r, chaseBoundary s = s.setChase { s.chase with record := r, handed := r }
                ∧ r.state = .free ∧ r.target = s.pos.published.position ∧ r.error = 0 ∧ r.compare = .level
                ∧ (r.usable = true ↔ s.pos.published.quality ≠ .none)
                ∧ (r.ready = true ↔ s.time.refState = .present
                    ∧ (role s = .live ∨ (transportState s = .play ∧ s.pins.servo = true))))) ∧
  (∀ s : State, isDeck s = true → s.chase.state ≠ .free → leadClass s = .fresh →
        s.pos.published.quality ≠ .none → leadParked s = false →
        let v := (leadEntry s).speed
        let e := signedDiff (std s) (chaseTarget s) s.pos.published.position
        let a := max (-16384) (min 16384 (s.chase.integral + e))
        e.natAbs ≤ 65536 → -12832 ≤ v → v ≤ 12832 →
        let t := chaseBoundary s
        let within := if e.natAbs ≤ 64 then min 10 (s.chase.inWindow + 1) else 0
        let beyond := if 128 < e.natAbs then s.chase.outWindow + 1 else 0
        let sound := s.time.refState = .present ∧ s.pins.servo = true
        let lock := within = 10 ∧ sound ∧ (s.pos.published.quality = .ltc ∨ s.pos.published.quality = .tach)
        t.chase.integral = a ∧ t.chase.lastError = e
          ∧ (s.chase.state ≠ .locked →
              t.chase.inWindow = within ∧ (lock → t.chase.state = .locked ∧ t.chase.outWindow = 0)
                ∧ (¬lock → t.chase.state = .sync ∧ t.chase.outWindow = s.chase.outWindow))
          ∧ (s.chase.state = .locked →
              (beyond < 3 → sound →
                  t.chase.state = .locked ∧ t.chase.outWindow = beyond ∧ t.chase.inWindow = s.chase.inWindow)
                ∧ ((3 ≤ beyond ∨ ¬sound) →
                  t.chase.state = .sync ∧ t.chase.outWindow = 0 ∧ t.chase.inWindow = 0))
          ∧ t.chase.record.state = t.chase.state ∧ (t.chase.record.ready = true ↔ t.chase.state = .locked)
          ∧ (t.chase.record.compare = .ahead ↔ e < -64) ∧ (t.chase.record.compare = .behind ↔ 64 < e)
          ∧ (deckReady s = false → t.tr = s.tr)
          ∧ (deckReady s = true → t.tr.locate = none ∧ ∃ w : Int, t.tr.command = .speed w ∧ v - 32 ≤ w ∧ w ≤ v + 32
              ∧ (v - 32 ≤ v + e / 8 + a / 64 → v + e / 8 + a / 64 ≤ v + 32 → -12800 ≤ v + e / 8 + a / 64 →
                  v + e / 8 + a / 64 ≤ 12800 → w = v + e / 8 + a / 64))
          ∧ t.chase.handed = t.chase.record ∧ t.chase.record.target = chaseTarget s ∧ t.chase.record.usable = true
          ∧ t.chase.record.error = e) ∧
  (∀ s : State, isDeck s = true → s.chase.state ≠ .free →
        (leadClass s = .stale ∨ (leadClass s = .coasting ∧ s.chase.state = .lost)) →
        let t := chaseBoundary s
        t.chase.state = .lost ∧ t.chase.lead = s.chase.lead ∧ t.chase.record.usable = false
          ∧ (s.chase.state ≠ .lost →
              t.chase.integral = 0 ∧ t.chase.inWindow = 0 ∧ t.chase.outWindow = 0 ∧ t.chase.freewheel = 0
                ∧ t.tr = s.tr)
          ∧ (s.chase.state = .lost → s.chase.freewheel < 49 →
              t.chase.freewheel = s.chase.freewheel + 1 ∧ t.tr = s.tr)
          ∧ (s.chase.state = .lost → s.chase.freewheel = 49 → deckReady s = true →
              t.chase.freewheel = 50 ∧ t.tr.command = .stop ∧ t.tr.locate = none)
          ∧ (s.chase.state = .lost → s.chase.freewheel = 50 → t.chase.freewheel = 50 ∧ t.tr = s.tr))

/-- One evaluation in the other cases of an enabled chase. A fresh lead and the own quality NONE: SEEK at play speed with
last error 0 (R119). A parked lead: PARK, with a locate to the frame of the target given unless one runs there or the last
one to it has ended (R120; log 28); a locate so given may take the same boundary's publication (log 33). An error above
65,536 micros or a lead out of the servo's range: SEEK at the lead's speed and a sixteenth of the error (R121). In each
the counts and the integral are 0; no command is kept in OFFLINE and LOCAL (R87). A coasting lead out of LOST: no command,
a lock lost, the integral kept, the target not usable (R117). A LIVE station gives no command: LOCKED or SYNC by the
reference on a fresh lead, SYNC on a coasting one, LOST on a stale one (R126); that a coasting lead takes it out of LOST,
which R116 says of no other station, is the model's reading (log 29). -/
def Obligations.ParkSeekCoastAndLive : Prop :=
  (∀ s : State, isDeck s = true → s.chase.state ≠ .free → leadClass s = .fresh →
    let g := chaseTarget s / 512
    let v := (leadEntry s).speed
    let e := signedDiff (std s) (chaseTarget s) s.pos.published.position
    let parked :=
      v = 0
        ∧ ((leadEntry s).transport = .stopped ∨ (leadEntry s).transport = .parked
          ∨ (leadEntry s).transport = .offline ∨ (leadEntry s).transport = .localControl)
    let t := chaseBoundary s
    let entered (state : ChaseState) (error : Int) : Prop :=
      t.chase.state = state ∧ t.chase.lead = s.chase.lead ∧ t.chase.offset = s.chase.offset ∧ t.chase.integral = 0
        ∧ t.chase.inWindow = 0 ∧ t.chase.outWindow = 0 ∧ t.chase.lastError = error
        ∧ t.chase.handed = t.chase.record ∧ t.chase.record.state = state ∧ t.chase.record.usable = true
        ∧ t.chase.record.target = chaseTarget s ∧ t.chase.record.error = error ∧ t.chase.record.ready = false
    let commanded (w : Int) : Prop :=
      t.chase.parkFrame = none ∧ t.chase.parkDone = false
        ∧ (deckReady s = true → t.tr.command = .speed w ∧ t.tr.locate = none ∧ t.tr.parkedMark = false)
        ∧ (deckReady s = false → t.tr = s.tr)
    (s.pos.published.quality = .none → entered .seek 0 ∧ commanded 256)
      ∧ (s.pos.published.quality ≠ .none → ¬parked → (65536 < e.natAbs ∨ v < -12832 ∨ 12832 < v) →
          entered .seek e
            ∧ commanded (max (-12800) (min 12800 (v + (if e < 0 then -1 else if e = 0 then 0 else 1)
                * (min 12800 (e.natAbs / 16) : Nat)))))
      ∧ (s.pos.published.quality ≠ .none → parked →
          entered .park e ∧ t.chase.parkFrame = some g ∧ t.tr.command = s.tr.command
            ∧ (∀ l, s.tr.locate = some l → l.target = g → t.tr = s.tr ∧ t.chase.parkDone = false)
            ∧ (∀ l, s.tr.locate = some l → l.target ≠ g → deckReady s = true →
                t.chase.parkDone = false
                  ∧ t.tr.locate =
                    some
                      { l with
                        target := g, attempts := 0, settle := 0, eotCount := 0, skips := none
                        phase := if l.phase = .acquire then .acquire else .drive })
            ∧ (s.tr.locate = none → s.chase.parkFrame = some g → s.chase.parkDone = true →
                t.tr = s.tr ∧ t.chase.parkDone = true)
            ∧ (s.tr.locate = none → ¬(s.chase.parkFrame = some g ∧ s.chase.parkDone = true) →
                t.chase.parkDone = false ∧ (deckReady s = false → t.tr = s.tr)
                  ∧ (deckReady s = true →
                    ∃ l, t.tr.locate = some l ∧ l.target = g ∧ l.records = 0 ∧ l.attempts = 0
                      ∧ l.skips = none
                      ∧ l.phase = (if s.pos.record.quality = .none then .acquire else .drive)
                      ∧ t.tr.punch = none)))) ∧
  (∀ s : State, isDeck s = true → s.chase.state ≠ .free → s.chase.state ≠ .lost → leadClass s = .coasting →
    let t := chaseBoundary s
    t.tr = s.tr
      ∧ t.chase =
        { s.chase with
          state := if s.chase.state = .locked then .sync else s.chase.state, inWindow := 0, outWindow := 0
          record := t.chase.record, handed := t.chase.record }
      ∧ t.chase.record.state = t.chase.state ∧ t.chase.record.usable = false ∧ t.chase.record.ready = false
      ∧ t.chase.record.target = s.pos.published.position ∧ t.chase.record.error = s.chase.lastError) ∧
  (∀ s : State, role s = .live → s.chase.state ≠ .free →
    let t := chaseBoundary s
    t.tr = s.tr ∧ t.chase.lead = s.chase.lead ∧ t.chase.offset = s.chase.offset
      ∧ t.chase.handed = t.chase.record ∧ t.chase.record.state = t.chase.state
      ∧ (t.chase.record.ready = true ↔ t.chase.state = .locked)
      ∧ (leadClass s = .fresh →
          t.chase.state = (if s.time.refState = .present then .locked else .sync) ∧ t.chase.lastError = 0
            ∧ t.chase.record.target = chaseTarget s ∧ t.chase.record.usable = true)
      ∧ (leadClass s ≠ .fresh →
          t.chase.record.usable = false ∧ t.chase.record.target = s.pos.published.position)
      ∧ (leadClass s = .coasting → t.chase.state = .sync)
      ∧ (leadClass s = .stale →
          t.chase.state = .lost
            ∧ t.chase.freewheel
              = (if s.chase.state = .lost then (if s.chase.freewheel < 50 then s.chase.freewheel + 1
                  else s.chase.freewheel) else 0)))

/-- The chase's own limits: at a freewheel count of 50 in LOST the servo commands STOP and stays enabled; an in-window
count of 10 under the lock conditions gives LOCKED; an out-window count of 3 gives SYNC (R116, R123, R124). That the
latest record follows such a change is the model's choice (log 27). -/
def Obligations.ChaseLimits : Prop :=
  ∀ s : State, Running s → isDeck s = true →
    (s.chase.state = .lost → s.chase.freewheel = 50 → deckReady s = true →
        ∃ t, exec .freewheelExpiry s = .next t ∧ t.tr.command = .stop ∧ t.tr.locate = none
          ∧ t.chase = s.chase ∧ OnlyTransportCuesFlags s t)
      ∧ (s.chase.state = .sync → s.chase.inWindow = 10 → s.time.refState = .present → s.pins.servo = true →
        (s.pos.published.quality = .ltc ∨ s.pos.published.quality = .tach) → leadClass s = .fresh →
        ∃ t, exec .chaseLock s = .next t ∧ t.chase.state = .locked ∧ t.chase.outWindow = 0
          ∧ t.chase.record.ready = true ∧ t = s.setChase t.chase)
      ∧ (s.chase.state = .locked → s.chase.outWindow = 3 →
        ∃ t, exec .outWindowExpiry s = .next t ∧ t.chase.state = .sync ∧ t.chase.inWindow = 0
          ∧ t.chase.outWindow = 0 ∧ t.chase.record.ready = false ∧ t = s.setChase t.chase)

/-! ### Cues -/

/-- CUE LOAD of a well-formed record that passes its checks: the new cue is in the list, WAITING, and no other cue of its
tag; a cue of its tag, which is then not ACTIVE, leaves for it and no other does; without one, every cue stays in a list
of fewer than 24, and of a full list one finished cue leaves, the one whose finish is oldest and among equals the nearest
to the head (R132, R136). The cue is what the 21 bytes say: tag, trigger, mode, required set, and the action with its
parameters, with the values that are coerced on the way, which make the result CLAMPED (R8, R132, R135, R184, Tables 9.4,
12.5, 12.6); a record that fails FORMAT gives none (R69, R135; log 20). The checks, in their order, each leaving all but
the request record as it is: REFUSED_ROLE for a RECORD cue on no RECORDER and a TRANSPORT cue on LIVE; REFUSED_FULL where
the load would add a cue to a list of 24 with none finished; REFUSED_TAG where an ACTIVE cue holds the tag (R135, R136). -/
def Obligations.CueLoadRequest : Prop :=
  (∀ (r : Request) (c : Coerced Cue) (s : State), Taken r s → readCue (std s) r.params = some c →
    loadRefusal c.value s = none →
    ∃ t, exec (.cueLoad r) s = .next t
      ∧ t.req = requestRecord r (if c.coerced then .clamped else .ok) s
      ∧ c.value ∈ t.cues.list ∧ c.value.state = .waiting
      ∧ (∀ d ∈ s.cues.list, d.tag = c.value.tag → d.state ≠ .active)
      ∧ (∀ d ∈ t.cues.list, d.tag = c.value.tag → d = c.value)
      ∧ (∀ d ∈ t.cues.list, d.tag ≠ c.value.tag → d ∈ s.cues.list)
      ∧ ((s.cues.list.length < 24 ∨ ∃ d ∈ s.cues.list, d.tag = c.value.tag) →
          ∀ d ∈ s.cues.list, d.tag ≠ c.value.tag → d ∈ t.cues.list)
      ∧ (24 ≤ s.cues.list.length → (∀ d ∈ s.cues.list, d.tag ≠ c.value.tag) →
          ∃ pre g post, s.cues.list = pre ++ g :: post ∧ g.finished = true
            ∧ (∀ d ∈ s.cues.list, d.tag ≠ g.tag → d ∈ t.cues.list) ∧ (∀ d ∈ t.cues.list, d.tag ≠ g.tag)
            ∧ ∀ y, g.finish = some y →
                (∀ d ∈ s.cues.list, ∀ x, d.finished = true → d.finish = some x →
                    elapsed x s.time.fieldCount ≤ elapsed y s.time.fieldCount)
                  ∧ ∀ d ∈ pre, ∀ x, d.finished = true → d.finish = some x →
                    elapsed x s.time.fieldCount < elapsed y s.time.fieldCount)
      ∧ t.cues.ownSample = s.cues.ownSample ∧ t.cues.leadSample = s.cues.leadSample
      ∧ t = ((received s).setReq t.req).setCues t.cues) ∧
  (∀ (r : Request) (c : Coerced Cue) (s : State), Taken r s → readCue (std s) r.params = some c →
    let foreign :=
      (role s ≠ .recorder ∧ ∃ tracks length, c.value.action = .record tracks length)
        ∨ (role s = .live ∧ ∃ command, c.value.action = .transport command)
    let full :=
      24 ≤ s.cues.list.length ∧ (∀ d ∈ s.cues.list, d.state ≠ .done ∧ d.state ≠ .aborted)
        ∧ ∀ d ∈ s.cues.list, d.tag = c.value.tag → d.state = .active
    let held := ∃ d ∈ s.cues.list, d.tag = c.value.tag ∧ d.state = .active
    (foreign → exec (.cueLoad r) s = .next ((received s).setReq (requestRecord r .refusedRole s)))
      ∧ (¬foreign → full → exec (.cueLoad r) s = .next ((received s).setReq (requestRecord r .refusedFull s)))
      ∧ (¬foreign → ¬full → held →
        exec (.cueLoad r) s = .next ((received s).setReq (requestRecord r .refusedTag s)))
      ∧ (¬foreign → ¬full → ¬held → loadRefusal c.value s = none)) ∧
  (∀ (x : Standard) (r : Request), r.params.length = 21 →
    (badCue x r → readCue x r.params = none)
      ∧ (¬badCue x r →
        let word (i : Nat) : Nat := 256 * paramAt r i + paramAt r (i + 1)
        ∃ q coerced, readCue x r.params = some { value := q, coerced := coerced }
          ∧ q.tag.toNat = paramAt r 0 ∧ (q.hard = true ↔ paramAt r 6 = 0) ∧ q.required.toNat = word 7
          ∧ q.state = .waiting ∧ q.slipped = false ∧ q.unpaired = false ∧ q.rehearsal = false ∧ q.finish = none
          ∧ q.remaining = 0 ∧ q.notReady = 0
          ∧ [.own (requestCount x (labelFrom r 2)), .lead (requestCount x (labelFrom r 2)), .gpi 0, .gpi 1, .gpi 2,
              .gpi 3, .manual][paramAt r 1]? = some q.trigger
          ∧ (paramAt r 9 = 0 → q.action = .record (BitVec.ofNat 4 (paramAt r 10)) (max 1 (word 11)))
          ∧ (paramAt r 9 = 1 →
            ∃ p, q.action = .transition p ∧ [TransKind.dissolve, .wipe][paramAt r 10]? = some p.kind
              ∧ [Direction.inward, .outward][paramAt r 11]? = some p.direction
              ∧ p.target = min 1024 (word 12) ∧ p.duration = min 999 (word 14)
              ∧ [Curve.linear, .smooth, .fast][paramAt r 16]? = some p.curve
              ∧ [Pattern.left, .top, .box, .split, .sparkle][paramAt r 17]? = some p.pattern
              ∧ p.softness = paramAt r 18 % 64
              ∧ (p.partner = none ↔ paramAt r 19 / 16 % 2 = 0)
              ∧ (∀ st, p.partner = some st → st.val = paramAt r 19 % 16)
              ∧ [AudioLaw.linear, .power, .cut][paramAt r 20]? = some p.law)
          ∧ (paramAt r 9 = 2 →
            ∃ command, q.action = .transport command
              ∧ [.stop, .play, .locate (requestCount x (labelFrom r 11))][paramAt r 10]? = some command)
          ∧ (paramAt r 9 = 3 →
            ∃ line : GpiLine, line.val + 1 = paramAt r 10 ∧ q.action = .gpiPulse line (max 1 (paramAt r 11)))
          ∧ (paramAt r 9 = 4 → q.action = .mark)
          ∧ (coerced = true ↔
            (paramAt r 1 ≤ 1 ∧ labelOmitted x (labelFrom r 2) = true)
              ∨ (paramAt r 9 = 0 ∧ word 11 = 0) ∨ (paramAt r 9 = 1 ∧ (1024 < word 12 ∨ 999 < word 14))
              ∨ (paramAt r 9 = 2 ∧ paramAt r 10 = 2 ∧ labelOmitted x (labelFrom r 11) = true)
              ∨ (paramAt r 9 = 3 ∧ paramAt r 11 = 0))))

/-- CUE DROP removes the cue of its tag unless it is ACTIVE (REFUSED_STATE) or absent (REFUSED_TAG); CUE CLEAR keeps the
ACTIVE cues alone (R137). -/
def Obligations.CueDropAndClearRequests : Prop :=
  ∀ (r : Request) (s : State), Taken r s →
    (∀ tag c, r.params = [tag] → findCue tag s = some c →
        (c.state ≠ .active →
            exec (.cueDrop r) s
              = .next
                  (((received s).setCues
                    { s.cues with list := s.cues.list.filter fun d => d.tag != tag }).setReq
                    (requestRecord r .ok s)))
          ∧ (c.state = .active →
            exec (.cueDrop r) s = .next ((received s).setReq (requestRecord r .refusedState s))))
      ∧ (∀ tag, r.params = [tag] → findCue tag s = none →
        exec (.cueDrop r) s = .next ((received s).setReq (requestRecord r .refusedTag s)))
      ∧ (r.params = [] →
        exec (.cueClear r) s
          = .next
              (((received s).setCues
                { s.cues with list := s.cues.list.filter fun d => d.state = .active }).setReq
                (requestRecord r .ok s)))

/-- FIRE of a WAITING cue of action MARK or GPI PULSE makes its action and leaves the cue DONE; of a RECORD cue that is
ready, on a playing RECORDER with none recording, punches in the cue's armed tracks; without a WAITING cue it is refused
with REFUSED_STATE (R94, R138, R144, R145, R151, R179, R180). In every case FIRE fires the cue by the one operation that a
GPI edge uses as well. A cue is ready when own-readiness holds and every other station of its required set is heard fresh
and READY; own-readiness is a lock, or with the chase FREE the reference PRESENT and, but on LIVE, PLAY with SERVO (R128,
R143). -/
def Obligations.FireRequest : Prop :=
  (∀ s : State,
        (ownReady s = true ↔ s.chase.state = .locked
            ∨ (s.chase.state = .free ∧ s.time.refState = .present
              ∧ (role s = .live ∨ (transportState s = .play ∧ s.pins.servo = true))))
          ∧ ∀ (ownOk : Bool) (required : Word16),
            cueReady ownOk required s = true
              ↔ ownOk = true ∧ ∀ st : Station, required.getLsbD st.val = true → st ≠ own s →
                let e := s.peers[st]
                e.heard = true ∧ e.ready = true ∧ (65536 + s.time.fieldCount.toNat - e.arrival.toNat) % 65536 ≤ 4) ∧
  ∀ (r : Request) (tag : Byte) (s : State), Taken r s → r.params = [tag] →
    (waitingCue tag s = none →
        exec (.fire r) s = .next ((received s).setReq (requestRecord r .refusedState s)))
      ∧ (∀ c, waitingCue tag s = some c →
        let finished :=
          s.cues.list.map fun d => if d.tag = tag ∧ d.state = .waiting then
            { d with state := .done, finish := some s.time.fieldCount } else d
        exec (.fire r) s
            = .next ((fireCue (ownReady s) c (received s)).setReq (requestRecord r .ok s))
          ∧ (∀ line width, c.action = .gpiPulse line width →
            exec (.fire r) s
              = .next
                  ((((received s).setCues { s.cues with list := finished }).setGpi
                    { s.gpi with
                      outputs :=
                        s.gpi.outputs.set line
                          { s.gpi.outputs[line] with
                            pulse := some { count := width, start := s.time.fieldCount } } }).setReq
                    (requestRecord r .ok s)))
          ∧ (c.action = .mark → s.pos.record.quality ≠ .none → s.marks.length < 8 →
            exec (.fire r) s
              = .next
                  ((((received s).setCues { s.cues with list := finished }).setMarks
                    ({ frame := s.pos.record.position / 512, phase := s.pos.record.position % 512
                       quality := s.pos.record.quality, origin := .cue } :: s.marks)).setReq
                    (requestRecord r .ok s)))
          ∧ (∀ tracks length, c.action = .record tracks length → cueReady (ownReady s) c.required s = true →
            transportState s = .play → tracks &&& s.tr.armed ≠ 0 → activeRecord s = none →
            ∃ t, exec (.fire r) s = .next t ∧ t.req = requestRecord r .ok s
              ∧ editLines t = tracks &&& s.tr.armed
              ∧ (∃ d ∈ t.cues.list,
                  d.tag = tag ∧ d.state = .active ∧ d.remaining = 2 * length ∧ d.notReady = 0)
              ∧ t = ((((received s).setReq t.req).setTr t.tr).setCues t.cues)))

/-- The fire of a TRANSPORT cue: the cue is DONE, an enabled chase is disabled, and STOP, speed 256 or a locate to its
frame is given, which OFFLINE and LOCAL do not keep; a recording that it takes out of PLAY is broken (R86, R87, R89, R91,
R96, R151); the first record of the locate is the next publication's, by R89 for a retarget and by log 33 for a locate
started. The fire of a RECORD cue: with no armed track of its own a rehearsal, with no line asserted; out of PLAY it is
broken at once; while another RECORD cue is ACTIVE it is a butt edit, the earlier cue DONE and, where that one records,
the lines handed over to the new set, or released when that is empty (R94, R95, R145, R146). Not ready, a HARD cue is
aborted and the earlier cue runs on, a SOFT one fires SLIPPED with SYNC_SLIP (R144, R146). -/
def Obligations.TransportAndRecordCuesFire : Prop :=
  (∀ (r : Request) (tag : Byte) (c : Cue) (command : CueCommand) (s : State), Taken r s → r.params = [tag] →
    waitingCue tag s = some c → c.action = .transport command →
    ∃ t, exec (.fire r) s = .next t ∧ t.req = requestRecord r .ok s ∧ HoldsTag t tag .done
      ∧ t.chase.state = .free ∧ t.chase.offset = s.chase.offset ∧ (s.chase.state = .free → t.chase = s.chase)
      ∧ (deckReady s = false → t.tr = s.tr)
      ∧ (deckReady s = true →
          (command = .stop → t.tr.command = .stop ∧ t.tr.locate = none ∧ t.tr.parkedMark = s.tr.parkedMark)
            ∧ (command = .play → t.tr.command = .speed 256 ∧ t.tr.locate = none ∧ t.tr.parkedMark = false)
            ∧ (∀ f, command = .locate f →
                ∃ l, t.tr.locate = some l ∧ l.target = f ∧ l.attempts = 0 ∧ l.settle = 0 ∧ l.eotCount = 0
                  ∧ l.skips = some s.time.fieldCount
                  ∧ t.tr.command = s.tr.command ∧ t.tr.armed = s.tr.armed
                  ∧ (s.tr.locate = none →
                      l.records = 0 ∧ t.tr.parkedMark = false
                        ∧ (s.pos.record.quality = .none → l.phase = .acquire ∧ l.drive = .speed 256)
                        ∧ (s.pos.record.quality ≠ .none → l.phase = .drive ∧ l.drive = s.tr.command))
                  ∧ (∀ o, s.tr.locate = some o →
                      l.records = o.records ∧ l.drive = o.drive
                        ∧ l.phase = (if o.phase = .acquire then .acquire else .drive))))
      ∧ (deckReady s = true → (command = .stop ∨ s.tr.locate = none ∧ ∃ f, command = .locate f) →
          t.tr.punch = none
            ∧ (s.tr.punch.isSome = true → (activeRecord s).isSome = true →
                hasFlag t .cueAborted = true ∧ activeRecord t = none))
      ∧ t = (((((received s).setReq t.req).setChase t.chase).setTr t.tr).setCues t.cues).setFlags t.flags) ∧
  (∀ (r : Request) (tag : Byte) (c : Cue) (tracks : Tracks) (length : Nat) (s : State), Taken r s →
    r.params = [tag] → waitingCue tag s = some c → c.action = .record tracks length →
    let ready := cueReady (ownReady s) c.required s
    let fires := ready = true ∨ c.hard = false
    let own := tracks &&& s.tr.armed
    ∃ t, exec (.fire r) s = .next t ∧ t.req = requestRecord r .ok s
      ∧ t = ((((received s).setReq t.req).setTr t.tr).setCues t.cues).setFlags t.flags
      ∧ (ready = false → c.hard = true →
          t.tr = s.tr ∧ hasFlag t .cueAborted = true ∧ HoldsTag t tag .aborted
            ∧ ∀ d ∈ s.cues.list, d.tag ≠ tag → d ∈ t.cues.list)
      ∧ (fires → ∀ d, activeRecord s = some d →
          { d with state := .done, finish := some s.time.fieldCount } ∈ t.cues.list)
      ∧ (fires → own = 0 → t.tr = { s.tr with punch := none }
          ∧ ∃ d ∈ t.cues.list, d.tag = tag ∧ d.state = .active ∧ d.rehearsal = true ∧ d.remaining = 2 * length)
      ∧ (fires → own ≠ 0 → (s.tr.punch.isSome = true ∨ transportState s = .play) →
          t.tr =
              { s.tr with
                punch := some { tracks := own, tally := if s.pins.rectally then .confirmed else .running 0 } }
            ∧ ∃ d ∈ t.cues.list, d.tag = tag ∧ d.state = .active ∧ d.remaining = 2 * length ∧ d.notReady = 0)
      ∧ (fires → own ≠ 0 → s.tr.punch = none → transportState s ≠ .play →
          t.tr = s.tr ∧ hasFlag t .cueAborted = true ∧ HoldsTag t tag .aborted)
      ∧ (ready = false → c.hard = false →
          hasFlag t .syncSlip = true ∧ ∃ d ∈ t.cues.list, d.tag = tag ∧ d.slipped = true))

/-- The fire of a TRANSITION cue that is ready, or SOFT, starts its context with k 0, with its values for k = 0, the cue's
law held and no partner or the partner's update count noted, from the level as it then stands: a context that exists is
first completed, its target the level and its cue DONE. With a duration of 0 it completes at once at its end values and
the cue is DONE. A SOFT cue that is not ready fires SLIPPED with SYNC_SLIP; a HARD one goes to ABORTED with CUE_ABORTED,
starts none and disturbs none (R144, R150, R155, R158, R160, R161, R166, R167). -/
def Obligations.TransitionCueFires : Prop :=
  ∀ (r : Request) (c : Cue) (p : TransParams) (s : State), Taken r s → r.params = [c.tag] →
    waitingCue c.tag s = some c → c.action = .transition p →
    let ready := cueReady (ownReady s) c.required s = true
    let fires := ready ∨ c.hard = false
    let start := match s.fader.context with | some o => o.params.target | none => s.fader.level
    let grows := p.kind = .wipe ∧ p.direction = .inward
    ∃ t, exec (.fire r) s = .next t ∧ t.req = requestRecord r .ok s
      ∧ t = (((((received s).setReq t.req).setFader t.fader).setCues t.cues).setMix t.mix).setFlags t.flags
      ∧ (ready → t.flags = s.flags)
      ∧ (¬fires →
          t.fader = s.fader ∧ t.mix = s.mix ∧ hasFlag t .cueAborted = true ∧ HoldsTag t c.tag .aborted
            ∧ ∀ d ∈ s.cues.list, d.tag ≠ c.tag → d ∈ t.cues.list)
      ∧ (fires → ¬ready → hasFlag t .syncSlip = true ∧ ∃ d ∈ t.cues.list, d.tag = c.tag ∧ d.slipped = true)
      ∧ (fires → ∀ o, s.fader.context = some o → o.tag ≠ 0 → ∀ d ∈ s.cues.list, d.transiting o.tag = true →
          { d with state := .done, finish := some s.time.fieldCount } ∈ t.cues.list)
      ∧ (fires → 0 < p.duration →
          (∃ d ∈ t.cues.list, d.tag = c.tag ∧ d.state = .active)
            ∧ ∃ k, t.fader.context = some k
              ∧ k.tag = c.tag ∧ k.k = 0 ∧ k.fromLevel = start ∧ k.start = s.time.fieldCount ∧ k.hard = c.hard
              ∧ k.params = { p with partner := if p.partner = some (own s) then none else p.partner }
              ∧ k.seed = sparkleSeed c.tag
              ∧ (k.params.partner = none → k.pair = .paired)
              ∧ (∀ st, k.params.partner = some st → k.pair = .pending ∧ k.noted = s.peers[st].updates)
              ∧ t.fader =
                { level := if grows then p.target else start
                  gain := audioGain p.law (if grows then 0 else start), law := p.law
                  windowClass := k.windowClass, invert := k.invert, softness := k.softness, context := some k })
      ∧ (fires → p.duration = 0 →
          t.fader =
              { level := p.target, gain := audioGain p.law p.target, law := p.law, windowClass := .full
                invert := false, softness := 0, context := none }
            ∧ (c.tag ≠ 0 → HoldsTag t c.tag .done))

/-- ABORT sends every ACTIVE cue to ABORTED with its finish field count, punches out, cuts the transition of an ACTIVE cue
at its end values, the target's gain by the context's law among them, touches no other cue, and sets CUE_ABORTED; with no
ACTIVE cue it changes nothing (R139, R158). -/
def Obligations.AbortRequest : Prop :=
  ∀ (r : Request) (s : State), Taken r s → r.params = [] →
    ((∀ c ∈ s.cues.list, c.state ≠ .active) →
        exec (.abort r) s = .next ((received s).setReq (requestRecord r .ok s)))
      ∧ ((∃ c ∈ s.cues.list, c.state = .active) →
        ∃ t, exec (.abort r) s = .next t ∧ t.req = requestRecord r .ok s ∧ t.tr = { s.tr with punch := none }
          ∧ t.cues.list = s.cues.list.map (fun c => if c.state = .active then
              { c with state := .aborted, finish := some s.time.fieldCount } else c)
          ∧ hasFlag t .cueAborted = true
          ∧ ((∃ c ∈ s.cues.list, c.state = .active ∧ c.isTransition = true) → ∀ k, s.fader.context = some k →
              t.fader =
                { level := k.params.target, gain := audioGain k.params.law k.params.target, law := s.fader.law
                  windowClass := .full, invert := false, softness := 0, context := none })
          ∧ ((∀ c ∈ s.cues.list, c.state = .active → c.isTransition = false) → t.fader = s.fader)
          ∧ t =
            ((((((received s).setReq t.req).setTr t.tr).setCues t.cues).setFader t.fader).setMix t.mix).setFlags
              t.flags)

/-- The end of a RECORD cue: at a remaining count of 0 it goes to DONE and punches out (R147); at a not-ready count of 3 a
HARD cue goes to ABORTED, punches out and sets CUE_ABORTED, and a SOFT one is SLIPPED and sets SYNC_SLIP (R148). -/
def Obligations.RecordCueLimits : Prop :=
  ∀ (c : Cue) (s : State), Running s → activeRecord s = some c →
    (c.remaining = 0 →
        exec .recordLengthEnd s
          = .next
              ((s.setCues
                { s.cues with
                  list :=
                    s.cues.list.map fun d => if d.recording then
                      { d with state := .done, finish := some s.time.fieldCount } else d }).setTr
                { s.tr with punch := none }))
      ∧ (c.notReady = 3 → c.hard = true →
        exec .notReadyLimit s
          = .next
              (((s.setCues
                { s.cues with
                  list :=
                    s.cues.list.map fun d => if d.recording then
                      { d with state := .aborted, finish := some s.time.fieldCount } else d }).setFlags
                (s.flags ||| Flag.cueAborted.mask)).setTr { s.tr with punch := none }))
      ∧ (c.notReady = 3 → c.hard = false →
        exec .notReadyLimit s
          = .next
              ((s.setCues
                { s.cues with
                  list := s.cues.list.map fun d => if d.recording then { d with slipped := true } else d }).setFlags
                (s.flags ||| Flag.syncSlip.mask)))

/-! ### Fader and mix port -/

/-- FADER: its level and fields held to 1,024 and 999. A FADER context that exists is completed first, at its end values
and with no report to a cue. With fields above 0 a context of tag 0 then starts from the level as it stands; with fields 0
the level sent is reached at once and no context remains; refused with REFUSED_STATE while a cue's context exists (R156,
R158, R167). The pattern the context holds is a free value (log 22). -/
def Obligations.FaderRequest : Prop :=
  ∀ (r : Request) (a b c d : Byte) (s : State), Taken r s → r.params = [a, b, c, d] →
    let level := min 1024 (256 * a.toNat + b.toNat)
    let fields := min 999 (256 * c.toNat + d.toNat)
    let result := if 1024 < 256 * a.toNat + b.toNat ∨ 999 < 256 * c.toNat + d.toNat then ReqResult.clamped else .ok
    let start := match s.fader.context with | some old => old.params.target | none => s.fader.level
    ((∀ old, s.fader.context = some old → old.tag = 0) →
        ∃ t, exec (.fader r) s = .next t ∧ t.req = requestRecord r result s ∧ t.cues = s.cues
          ∧ t = ((((received s).setReq t.req).setFader t.fader).setMix t.mix).setChoices t.choices
          ∧ t.fader.law = .linear ∧ t.fader.windowClass = .full ∧ t.fader.invert = false ∧ t.fader.softness = 0
          ∧ (0 < fields →
            t.fader.level = start ∧ t.fader.gain = start
              ∧ ∃ k pattern, t.fader.context = some k ∧ k.tag = 0 ∧ k.fromLevel = start ∧ k.k = 0
                ∧ k.start = s.time.fieldCount ∧ k.pair = .paired ∧ k.hard = false
                ∧ k.params =
                  { kind := .dissolve, direction := .inward, target := level, duration := fields, curve := .linear
                    pattern := pattern, softness := 0, partner := none, law := .linear })
          ∧ (fields = 0 → t.fader.level = level ∧ t.fader.gain = level ∧ t.fader.context = none))
      ∧ (∀ k, s.fader.context = some k → k.tag ≠ 0 →
        exec (.fader r) s = .next ((received s).setReq (requestRecord r .refusedState s)))

/-- A context whose k has reached D ends at its end values, and the ACTIVE TRANSITION cue of its tag goes to DONE with its
finish field count (R150, R158). A mix record that ends is followed by one further record if a boundary or change fell due
during it, with the values as they then stand, and by none otherwise (R170). -/
def Obligations.TransitionAndMixRecordEnd : Prop :=
  (∀ (k : Context) (s : State), Running s → s.fader.context = some k → k.k = k.params.duration →
        ∃ t, exec .transitionComplete s = .next t
          ∧ t.fader =
            { s.fader with
              level := k.params.target, gain := audioGain k.params.law k.params.target, windowClass := .full
              invert := false, softness := 0, context := none }
          ∧ (k.tag ≠ 0 →
              t.cues.list = s.cues.list.map fun c => if c.transiting k.tag then
                { c with state := .done, finish := some s.time.fieldCount } else c)
          ∧ (k.tag = 0 → t.cues = s.cues)
          ∧ t = ((s.setFader t.fader).setCues t.cues).setMix t.mix) ∧
  (∀ (m : MixRecord) (s : State), Running s → s.mix.sending = some m →
        (s.mix.due = true →
            ∃ n, exec .mixRecordEnd s = .next (s.setMix { s.mix with sending := some n, due := false })
              ∧ n.secondField = s.time.secondField ∧ n.level = s.fader.level ∧ n.gain = s.fader.gain
              ∧ n.invert = s.fader.invert ∧ n.softness = s.fader.softness ∧ n.windowClass = s.fader.windowClass
              ∧ n.shape = match s.fader.context with | some k => k.shape | none => .full)
          ∧ (s.mix.due = false → exec .mixRecordEnd s = .next (s.setMix { s.mix with sending := none })))

/-- The three curves are the floors of their expressions, give 0 at k = 0 and 1,024 at k = D (R159), never decrease and
never pass 1,024 (R162). Every line window lies within the picture, one without pixels is [0, 0), as every window is at p
= 0, and at p = 1,024 every span pattern is the full picture on every line (R162 to R164). With hw and vh the roundings,
half to even, of 720 p and H p over 1,024, LEFT shows hw pixels from the left, TOP the first vh lines, SPLIT hw pixels in
the middle and BOX the same in the middle vh lines (R163, R164). A SPARKLE cell shows when the low 10 bits of the
register, stepped from the tag's seed once for each cell up to it in raster order, are below p (R165). A record is the
field record's 7 characters and, for the H active lines in order, none, 7 each of a window or 9 each of cells, with their
contents byte by byte; H is 288 for F25 and 243 for the others (R163, R170, R171, R184, Table 12.8). -/
def Obligations.CurvesAndLineWindows : Prop :=
  (∀ d k : Nat, 0 < d → k ≤ d →
        curvePosition .linear k d = 1024 * k / d
          ∧ curvePosition .smooth k d = 1024 * (k * k) * (3 * d - 2 * k) / (d * d * d)
          ∧ curvePosition .fast k d = 1024 * k * (2 * d - k) / (d * d)) ∧
  (∀ (curve : Curve) (d : Nat), 0 < d →
        curvePosition curve 0 d = 0 ∧ curvePosition curve d d = 1024
          ∧ ∀ j k, j ≤ k → k ≤ d → curvePosition curve j d ≤ curvePosition curve k d ∧ curvePosition curve k d ≤ 1024) ∧
  (∀ (h : Nat) (pattern : Pattern) (p y : Nat), p ≤ 1024 → y < h →
        (lineWindow h pattern p y).1 ≤ (lineWindow h pattern p y).2 ∧ (lineWindow h pattern p y).2 ≤ 720
          ∧ ((lineWindow h pattern p y).1 < (lineWindow h pattern p y).2 ∨ lineWindow h pattern p y = (0, 0))
          ∧ lineWindow h pattern 0 y = (0, 0) ∧ (pattern ≠ .sparkle → lineWindow h pattern 1024 y = (0, 720))) ∧
  (∀ h p y : Nat, p ≤ 1024 → y < h →
        let rounded (n r : Nat) : Prop :=
          ((1024 * r : Int) - n).natAbs ≤ 512 ∧ (((1024 * r : Int) - n).natAbs = 512 → r % 2 = 0)
        ∃ hw vh, rounded (720 * p) hw ∧ rounded (h * p) vh
          ∧ let x0 := (720 - hw) / 2
            let y0 := (h - vh) / 2
            let middle := if hw = 0 then (0, 0) else (x0, x0 + hw)
            lineWindow h .left p y = (0, hw)
              ∧ lineWindow h .top p y = (if y < vh then (0, 720) else (0, 0))
              ∧ lineWindow h .split p y = middle
              ∧ lineWindow h .box p y = if y0 ≤ y ∧ y < y0 + vh then middle else (0, 0)) ∧
  (∀ (tag : Byte) (p y col : Nat), col < 45 →
        let seed := sparkleSeed tag
        seed.toNat = (if (tag.toNat * 129 + 1) % 32768 = 0 then 1 else (tag.toNat * 129 + 1) % 32768)
          ∧ lineCells seed p y < 2 ^ 45
          ∧ ((lineCells seed p y).testBit col = true
            ↔ (stepRegister^[45 * (y / 9) + col + 1] seed).toNat % 1024 < p)) ∧
  (∀ s : State,
        let h := if std s = .f25 then 288 else 243
        (s.mix.sending = none → mixChars s = [])
          ∧ ∀ m, s.mix.sending = some m →
            (m.shape = .full → (mixChars s).length = 7)
              ∧ (∀ pattern p, m.shape = .spans pattern p → (mixChars s).length = 7 * (h + 1))
              ∧ (∀ seed p, m.shape = .cells seed p → (mixChars s).length = 7 + 9 * h)
              ∧ let byte (n : Nat) : Byte := BitVec.ofNat 8 n
                let two (n : Nat) : List Byte := [byte (n / 256), byte n]
                let flags :=
                  (if m.secondField = true then 1 else 0) + (if m.invert = true then 2 else 0)
                    + 4 * [WindowClass.full, .window, .cells].idxOf m.windowClass
                mixChars s
                  = [0x01, byte flags] ++ two m.level ++ two m.gain ++ [byte m.softness]
                    ++ (List.range h).flatMap fun y =>
                      match m.shape with
                      | .full => []
                      | .spans pattern p =>
                        [0x02] ++ two y ++ two (lineWindow h pattern p y).1 ++ two (lineWindow h pattern p y).2
                      | .cells seed p =>
                        let mask := lineCells seed p y
                        [0x03] ++ two y ++ two (mask / 65536 / 65536) ++ two (mask / 65536) ++ two mask)

/-! ### GPI, tallies and marks -/

/-- One sample: an input at its accepted level starts again; the fourth sample at another level is accepted (R173), and is
an edge where a level was accepted before. The edges are met in some order (R173; log 10). GPI_EDGE is such an edge
brought by itself: it moves the accepted level and is met, which is the model's reading (log 25). An edge met that does
not qualify, or meets a holdoff, changes nothing; else the holdoff becomes 3 and the binding is performed (R174): PLAY,
ignored while the chase is enabled; STOP, which disables it; in OFFLINE and LOCAL neither is kept as the command, and STOP
still disables the chase; on LIVE both have no effect (R83, R84, R86, R87, R96); MARK; CUE, which fires the first WAITING
cue of the line's trigger as FIRE does; ABORT, by which every ACTIVE cue is aborted; none of them records a request (R139,
R142, R175). -/
def Obligations.GpiInputsTaken : Prop :=
  (∀ (levels : BitVec 4) (s : State), Running s →
        let u := sampleInputs levels s
        u = s.setGpi u.gpi ∧ u.gpi.outputs = s.gpi.outputs
          ∧ (∃ (order : List GpiLine) (n : Nat),
              order.Nodup
                ∧ (∀ line : GpiLine,
                    line ∈ order ↔
                      s.gpi.inputs[line].accepted = some (!levels.getLsbD line.val)
                        ∧ s.gpi.inputs[line].lastSample = some (levels.getLsbD line.val)
                        ∧ 3 ≤ s.gpi.inputs[line].run)
                ∧ exec (.gpiSample levels) s
                  = .next
                      (order.foldl (fun v line => meetEdge (levels.getLsbD line.val) v line) (u.setChoices n)))
          ∧ ∀ line : GpiLine,
            let i := s.gpi.inputs[line]
            let j := u.gpi.inputs[line]
            let level := levels.getLsbD line.val
            j.lastSample = some level ∧ j.edge = i.edge ∧ j.binding = i.binding ∧ j.holdoff = i.holdoff
              ∧ (i.accepted = some level → j.accepted = some level ∧ j.run = 0)
              ∧ (i.accepted ≠ some level → i.lastSample ≠ some level → j.accepted = i.accepted ∧ j.run = 1)
              ∧ (i.accepted ≠ some level → i.lastSample = some level → i.run < 3 →
                  j.accepted = i.accepted ∧ j.run = i.run + 1)
              ∧ (i.accepted ≠ some level → i.lastSample = some level → 3 ≤ i.run →
                  j.accepted = some level ∧ j.run = 0)) ∧
  (∀ (line : GpiLine) (rise : Bool) (s : State), Running s →
        let moved :=
          s.setGpi
            { s.gpi with
              inputs := s.gpi.inputs.set line { s.gpi.inputs[line] with accepted := some rise, run := 0 } }
        (s.gpi.inputs[line].accepted = some (!rise) →
            exec (.gpiEdge line rise) s = .next (meetEdge rise moved line))
          ∧ (s.gpi.inputs[line].accepted = none → exec (.gpiEdge line rise) s = .next moved)
          ∧ (s.gpi.inputs[line].accepted = some rise → exec (.gpiEdge line rise) s = .next s)) ∧
  (∀ (line : GpiLine) (rise : Bool) (s : State),
        let i := s.gpi.inputs[line]
        let named := i.binding ≠ .none ∧ (i.edge = .both ∨ i.edge = (if rise then .rise else .fall))
        let u := s.setGpi { s.gpi with inputs := s.gpi.inputs.set line { i with holdoff := 3 } }
        let t := meetEdge rise s line
        (¬(named ∧ i.holdoff = 0) → t = s)
          ∧ (named → i.holdoff = 0 →
            t.gpi.inputs = u.gpi.inputs ∧ t.req = s.req
              ∧ (i.binding = .play → s.chase.state ≠ .free ∨ deckReady s = false → t = u)
              ∧ (i.binding = .play → s.chase.state = .free → deckReady s = true →
                  t.tr.command = .speed 256 ∧ t.tr.locate = none ∧ t.tr.parkedMark = false ∧ t.tr.armed = s.tr.armed
                    ∧ (s.tr.punch.isSome = true → transportState t ≠ .play → RecordBroken s t)
                    ∧ (s.tr.punch = none ∨ transportState t = .play → RecordKept s t)
                    ∧ t = ((u.setTr t.tr).setCues t.cues).setFlags t.flags)
              ∧ (i.binding = .stop → isDeck s = false → t = u)
              ∧ (i.binding = .stop → isDeck s = true →
                  t.chase.state = .free ∧ t.chase.offset = s.chase.offset
                    ∧ (s.chase.state = .free → t.chase = s.chase) ∧ (s.chase.state ≠ .free → t.chase.lead = own s)
                    ∧ (deckReady s = false → t = u.setChase t.chase)
                    ∧ (deckReady s = true →
                        t.tr.command = .stop ∧ t.tr.locate = none ∧ t.tr.parkedMark = s.tr.parkedMark
                          ∧ t.tr.armed = s.tr.armed
                          ∧ (s.tr.punch.isSome = true → RecordBroken s t) ∧ (s.tr.punch = none → RecordKept s t)
                          ∧ t = (((u.setTr t.tr).setChase t.chase).setCues t.cues).setFlags t.flags))
              ∧ (i.binding = .mark → s.pos.record.quality = .none → t = u)
              ∧ (i.binding = .mark → s.pos.record.quality ≠ .none →
                  t.marks =
                    { frame := s.pos.record.position / 512, phase := s.pos.record.position % 512
                      quality := s.pos.record.quality, origin := .gpi line } :: s.marks.take 7)
              ∧ (i.binding = .cue → (∀ d ∈ s.cues.list, d.state = .waiting → d.trigger ≠ .gpi line) → t = u)
              ∧ (∀ pre d post, i.binding = .cue → s.cues.list = pre ++ d :: post → d.state = .waiting →
                  d.trigger = .gpi line → (∀ q ∈ pre, q.state = .waiting → q.trigger ≠ .gpi line) →
                  t = fireCue (ownReady s) d u)
              ∧ (i.binding = .abort → (∀ d ∈ s.cues.list, d.state ≠ .active) → t = u)
              ∧ (i.binding = .abort → (∃ d ∈ s.cues.list, d.state = .active) →
                  t.tr.punch = none ∧ hasFlag t .cueAborted = true
                    ∧ t.cues.list = s.cues.list.map (fun d => if d.state = .active then
                        { d with state := .aborted, finish := some s.time.fieldCount } else d))))

/-- GPI BIND sets the binding and the edge select of its line, by the codes of Table 12.4, and keeps its filter and
holdoff; TALLY MAP sets the source and the pattern, by theirs, and keeps a running pulse (R176, R178). An output of a
running station is active while a pulse runs on it, and else while the condition of its source holds by Table 11.2 and its
pattern is on: SLOW for 24 fields of 48 and FAST for 6 of 12 (R177, R179). A pulse whose count has reached 0 ends, and the
output is formed from its tally again (R177, R179). -/
def Obligations.GpiRequestsAndPulse : Prop :=
  (∀ (r : Request) (line : GpiLine) (x y : Byte) (s : State), Taken r s →
        r.params = [BitVec.ofNat 8 (line.val + 1), x, y] →
        (∀ binding edge, [Binding.cue, .mark, .play, .stop, .abort, .none][x.toNat]? = some binding →
            [EdgeSelect.fall, .rise, .both][y.toNat]? = some edge →
            exec (.gpiBind r) s
              = .next
                  (((received s).setGpi
                    { s.gpi with
                      inputs :=
                        s.gpi.inputs.set line { s.gpi.inputs[line] with binding := binding, edge := edge } }).setReq
                    (requestRecord r .ok s)))
          ∧ (∀ source pattern, [TallySource.none, .record, .air, .lock, .ready, .fault][x.toNat]? = some source →
            [TallyPattern.steady, .slow, .fast][y.toNat]? = some pattern →
            exec (.tallyMap r) s
              = .next
                  (((received s).setGpi
                    { s.gpi with
                      outputs :=
                        s.gpi.outputs.set line
                          { s.gpi.outputs[line] with source := source, pattern := pattern } }).setReq
                    (requestRecord r .ok s)))) ∧
  (∀ (line : GpiLine) (s : State), Running s →
        let o := s.gpi.outputs[line]
        let condition :=
          (o.source = .record ∧ ∃ p, s.tr.punch = some p ∧ p.tracks ≠ 0)
            ∨ (o.source = .air ∧ (0 < s.fader.level ∨ s.fader.context.isSome = true))
            ∨ (o.source = .lock ∧ s.chase.record.state = .locked) ∨ (o.source = .ready ∧ s.chase.record.ready = true)
            ∨ (o.source = .fault
              ∧ (hasFlag s .transportFault = true ∨ hasFlag s .recordFault = true ∨ hasFlag s .locateFail = true
                ∨ hasFlag s .clash = true))
        let phase :=
          o.pattern = .steady ∨ (o.pattern = .slow ∧ s.time.fieldCount.toNat % 48 < 24)
            ∨ (o.pattern = .fast ∧ s.time.fieldCount.toNat % 12 < 6)
        (outputActive s line = true ↔ o.pulse.isSome = true ∨ (condition ∧ phase))) ∧
  (∀ (line : GpiLine) (start : Word16) (s : State), Running s →
        s.gpi.outputs[line].pulse = some { count := 0, start := start } →
        ∃ t, exec (.pulseEnd line) s = .next t
          ∧ t = s.setGpi
              { s.gpi with outputs := s.gpi.outputs.set line { s.gpi.outputs[line] with pulse := none } }
          ∧ outputActive t line
            = (tallyCondition s.gpi.outputs[line].source s
                && patternOn s.gpi.outputs[line].pattern s.time.fieldCount))

/-- MARK pushes the own position with origin REQUEST, a full stack losing its oldest entry with MARK_LOST; MARK DROP
removes the top entry; LOCATE MARK removes it and starts a locate to its frame, or retargets the running one, as LOCATE
does (R89, R91, R96); the first record of that locate is the next publication's, by R89 for a retarget and by log 33 for a
locate started. Each is refused with REFUSED_STATE where it has nothing to push or pop: MARK at quality NONE, the other
two on an empty stack (R180 to R182). -/
def Obligations.MarkRequests : Prop :=
  ∀ (r : Request) (s : State), Taken r s → r.params = [] →
    let entry : Mark :=
      { frame := s.pos.record.position / 512, phase := s.pos.record.position % 512
        quality := s.pos.record.quality, origin := .request }
    (s.pos.record.quality = .none →
        exec (.mark r) s = .next ((received s).setReq (requestRecord r .refusedState s)))
      ∧ (s.pos.record.quality ≠ .none → s.marks.length < 8 →
        exec (.mark r) s = .next (((received s).setMarks (entry :: s.marks)).setReq (requestRecord r .ok s)))
      ∧ (s.pos.record.quality ≠ .none → s.marks.length = 8 →
        exec (.mark r) s
          = .next
              ((((received s).setMarks (entry :: s.marks.take 7)).setFlags
                (s.flags ||| Flag.markLost.mask)).setReq (requestRecord r .ok s)))
      ∧ (s.marks = [] →
        exec (.markDrop r) s = .next ((received s).setReq (requestRecord r .refusedState s)))
      ∧ (∀ m rest, s.marks = m :: rest →
        exec (.markDrop r) s = .next (((received s).setMarks rest).setReq (requestRecord r .ok s)))
      ∧ (s.marks = [] → role s ≠ .live → s.pins.threaded = true → s.pins.localOn = false →
        s.chase.state = .free →
        exec (.locateMark r) s = .next ((received s).setReq (requestRecord r .refusedState s)))
      ∧ (∀ m rest, s.marks = m :: rest → role s ≠ .live → s.pins.threaded = true → s.pins.localOn = false →
        s.chase.state = .free →
        ∃ t l, exec (.locateMark r) s = .next t ∧ t.req = requestRecord r .ok s ∧ t.marks = rest
          ∧ t.tr.locate = some l ∧ l.target = m.frame ∧ l.attempts = 0 ∧ l.settle = 0 ∧ l.eotCount = 0
          ∧ l.skips = some s.time.fieldCount ∧ transportState t = .locating
          ∧ t.tr.command = s.tr.command ∧ t.tr.armed = s.tr.armed
          ∧ (s.tr.locate = none →
              l.records = 0 ∧ t.tr.parkedMark = false ∧ t.tr.punch = none
                ∧ (s.tr.punch.isSome = true → RecordBroken s t) ∧ (s.tr.punch = none → RecordKept s t)
                ∧ (s.pos.record.quality = .none → l.phase = .acquire ∧ l.drive = .speed 256)
                ∧ (s.pos.record.quality ≠ .none → l.phase = .drive ∧ l.drive = s.tr.command))
          ∧ (∀ o, s.tr.locate = some o →
              l.records = o.records ∧ l.drive = o.drive
                ∧ l.phase = (if o.phase = .acquire then .acquire else .drive)
                ∧ t.tr.parkedMark = s.tr.parkedMark ∧ RecordKept s t)
          ∧ t = (((((received s).setReq t.req).setMarks t.marks).setTr t.tr).setCues t.cues).setFlags t.flags)

/-! ### Reports, flags and SESSION CLEAR -/

/-- The report bodies, byte by byte: the thirty of STATUS, the count, start index and up to five entries of seven of CUES,
the count and the entries of five of MARKS (R72 to R74, R184, Table 12.7). The three READ requests: with fewer than three
REPORTs held the REPORT joins at the tail behind the others, composed of its header and body as they stand; with three the
request is refused with REFUSED_FULL (R71). On a quiet line with nothing being sent or deferred the head frame is drawn
for at once, k slots deferred, and at k = 0 started, but a POSITION past the start cutoff is held back; one held back
already keeps all waiting (R41, R42, R46, R47). -/
def Obligations.ReadRequests : Prop :=
  (∀ s : State,
        let byte (n : Nat) : Byte := BitVec.ofNat 8 n
        let two (n : Nat) : List Byte := [byte (n / 256), byte n]
        let three (n : Nat) : List Byte := [byte (n / 65536), byte (n / 256), byte n]
        statusBody s
            = [byte (s.straps.station.val + 16 * s.straps.role.toNat + 64 * s.straps.std.toNat),
                byte ([Role.player, .recorder, .live].idxOf (role s)),
                byte ([RefState.lost, .settling, .present].idxOf s.time.refState)]
              ++ two s.time.fieldCount.toNat ++ two s.flags.toNat ++ two s.link.rxBad ++ two s.link.collisions
              ++ two s.link.txDropped ++ two s.pos.tcRejects ++ two s.pos.jams
              ++ [byte s.chase.lead.val] ++ three s.chase.offset ++ [byte s.tr.armed.toNat]
              ++ ([0, 1, 2, 3] : List GpiLine).map (fun line =>
                byte ([Binding.cue, .mark, .play, .stop, .abort, .none].idxOf s.gpi.inputs[line].binding
                  + 16 * [EdgeSelect.fall, .rise, .both].idxOf s.gpi.inputs[line].edge))
              ++ ([0, 1, 2, 3] : List GpiLine).map (fun line =>
                byte ([TallySource.none, .record, .air, .lock, .ready, .fault].idxOf s.gpi.outputs[line].source
                  + 16 * [TallyPattern.steady, .slow, .fast].idxOf s.gpi.outputs[line].pattern))
          ∧ (∀ start : Nat,
              cuesBody start s
                = [byte s.cues.list.length, byte start]
                  ++ ((s.cues.list.drop start).take 5).flatMap fun d =>
                    let kind := match d.trigger with | .own _ => 0 | .lead _ => 1 | .gpi line => 2 + line.val | .manual => 6
                    let frame := match d.trigger with | .own f => f | .lead f => f | .gpi _ => 0 | .manual => 0
                    let action :=
                      match d.action with
                      | .record _ _ => 0
                      | .transition _ => 1
                      | .transport _ => 2
                      | .gpiPulse _ _ => 3
                      | .mark => 4
                    [d.tag,
                        byte ([CueState.waiting, .active, .done, .aborted].idxOf d.state
                          + (if d.slipped = true then 4 else 0) + (if d.unpaired = true then 8 else 0)
                          + (if d.rehearsal = true then 16 else 0)),
                        byte kind]
                      ++ three frame ++ [byte action])
          ∧ marksBody s
            = [byte s.marks.length]
              ++ s.marks.flatMap fun m =>
                let origin := match m.origin with | .request => 0 | .gpi line => 1 + line.val | .cue => 5
                three m.frame
                  ++ two (m.phase + 512 * [Quality.none, .tach, .ltc, .virtual].idxOf m.quality + 2048 * origin)) ∧
  ∀ (c : Instr) (r : Request) (body : List Byte) (kind : Byte) (s : State), Taken r s →
    ((c = .readStatus r ∧ r.params = [] ∧ kind = 1 ∧ body = statusBody s)
      ∨ (∃ start : Byte, c = .readCues r ∧ r.params = [start] ∧ start.toNat ≤ 23 ∧ kind = 2
          ∧ body = cuesBody start.toNat s)
      ∨ (c = .readMarks r ∧ r.params = [] ∧ kind = 3 ∧ body = marksBody s)) →
    (3 ≤ reportsHeld s.link → exec c s = .next ((received s).setReq (requestRecord r .refusedFull s)))
      ∧ (reportsHeld s.link < 3 →
        let report : TxFrame :=
          { kind := .report, payload := [kind, r.tag, BitVec.ofNat 8 (r.source.toNat % 16)] ++ body
            collisions := 0, joined := s.time.fieldCount }
        let reports := s.link.reports ++ [report]
        let joined : Link := { s.link with rx := .ignore, reports := reports }
        let answers (link : Link) : Prop := exec c s = .next ((s.setLink link).setReq (requestRecord r .ok s))
        let draws := s.link.quiet = true ∧ s.link.phase = .idle ∧ ¬(s.link.position.isSome = true ∧ s.link.heldBack = true)
        let k := stepRegister s.link.backoff
        let w (f : TxFrame) : Nat :=
          if f.collisions = 0 then 8 else if f.collisions = 1 then 16 else if f.collisions = 2 then 32 else 64
        (¬draws → answers joined)
          ∧ (∀ f, draws → headFrame joined = some f → 0 < k.toNat % w f →
              answers { joined with backoff := k, phase := .deferring (k.toNat % w f) })
          ∧ (∀ f rest, draws → s.link.position = none → reports = f :: rest → k.toNat % w f = 0 →
              answers { joined with backoff := k, phase := .sending f false, reports := rest, quiet := false })
          ∧ (∀ f, draws → s.link.position = some f → k.toNat % w f = 0 →
              (s.time.clock + 11520 ≤ s.time.lastBoundary + (std s).period →
                  answers { joined with backoff := k, phase := .sending f false, position := none, quiet := false })
                ∧ (s.time.lastBoundary + (std s).period < s.time.clock + 11520 →
                  answers { joined with backoff := k, heldBack := true })))

/-- CLEAR FLAGS clears each flag whose number its mask selects, leaves the others, and is always accepted with OK (R76).
The numbers are those of Table 5.6. -/
def Obligations.ClearFlagsRequest : Prop :=
  ∀ (r : Request) (hi lo : Byte) (s : State), Taken r s → r.params = [hi, lo] →
    ∃ t, exec (.clearFlags r) s = .next t ∧ t = ((received s).setFlags t.flags).setReq (requestRecord r .ok s)
      ∧ ∀ f : Flag, hasFlag t f = (hasFlag s f && !((hi ++ lo).getLsbD f.number))
        ∧ hasFlag s f = s.flags.getLsbD f.number
        ∧ [Flag.powerRestart, .clash, .refLost, .tcJump, .locateFail, .transportFault, .recordFault, .syncSlip, .unpaired,
            .cueAborted, .bulletinDropped, .linkError, .markLost][f.number]? = some f

/-- SESSION CLEAR leaves the station in the state of Table 5.7 and is always accepted with OK: no cue, no lines, no arms,
STOP on a deck that takes commands, the chase FREE at offset 0, no context and level 0, the GPI defaults, no mark and no
flag; the link's queue, the peers, the timebase, the position and the straps stay (R77). -/
def Obligations.SessionClearRequest : Prop :=
  ∀ (r : Request) (s : State), Taken r s → r.params = [] →
    (s.tr.punch.isSome = true → (activeRecord s).isSome = true) →
    ∃ t, exec (.sessionClear r) s = .next t ∧ t.req = requestRecord r .ok s
      ∧ t.cues = { s.cues with list := [] } ∧ t.tr.punch = none ∧ t.tr.armed = 0
      ∧ (deckReady s = true → t.tr.command = .stop ∧ t.tr.locate = none)
      ∧ t.tr.parkedMark = s.tr.parkedMark
      ∧ t.chase.state = .free ∧ t.chase.lead = own s ∧ t.chase.offset = 0 ∧ t.chase.integral = 0
      ∧ t.chase.record.state = .free ∧ t.chase.record.compare = .level
      ∧ t.fader.level = 0 ∧ t.fader.gain = 0 ∧ t.fader.context = none
      ∧ (∀ line : GpiLine,
          t.gpi.inputs[line] = { s.gpi.inputs[line] with binding := .cue, edge := .fall }
            ∧ t.gpi.outputs[line] = { s.gpi.outputs[line] with source := .none, pattern := .steady })
      ∧ t.marks = [] ∧ t.flags = 0
      ∧ t.link = (received s).link ∧ t.peers = s.peers ∧ t.time = s.time ∧ t.pos = s.pos
      ∧ t.straps = s.straps ∧ t.pins = s.pins ∧ t.power = s.power

/-! ### The link -/

/-- The shift register of the link and of SPARKLE: a step discards the top bit and puts the exclusive-or of bits 14 and 13
at the bottom, and never leads from another value to zero (R41). At a quiet with a waiting head frame the register is
stepped and k drawn from the low bits of the frame's window; with k above 0 the station defers k slots, and at 0 it starts
as at a deferral's end (R41, R42). The end of a deferral starts the head frame: a POSITION while 11,520 clocks remain
before the expected boundary, else it is held back and makes no draw; a REPORT at once (R42, R47). -/
def Obligations.DeferralBeginsAndEnds : Prop :=
  (∀ r : BitVec 15,
        (stepRegister r).toNat = 2 * (r.toNat % 16384) + (if r.getLsbD 14 = r.getLsbD 13 then 0 else 1)
          ∧ (r ≠ 0 → stepRegister r ≠ 0)) ∧
  (∀ (time : Nat) (f : TxFrame) (s : State), Running s → s.link.phase = .idle → s.link.quiet = false →
        s.link.rx ≠ .frame → headFrame s.link = some f → s.link.heldBack = false →
        let r := stepRegister s.link.backoff
        let w := if f.collisions = 0 then 8 else if f.collisions = 1 then 16 else if f.collisions = 2 then 32 else 64
        (0 < r.toNat % w →
            exec (.lineQuiet time) s
              = .next
                  ((atTime time s).setLink
                    { s.link with quiet := true, rx := .wait, backoff := r, phase := .deferring (r.toNat % w) }))
          ∧ (r.toNat % w = 0 →
            exec (.lineQuiet time) s
              = exec (.deferralEnd time)
                  (s.setLink { s.link with quiet := true, rx := .wait, backoff := r, phase := .deferring 0 }))) ∧
  ∀ (time k : Nat) (s : State), Running s → s.link.phase = .deferring k →
    let u := atTime time s
    (∀ f, s.link.position = some f → u.time.clock + 11520 ≤ s.time.lastBoundary + (std s).period →
        exec (.deferralEnd time) s
          = .next
              (u.setLink
                { s.link with phase := .sending f false, position := none, rx := .ignore, quiet := false }))
      ∧ (∀ f, s.link.position = some f → s.time.lastBoundary + (std s).period < u.time.clock + 11520 →
        exec (.deferralEnd time) s = .next (u.setLink { s.link with phase := .idle, heldBack := true }))
      ∧ (∀ f rest, s.link.position = none → s.link.reports = f :: rest →
        exec (.deferralEnd time) s
          = .next
              (u.setLink
                { s.link with phase := .sending f false, reports := rest, rx := .ignore, quiet := false }))

/-- A start bit makes a deferring station stand aside, keeping its frames and changing no counter (R43); a frame sent
whole leaves the queue (R42); the jam ends with the line released (R44). A collision is counted: a frame that is not let
go nor expired goes back to its place with one collision more, or at the eighth is dropped with LINK_ERROR, and
BULLETIN_DROPPED for a POSITION; one let go or expired is dropped, with BULLETIN_DROPPED for a POSITION (R44, R45, R47,
R48), and with no LINK_ERROR, at its eighth collision too, which is the model's choice (log 36). The REPORTs that have
reached their 25th boundary leave the queue, each counted in tx_dropped, and no flag is set; one on the line goes on;
where the oldest leaves and so the head changes, a deferral is abandoned and, on a quiet line, drawn anew for the next
REPORT, and none runs when none is left (R43, R48). -/
def Obligations.SendingAndCollision : Prop :=
  (∀ s : State, Running s →
        (∀ k, s.link.phase = .deferring k →
            exec .startBitSeen s = .next (s.setLink { s.link with phase := .idle, quiet := false }))
          ∧ (∀ f gone, s.link.phase = .sending f gone →
            exec .frameSent s = .next (s.setLink { s.link with phase := .idle }))
          ∧ (s.link.phase = .jamming → exec .jamEnd s = .next (s.setLink { s.link with phase := .idle }))) ∧
  (∀ (f : TxFrame) (s : State), Running s → s.link.phase = .sending f false →
        (f.kind = .report → elapsed f.joined s.time.fieldCount < 25) →
        ∃ t, exec .collision s = .next t ∧ t = (s.setLink t.link).setFlags t.flags ∧ t.link.phase = .jamming
          ∧ t.link.collisions = bumpCounter s.link.collisions ∧ t.link.backoff = s.link.backoff
          ∧ (f.collisions < 7 →
              t.flags = s.flags ∧ t.link.txDropped = s.link.txDropped
                ∧ (f.kind = .position →
                    t.link.position = some { f with collisions := f.collisions + 1 } ∧ t.link.reports = s.link.reports)
                ∧ (f.kind = .report →
                    t.link.reports = { f with collisions := f.collisions + 1 } :: s.link.reports
                      ∧ t.link.position = s.link.position))
          ∧ (7 ≤ f.collisions →
              t.link.txDropped = bumpCounter s.link.txDropped ∧ t.link.position = s.link.position
                ∧ t.link.reports = s.link.reports ∧ hasFlag t .linkError = true
                ∧ (f.kind = .position → hasFlag t .bulletinDropped = true))) ∧
  (∀ (f : TxFrame) (gone : Bool) (s : State), Running s → s.link.phase = .sending f gone →
        (gone = true ∨ (f.kind = .report ∧ 25 ≤ elapsed f.joined s.time.fieldCount)) →
        exec .collision s
          = .next
              ((s.setLink
                { s.link with
                  phase := .jamming, collisions := bumpCounter s.link.collisions
                  txDropped := bumpCounter s.link.txDropped }).setFlags
                (if f.kind = .position then s.flags ||| Flag.bulletinDropped.mask else s.flags))) ∧
  (∀ s : State, Running s →
        let kept := s.link.reports.filter (fun f => elapsed f.joined s.time.fieldCount < 25)
        let expired := (s.link.reports.filter fun f => 25 ≤ elapsed f.joined s.time.fieldCount).length
        let u :=
          s.setLink
            { s.link with
              reports := kept, txDropped := min (max 65535 s.link.txDropped) (s.link.txDropped + expired) }
        let headStays := s.link.position.isSome = true ∨ kept.head? = s.link.reports.head?
        ((headStays ∨ driverReleased s.link = false) → exec .reportExpiry s = .next u)
          ∧ (¬headStays → driverReleased s.link = true → (s.link.quiet = false ∨ kept = []) →
            exec .reportExpiry s = .next (u.setLink { u.link with phase := .idle }))
          ∧ (∀ f rest, ¬headStays → driverReleased s.link = true → s.link.quiet = true → kept = f :: rest →
            let r := stepRegister s.link.backoff
            let w := if f.collisions = 0 then 8 else if f.collisions = 1 then 16 else if f.collisions = 2 then 32 else 64
            (0 < r.toNat % w →
                exec .reportExpiry s
                  = .next (u.setLink { u.link with backoff := r, phase := .deferring (r.toNat % w) }))
              ∧ (r.toNat % w = 0 →
                exec .reportExpiry s
                  = .next
                      (u.setLink
                        { u.link with
                          backoff := r, phase := .sending f false, reports := rest, rx := .ignore, quiet := false }))))

/-- The line becomes quiet: the receiver enters WAIT; with nothing to send, or the POSITION held back, nothing else
changes; a frame being collected is a gap error, counted in rx_bad with LINK_ERROR, by LINE_QUIET and GAP_ERROR alike
(R35, R38, R39, R47, R49; that the two commands meet so is log 12). A line is read by its samples: a start bit sampled
recessive is no character, a character is a start bit, eight data bits from the least significant and a stop bit, which
sampled dominant is a framing error, and the next start bit is then looked for from the first recessive sample on; one
character time of recessive line ends the reading (R34, R35; that a start bit at that very moment comes too late is log
35). The first character after a quiet: a clean D3h, alone or after a clean 55h, starts a frame; anything else is ignored
and not counted; out of WAIT it changes nothing (R38). A frame that meets an error is discarded: rx_bad rises by 1,
LINK_ERROR is set and the receiver enters IGNORE; so is an arrival of a foreign standard. An error is a framing error on
one of the frame's own 5 + LENGTH characters from KIND on, a LENGTH above 48, and at the last of them a CRC that does not
match or a foreign standard (R39). -/
def Obligations.QuietLineAndFrameStart : Prop :=
  (∀ (time : Nat) (s : State), Running s → driverReleased s.link = true → s.link.quiet = false →
    (headFrame s.link = none ∨ (s.link.position.isSome = true ∧ s.link.heldBack = true)) →
    (s.link.rx ≠ .frame →
        exec (.lineQuiet time) s = .next ((atTime time s).setLink { s.link with quiet := true, rx := .wait }))
      ∧ (∀ c, s.link.rx = .frame → (c = .lineQuiet time ∨ c = .gapError time) →
        exec c s
          = .next
              (((atTime time s).setLink
                { s.link with quiet := true, rx := .wait, rxBad := bumpCounter s.link.rxBad }).setFlags
                (s.flags ||| Flag.linkError.mask)))) ∧
  (readLine [] = []
    ∧ (∀ rest : List Bool,
        (rest.take 9 = List.replicate 9 true → readLine (true :: rest) = [])
          ∧ (rest.take 9 ≠ List.replicate 9 true → readLine (true :: rest) = readLine rest))
    ∧ ∀ (b : Byte) (stop : Bool) (rest : List Bool),
        readLine (false :: ((List.range 8).map b.getLsbD ++ stop :: rest))
          = { byte := b, framing := !stop } :: readLine (if stop then rest else rest.dropWhile (!·))) ∧
  (∀ (start next : List Bool) (s : State), Running s →
        let line := start ++ next
        let sync : LinkChar := { byte := 0xD3, framing := false }
        let preamble : LinkChar := { byte := 0x55, framing := false }
        (∀ first rest, s.link.rx = .wait → driverReleased s.link = true → readLine line = first :: rest →
            exec (.frameStart start next) s
              = .next
                  (s.setLink
                    { s.link with
                      phase := .idle, quiet := false
                      rx :=
                        if first = sync ∨ (first = preamble ∧ rest.head? = some sync) then .frame else .ignore }))
          ∧ (readLine line = [] → exec (.frameStart start next) s = .next s)
          ∧ (s.link.rx ≠ .wait → exec (.frameStart start next) s = .next s)) ∧
  (∀ (chars : List LinkChar) (s : State),
        let value (n : Nat) : Nat := (chars.map fun c => c.byte.toNat).getD n 0
        let total := 5 + value 2
        frameBroken chars s = true
          ↔ (∃ n c, n < total ∧ chars[n]? = some c ∧ c.framing = true) ∨ (3 ≤ chars.length ∧ 48 < value 2)
            ∨ (3 ≤ chars.length ∧ total ≤ chars.length
              ∧ (256 * value (total - 2) + value (total - 1)
                    ≠ (crcOf ((chars.map LinkChar.byte).take (total - 2))).toNat
                ∨ value 1 / 64 ≠ s.straps.std.toNat))) ∧
  (∀ s : State, Running s →
        let discarded :=
          (s.setLink { s.link with rxBad := bumpCounter s.link.rxBad, rx := .ignore }).setFlags
            (s.flags ||| Flag.linkError.mask)
        (∀ line, s.link.rx = .frame → frameBroken (readLine line) s = true →
            exec (.brokenFrame line) s = .next discarded)
          ∧ (∀ line, (s.link.rx ≠ .frame ∨ frameBroken (readLine line) s = false) →
            exec (.brokenFrame line) s = .next s)
          ∧ (∀ source payload, s.link.rx = .frame → source.toNat / 64 ≠ s.straps.std.toNat →
            exec (.positionArrival source payload) s = .next discarded
              ∧ exec (.reportArrival source payload) s = .next discarded))

/-! ### Peers -/

/-- A payload is well formed when it has twenty bytes and every value of Table 12.2 that its bits could miss is defined or
in its range, and the frame count, phase, quality, motion, transport state, READY and tag are read from their bits (R57,
R60, R184, R185). A POSITION that bears the station's own number sets CLASH and changes no entry; one whose payload is
malformed is ignored; any other replaces its sender's entry alone, with the frame, phase, quality, speed, transport state,
READY and tag that the payload holds, the field count and one update more (R57 to R60). An entry silent for 250 boundaries
becomes unheard and keeps the rest; a younger one is left as it is (R62). -/
def Obligations.PeerEntries : Prop :=
  (∀ (x : Standard) (bs : List Byte),
        let b (n : Nat) : Nat := (bs.getD n 0).toNat
        let state := 256 * b 4 + b 5
        let air := 256 * b 10 + b 11
        let motion := 256 * b 6 + b 7
        let read := readBulletin bs
        (bulletinWellFormed x bs = true
            ↔ bs.length = 20 ∧ b 0 / 8 % 8 ≤ 5 ∧ b 0 / 64 ≤ 2 ∧ 65536 * b 1 + 256 * b 2 + b 3 < x.fpd
              ∧ state / 4096 % 4 ≤ 2 ∧ b 9 / 16 ≤ 8 ∧ air % 2048 ≤ 1024 ∧ air / 4096 ≤ 8 ∧ b 14 % 32 ≤ 24)
          ∧ read.frame = 65536 * b 1 + 256 * b 2 + b 3 ∧ read.phase = state % 512
          ∧ [Quality.none, .tach, .ltc, .virtual][state / 512 % 4]? = some read.quality
          ∧ read.speed = (if motion < 32768 then (motion : Int) else motion - 65536)
          ∧ [TransportState.stopped, .parked, .play, .vari, .wind, .locating, .offline, .localControl][b 0 % 8]?
              = some read.transport
          ∧ (read.ready = true ↔ state / 2048 % 2 = 1) ∧ read.tag = bs.getD 12 0) ∧
  (∀ (source : Byte) (payload : List Byte) (s : State), Running s → s.link.rx = .frame →
    foreignStandard source s = false →
    let st : Station := Fin.ofNat 16 source.toNat
    (st = own s →
        exec (.positionArrival source payload) s
          = .next ((received s).setFlags (s.flags ||| Flag.clash.mask)))
      ∧ (st ≠ own s → bulletinWellFormed (std s) payload = false →
        exec (.positionArrival source payload) s = .next (received s))
      ∧ (st ≠ own s → bulletinWellFormed (std s) payload = true →
        ∃ t, exec (.positionArrival source payload) s = .next t ∧ t = (received s).setPeers t.peers
          ∧ (∀ other : Station, other ≠ st → t.peers[other] = s.peers[other])
          ∧ t.peers[st] =
            { heard := true, frame := (readBulletin payload).frame, phase := (readBulletin payload).phase
              quality := (readBulletin payload).quality, speed := (readBulletin payload).speed
              transport := (readBulletin payload).transport, ready := (readBulletin payload).ready
              tag := (readBulletin payload).tag, arrival := s.time.fieldCount
              updates := s.peers[st].updates + 1 }
          ∧ t.peers[st].position < (std s).day)) ∧
  ∀ (st : Station) (s : State), Running s →
    (s.peers[st].heard = true → 250 ≤ elapsed s.peers[st].arrival s.time.fieldCount →
        exec (.peerSilenceClear st) s
          = .next (s.setPeers (s.peers.set st { s.peers[st] with heard := false })))
      ∧ (elapsed s.peers[st].arrival s.time.fieldCount < 250 → exec (.peerSilenceClear st) s = .next s)

/-! ### What the station sends -/

/-- What the station sends reads back. A character is a start bit, the byte from its least significant bit, and a stop
bit; a frame's bits are those of its characters, and the jam is one character time dominant (R34, R44). The characters of
a frame are 55h, D3h, KIND (31h of a POSITION, 64h of a REPORT), SOURCE (the station, the role as held and the standard),
LENGTH, the payload and the CRC of KIND to payload, high byte first; the CRC begins at FFFFh and takes each character from
its most significant bit, by 1021h (R36, R37, Table 12.1). A receiver of the same standard recognises the frame's start,
and its characters from KIND on pass every check of R39 (R36 to R38). The CRC of R37 has the check value the rule gives.
The bulletin is the twenty bytes of Table 12.2 (R50 to R56). The bulletin of a sound station is well formed for a peer of
its standard, which reads from it the published position, quality and motion, the transport state, READY and the
transition tag (R52 to R57, R60). The speed word is two characters, high byte first, two's complement (R81, R184). -/
def Obligations.SentCharactersReadBack : Prop :=
  (∀ b : Byte,
    charLevels b
      = [false, b.getLsbD 0, b.getLsbD 1, b.getLsbD 2, b.getLsbD 3, b.getLsbD 4, b.getLsbD 5, b.getLsbD 6,
          b.getLsbD 7, true]) ∧
  (∀ s : State,
    (∀ f gone, s.link.phase = .sending f gone → txLevels s = (frameChars s.straps f).flatMap charLevels)
      ∧ (s.link.phase = .jamming → txLevels s = List.replicate 10 false)) ∧
  (∀ (p : Straps) (f : TxFrame),
    let kind : Byte := match f.kind with | .position => 0x31 | .report => 0x64
    let source : Byte :=
      BitVec.ofNat 8 (p.station.val + 16 * [Role.player, .recorder, .live].idxOf (heldRole p) + 64 * p.std.toNat)
    let covered := [kind, source, BitVec.ofNat 8 f.payload.length] ++ f.payload
    ∃ high low : Byte, high ++ low = crcOf covered ∧ frameChars p f = [0x55, 0xD3] ++ covered ++ [high, low]) ∧
  crcOf [] = 0xFFFF ∧
  (∀ (bs : List Byte) (b : Byte),
    crcOf (bs ++ [b])
      = [7, 6, 5, 4, 3, 2, 1, 0].foldl
          (fun (crc : BitVec 16) (i : Nat) =>
            (crc <<< 1) ^^^ (if crc.getLsbD 15 = b.getLsbD i then 0 else 0x1021)) (crcOf bs)) ∧
  (∀ (f : TxFrame) (s u : State), f.payload.length ≤ 48 → u.straps.std = s.straps.std →
    let chars := frameChars s.straps f
    readLine (chars.flatMap charLevels) = chars.map (fun b => { byte := b, framing := false })
      ∧ (Running u → u.link.rx = .wait → driverReleased u.link = true →
          ∀ start next, start ++ next = chars.flatMap charLevels →
            ∃ v, exec (.frameStart start next) u = .next v ∧ v.link.rx = .frame)
      ∧ frameBroken (readLine ((chars.drop 2).flatMap charLevels)) u = false) ∧
  crcOf [0x31, 0x32, 0x33, 0x34, 0x35, 0x36, 0x37, 0x38, 0x39] = 0x29B1 ∧
  (∀ s : State,
    let byte (n : Nat) : Byte := BitVec.ofNat 8 n
    let two (n : Nat) : List Byte := [byte (n / 256), byte n]
    let frame := s.pos.published.position / 512
    let x := s.chase.handed
    let transport :=
      [TransportState.stopped, .parked, .play, .vari, .wind, .locating, .offline, .localControl].idxOf (transportState s)
    let onAir := 0 < s.fader.level ∨ s.fader.context.isSome = true
    let result :=
      [ReqResult.ok, .clamped, .refusedState, .refusedRole, .refusedFull, .refusedFormat, .refusedUnknown, .refusedTag,
        .refusedLocal].idxOf s.req.lastResult
    bulletinBytes s
      = [byte (transport + 8 * [ChaseState.free, .park, .seek, .sync, .locked, .lost].idxOf x.state
            + 64 * [RefState.lost, .settling, .present].idxOf s.time.refState),
          byte (frame / 65536), byte (frame / 256), byte frame]
        ++ two (s.pos.published.position % 512
          + 512 * [Quality.none, .tach, .ltc, .virtual].idxOf s.pos.published.quality
          + (if x.ready = true then 2048 else 0) + 4096 * [Compare.level, .ahead, .behind].idxOf x.compare)
        ++ two (s.pos.published.motion % 65536).toNat
        ++ [byte (s.chase.lead.val + 16 * s.tr.armed.toNat),
          byte ((match s.tr.punch with | some p => p.tracks.toNat | none => 0) + 16 * s.marks.length)]
        ++ two (s.fader.level + (if onAir then 2048 else 0) + 4096 * result)
        ++ [match s.fader.context with | some k => k.tag | none => 0,
          match activeRecord s with | some c => c.tag | none => 0,
          byte (s.cues.list.countP fun c => c.state = .waiting)]
        ++ two s.flags.toNat ++ [s.req.lastTag, s.req.count, 0]) ∧
  (∀ s : State, PositionsSound s → FaderSound s → CueListSound s → MarksSound s →
    -32768 ≤ s.pos.published.motion → s.pos.published.motion ≤ 32767 →
    (bulletinBytes s).length = 20 ∧ bulletinWellFormed (std s) (bulletinBytes s) = true
      ∧ readBulletin (bulletinBytes s)
        = { frame := s.pos.published.position / 512, phase := s.pos.published.position % 512
            quality := s.pos.published.quality, speed := s.pos.published.motion
            transport := transportState s, ready := s.chase.handed.ready
            tag := match s.fader.context with | some k => k.tag | none => 0 }) ∧
  (∀ s : State, SpeedSound s → s.tr.speedSent = true →
    ∃ hi lo : Byte, speedWordChars s = [hi, lo] ∧ (hi ++ lo).toInt = s.tr.speedWord)

/-! ### Invariants -/

/-- Every invariant below holds of the state after reset. -/
def Obligations.InvariantsHoldAtReset : Prop :=
  CountersHeld State.reset ∧ LinkSound State.reset ∧ MarksSound State.reset ∧ LockSound State.reset
    ∧ LeadSound State.reset ∧ PositionsSound State.reset ∧ CueListSound State.reset ∧ RecordSound State.reset
    ∧ FaderSound State.reset ∧ SpeedSound State.reset ∧ PortQuiet State.reset ∧ TimebaseSound State.reset ∧ FramesSound State.reset

/-- R94, R96, R146: the record lines are asserted only for an ACTIVE RECORD cue of a playing RECORDER in RUN. -/
def Obligations.RecordLinesStaySound : Prop :=
  ∀ s t : State, RecordSound s → step s = .next t → RecordSound t

/-- R125, R126: a LOCKED chase has the reference PRESENT and, except on a LIVE station, SERVO true. R112, R15: the lead is
the own station exactly while the chase is FREE, and the offset is a frame count. -/
def Obligations.LockAndLeadStaySound : Prop :=
  (∀ s t : State, LockSound s → step s = .next t → LockSound t) ∧
  (∀ s t : State, LeadSound s → step s = .next t → LeadSound t)

/-- R154, R162, R167: level, gain and softness stay within their ranges. -/
def Obligations.FaderStaysSound : Prop :=
  ∀ s t : State, FaderSound s → step s = .next t → FaderSound t

/-- R1, R12, R17: positions stay within the day, and VIRTUAL stays the quality of LIVE alone. R1, R60, R91, R120, R132:
the frames held in peer entries, marks, cues, a locate and the park frame stay frame counts of the standard. -/
def Obligations.PositionsStaySound : Prop :=
  (∀ s t : State, PositionsSound s → step s = .next t → PositionsSound t) ∧
  (∀ s t : State, PositionsSound s → FramesSound s → step s = .next t → FramesSound t)

/-- R40 to R46: the link keeps its queue, its register and its receiver sound. -/
def Obligations.LinkStaysSound : Prop :=
  ∀ s t : State, LinkSound s → step s = .next t → LinkSound t

/-- R180, R49, R110, R81: marks, counters and speeds stay within their ranges. R79: a released port sends no speed word.
R22, R27: the timebase count stays below the period, PRESENT leaves no boundary due, and the warm-up count stays within 16
(what is due is log 14). -/
def Obligations.StoresStayInRange : Prop :=
  ∀ s t : State, MarksSound s → CountersHeld s → SpeedSound s → PortQuiet s → TimebaseSound s → step s = .next t →
    MarksSound t ∧ CountersHeld t ∧ SpeedSound t ∧ PortQuiet t ∧ TimebaseSound t
end

