-- ==== Sys2Proof/Laws/State.lean ====
section
/-! SUPPORT. One lemma for each field of State and each update: what the update leaves in the field. -/

namespace Sys2Proof.Machine

section setPower
variable (s : State) (x : Power)
@[simp] theorem State.setPower_power : (s.setPower x).power = x := rfl
@[simp] theorem State.setPower_straps : (s.setPower x).straps = s.straps := rfl
@[simp] theorem State.setPower_pins : (s.setPower x).pins = s.pins := rfl
@[simp] theorem State.setPower_time : (s.setPower x).time = s.time := rfl
@[simp] theorem State.setPower_pos : (s.setPower x).pos = s.pos := rfl
@[simp] theorem State.setPower_peers : (s.setPower x).peers = s.peers := rfl
@[simp] theorem State.setPower_req : (s.setPower x).req = s.req := rfl
@[simp] theorem State.setPower_link : (s.setPower x).link = s.link := rfl
@[simp] theorem State.setPower_tr : (s.setPower x).tr = s.tr := rfl
@[simp] theorem State.setPower_chase : (s.setPower x).chase = s.chase := rfl
@[simp] theorem State.setPower_cues : (s.setPower x).cues = s.cues := rfl
@[simp] theorem State.setPower_fader : (s.setPower x).fader = s.fader := rfl
@[simp] theorem State.setPower_mix : (s.setPower x).mix = s.mix := rfl
@[simp] theorem State.setPower_gpi : (s.setPower x).gpi = s.gpi := rfl
@[simp] theorem State.setPower_marks : (s.setPower x).marks = s.marks := rfl
@[simp] theorem State.setPower_flags : (s.setPower x).flags = s.flags := rfl
@[simp] theorem State.setPower_choices : (s.setPower x).choices = s.choices := rfl
@[simp] theorem State.setPower_pending : (s.setPower x).pending = s.pending := rfl
@[simp] theorem State.setPower_self : s.setPower s.power = s := rfl
@[simp] theorem State.setPower_setPower (y : Power) : (s.setPower y).setPower x = s.setPower x := rfl
end setPower

section setStraps
variable (s : State) (x : Straps)
@[simp] theorem State.setStraps_power : (s.setStraps x).power = s.power := rfl
@[simp] theorem State.setStraps_straps : (s.setStraps x).straps = x := rfl
@[simp] theorem State.setStraps_pins : (s.setStraps x).pins = s.pins := rfl
@[simp] theorem State.setStraps_time : (s.setStraps x).time = s.time := rfl
@[simp] theorem State.setStraps_pos : (s.setStraps x).pos = s.pos := rfl
@[simp] theorem State.setStraps_peers : (s.setStraps x).peers = s.peers := rfl
@[simp] theorem State.setStraps_req : (s.setStraps x).req = s.req := rfl
@[simp] theorem State.setStraps_link : (s.setStraps x).link = s.link := rfl
@[simp] theorem State.setStraps_tr : (s.setStraps x).tr = s.tr := rfl
@[simp] theorem State.setStraps_chase : (s.setStraps x).chase = s.chase := rfl
@[simp] theorem State.setStraps_cues : (s.setStraps x).cues = s.cues := rfl
@[simp] theorem State.setStraps_fader : (s.setStraps x).fader = s.fader := rfl
@[simp] theorem State.setStraps_mix : (s.setStraps x).mix = s.mix := rfl
@[simp] theorem State.setStraps_gpi : (s.setStraps x).gpi = s.gpi := rfl
@[simp] theorem State.setStraps_marks : (s.setStraps x).marks = s.marks := rfl
@[simp] theorem State.setStraps_flags : (s.setStraps x).flags = s.flags := rfl
@[simp] theorem State.setStraps_choices : (s.setStraps x).choices = s.choices := rfl
@[simp] theorem State.setStraps_pending : (s.setStraps x).pending = s.pending := rfl
@[simp] theorem State.setStraps_self : s.setStraps s.straps = s := rfl
@[simp] theorem State.setStraps_setStraps (y : Straps) : (s.setStraps y).setStraps x = s.setStraps x := rfl
end setStraps

section setPins
variable (s : State) (x : Pins)
@[simp] theorem State.setPins_power : (s.setPins x).power = s.power := rfl
@[simp] theorem State.setPins_straps : (s.setPins x).straps = s.straps := rfl
@[simp] theorem State.setPins_pins : (s.setPins x).pins = x := rfl
@[simp] theorem State.setPins_time : (s.setPins x).time = s.time := rfl
@[simp] theorem State.setPins_pos : (s.setPins x).pos = s.pos := rfl
@[simp] theorem State.setPins_peers : (s.setPins x).peers = s.peers := rfl
@[simp] theorem State.setPins_req : (s.setPins x).req = s.req := rfl
@[simp] theorem State.setPins_link : (s.setPins x).link = s.link := rfl
@[simp] theorem State.setPins_tr : (s.setPins x).tr = s.tr := rfl
@[simp] theorem State.setPins_chase : (s.setPins x).chase = s.chase := rfl
@[simp] theorem State.setPins_cues : (s.setPins x).cues = s.cues := rfl
@[simp] theorem State.setPins_fader : (s.setPins x).fader = s.fader := rfl
@[simp] theorem State.setPins_mix : (s.setPins x).mix = s.mix := rfl
@[simp] theorem State.setPins_gpi : (s.setPins x).gpi = s.gpi := rfl
@[simp] theorem State.setPins_marks : (s.setPins x).marks = s.marks := rfl
@[simp] theorem State.setPins_flags : (s.setPins x).flags = s.flags := rfl
@[simp] theorem State.setPins_choices : (s.setPins x).choices = s.choices := rfl
@[simp] theorem State.setPins_pending : (s.setPins x).pending = s.pending := rfl
@[simp] theorem State.setPins_self : s.setPins s.pins = s := rfl
@[simp] theorem State.setPins_setPins (y : Pins) : (s.setPins y).setPins x = s.setPins x := rfl
end setPins

section setTime
variable (s : State) (x : Timebase)
@[simp] theorem State.setTime_power : (s.setTime x).power = s.power := rfl
@[simp] theorem State.setTime_straps : (s.setTime x).straps = s.straps := rfl
@[simp] theorem State.setTime_pins : (s.setTime x).pins = s.pins := rfl
@[simp] theorem State.setTime_time : (s.setTime x).time = x := rfl
@[simp] theorem State.setTime_pos : (s.setTime x).pos = s.pos := rfl
@[simp] theorem State.setTime_peers : (s.setTime x).peers = s.peers := rfl
@[simp] theorem State.setTime_req : (s.setTime x).req = s.req := rfl
@[simp] theorem State.setTime_link : (s.setTime x).link = s.link := rfl
@[simp] theorem State.setTime_tr : (s.setTime x).tr = s.tr := rfl
@[simp] theorem State.setTime_chase : (s.setTime x).chase = s.chase := rfl
@[simp] theorem State.setTime_cues : (s.setTime x).cues = s.cues := rfl
@[simp] theorem State.setTime_fader : (s.setTime x).fader = s.fader := rfl
@[simp] theorem State.setTime_mix : (s.setTime x).mix = s.mix := rfl
@[simp] theorem State.setTime_gpi : (s.setTime x).gpi = s.gpi := rfl
@[simp] theorem State.setTime_marks : (s.setTime x).marks = s.marks := rfl
@[simp] theorem State.setTime_flags : (s.setTime x).flags = s.flags := rfl
@[simp] theorem State.setTime_choices : (s.setTime x).choices = s.choices := rfl
@[simp] theorem State.setTime_pending : (s.setTime x).pending = s.pending := rfl
@[simp] theorem State.setTime_self : s.setTime s.time = s := rfl
@[simp] theorem State.setTime_setTime (y : Timebase) : (s.setTime y).setTime x = s.setTime x := rfl
end setTime

section setPos
variable (s : State) (x : Position)
@[simp] theorem State.setPos_power : (s.setPos x).power = s.power := rfl
@[simp] theorem State.setPos_straps : (s.setPos x).straps = s.straps := rfl
@[simp] theorem State.setPos_pins : (s.setPos x).pins = s.pins := rfl
@[simp] theorem State.setPos_time : (s.setPos x).time = s.time := rfl
@[simp] theorem State.setPos_pos : (s.setPos x).pos = x := rfl
@[simp] theorem State.setPos_peers : (s.setPos x).peers = s.peers := rfl
@[simp] theorem State.setPos_req : (s.setPos x).req = s.req := rfl
@[simp] theorem State.setPos_link : (s.setPos x).link = s.link := rfl
@[simp] theorem State.setPos_tr : (s.setPos x).tr = s.tr := rfl
@[simp] theorem State.setPos_chase : (s.setPos x).chase = s.chase := rfl
@[simp] theorem State.setPos_cues : (s.setPos x).cues = s.cues := rfl
@[simp] theorem State.setPos_fader : (s.setPos x).fader = s.fader := rfl
@[simp] theorem State.setPos_mix : (s.setPos x).mix = s.mix := rfl
@[simp] theorem State.setPos_gpi : (s.setPos x).gpi = s.gpi := rfl
@[simp] theorem State.setPos_marks : (s.setPos x).marks = s.marks := rfl
@[simp] theorem State.setPos_flags : (s.setPos x).flags = s.flags := rfl
@[simp] theorem State.setPos_choices : (s.setPos x).choices = s.choices := rfl
@[simp] theorem State.setPos_pending : (s.setPos x).pending = s.pending := rfl
@[simp] theorem State.setPos_self : s.setPos s.pos = s := rfl
@[simp] theorem State.setPos_setPos (y : Position) : (s.setPos y).setPos x = s.setPos x := rfl
end setPos

section setPeers
variable (s : State) (x : Vector PeerEntry 16)
@[simp] theorem State.setPeers_power : (s.setPeers x).power = s.power := rfl
@[simp] theorem State.setPeers_straps : (s.setPeers x).straps = s.straps := rfl
@[simp] theorem State.setPeers_pins : (s.setPeers x).pins = s.pins := rfl
@[simp] theorem State.setPeers_time : (s.setPeers x).time = s.time := rfl
@[simp] theorem State.setPeers_pos : (s.setPeers x).pos = s.pos := rfl
@[simp] theorem State.setPeers_peers : (s.setPeers x).peers = x := rfl
@[simp] theorem State.setPeers_req : (s.setPeers x).req = s.req := rfl
@[simp] theorem State.setPeers_link : (s.setPeers x).link = s.link := rfl
@[simp] theorem State.setPeers_tr : (s.setPeers x).tr = s.tr := rfl
@[simp] theorem State.setPeers_chase : (s.setPeers x).chase = s.chase := rfl
@[simp] theorem State.setPeers_cues : (s.setPeers x).cues = s.cues := rfl
@[simp] theorem State.setPeers_fader : (s.setPeers x).fader = s.fader := rfl
@[simp] theorem State.setPeers_mix : (s.setPeers x).mix = s.mix := rfl
@[simp] theorem State.setPeers_gpi : (s.setPeers x).gpi = s.gpi := rfl
@[simp] theorem State.setPeers_marks : (s.setPeers x).marks = s.marks := rfl
@[simp] theorem State.setPeers_flags : (s.setPeers x).flags = s.flags := rfl
@[simp] theorem State.setPeers_choices : (s.setPeers x).choices = s.choices := rfl
@[simp] theorem State.setPeers_pending : (s.setPeers x).pending = s.pending := rfl
@[simp] theorem State.setPeers_self : s.setPeers s.peers = s := rfl
@[simp] theorem State.setPeers_setPeers (y : Vector PeerEntry 16) : (s.setPeers y).setPeers x = s.setPeers x := rfl
end setPeers

section setReq
variable (s : State) (x : RequestUnit)
@[simp] theorem State.setReq_power : (s.setReq x).power = s.power := rfl
@[simp] theorem State.setReq_straps : (s.setReq x).straps = s.straps := rfl
@[simp] theorem State.setReq_pins : (s.setReq x).pins = s.pins := rfl
@[simp] theorem State.setReq_time : (s.setReq x).time = s.time := rfl
@[simp] theorem State.setReq_pos : (s.setReq x).pos = s.pos := rfl
@[simp] theorem State.setReq_peers : (s.setReq x).peers = s.peers := rfl
@[simp] theorem State.setReq_req : (s.setReq x).req = x := rfl
@[simp] theorem State.setReq_link : (s.setReq x).link = s.link := rfl
@[simp] theorem State.setReq_tr : (s.setReq x).tr = s.tr := rfl
@[simp] theorem State.setReq_chase : (s.setReq x).chase = s.chase := rfl
@[simp] theorem State.setReq_cues : (s.setReq x).cues = s.cues := rfl
@[simp] theorem State.setReq_fader : (s.setReq x).fader = s.fader := rfl
@[simp] theorem State.setReq_mix : (s.setReq x).mix = s.mix := rfl
@[simp] theorem State.setReq_gpi : (s.setReq x).gpi = s.gpi := rfl
@[simp] theorem State.setReq_marks : (s.setReq x).marks = s.marks := rfl
@[simp] theorem State.setReq_flags : (s.setReq x).flags = s.flags := rfl
@[simp] theorem State.setReq_choices : (s.setReq x).choices = s.choices := rfl
@[simp] theorem State.setReq_pending : (s.setReq x).pending = s.pending := rfl
@[simp] theorem State.setReq_self : s.setReq s.req = s := rfl
@[simp] theorem State.setReq_setReq (y : RequestUnit) : (s.setReq y).setReq x = s.setReq x := rfl
end setReq

section setLink
variable (s : State) (x : Link)
@[simp] theorem State.setLink_power : (s.setLink x).power = s.power := rfl
@[simp] theorem State.setLink_straps : (s.setLink x).straps = s.straps := rfl
@[simp] theorem State.setLink_pins : (s.setLink x).pins = s.pins := rfl
@[simp] theorem State.setLink_time : (s.setLink x).time = s.time := rfl
@[simp] theorem State.setLink_pos : (s.setLink x).pos = s.pos := rfl
@[simp] theorem State.setLink_peers : (s.setLink x).peers = s.peers := rfl
@[simp] theorem State.setLink_req : (s.setLink x).req = s.req := rfl
@[simp] theorem State.setLink_link : (s.setLink x).link = x := rfl
@[simp] theorem State.setLink_tr : (s.setLink x).tr = s.tr := rfl
@[simp] theorem State.setLink_chase : (s.setLink x).chase = s.chase := rfl
@[simp] theorem State.setLink_cues : (s.setLink x).cues = s.cues := rfl
@[simp] theorem State.setLink_fader : (s.setLink x).fader = s.fader := rfl
@[simp] theorem State.setLink_mix : (s.setLink x).mix = s.mix := rfl
@[simp] theorem State.setLink_gpi : (s.setLink x).gpi = s.gpi := rfl
@[simp] theorem State.setLink_marks : (s.setLink x).marks = s.marks := rfl
@[simp] theorem State.setLink_flags : (s.setLink x).flags = s.flags := rfl
@[simp] theorem State.setLink_choices : (s.setLink x).choices = s.choices := rfl
@[simp] theorem State.setLink_pending : (s.setLink x).pending = s.pending := rfl
@[simp] theorem State.setLink_self : s.setLink s.link = s := rfl
@[simp] theorem State.setLink_setLink (y : Link) : (s.setLink y).setLink x = s.setLink x := rfl
end setLink

section setTr
variable (s : State) (x : Transport)
@[simp] theorem State.setTr_power : (s.setTr x).power = s.power := rfl
@[simp] theorem State.setTr_straps : (s.setTr x).straps = s.straps := rfl
@[simp] theorem State.setTr_pins : (s.setTr x).pins = s.pins := rfl
@[simp] theorem State.setTr_time : (s.setTr x).time = s.time := rfl
@[simp] theorem State.setTr_pos : (s.setTr x).pos = s.pos := rfl
@[simp] theorem State.setTr_peers : (s.setTr x).peers = s.peers := rfl
@[simp] theorem State.setTr_req : (s.setTr x).req = s.req := rfl
@[simp] theorem State.setTr_link : (s.setTr x).link = s.link := rfl
@[simp] theorem State.setTr_tr : (s.setTr x).tr = x := rfl
@[simp] theorem State.setTr_chase : (s.setTr x).chase = s.chase := rfl
@[simp] theorem State.setTr_cues : (s.setTr x).cues = s.cues := rfl
@[simp] theorem State.setTr_fader : (s.setTr x).fader = s.fader := rfl
@[simp] theorem State.setTr_mix : (s.setTr x).mix = s.mix := rfl
@[simp] theorem State.setTr_gpi : (s.setTr x).gpi = s.gpi := rfl
@[simp] theorem State.setTr_marks : (s.setTr x).marks = s.marks := rfl
@[simp] theorem State.setTr_flags : (s.setTr x).flags = s.flags := rfl
@[simp] theorem State.setTr_choices : (s.setTr x).choices = s.choices := rfl
@[simp] theorem State.setTr_pending : (s.setTr x).pending = s.pending := rfl
@[simp] theorem State.setTr_self : s.setTr s.tr = s := rfl
@[simp] theorem State.setTr_setTr (y : Transport) : (s.setTr y).setTr x = s.setTr x := rfl
end setTr

section setChase
variable (s : State) (x : Chase)
@[simp] theorem State.setChase_power : (s.setChase x).power = s.power := rfl
@[simp] theorem State.setChase_straps : (s.setChase x).straps = s.straps := rfl
@[simp] theorem State.setChase_pins : (s.setChase x).pins = s.pins := rfl
@[simp] theorem State.setChase_time : (s.setChase x).time = s.time := rfl
@[simp] theorem State.setChase_pos : (s.setChase x).pos = s.pos := rfl
@[simp] theorem State.setChase_peers : (s.setChase x).peers = s.peers := rfl
@[simp] theorem State.setChase_req : (s.setChase x).req = s.req := rfl
@[simp] theorem State.setChase_link : (s.setChase x).link = s.link := rfl
@[simp] theorem State.setChase_tr : (s.setChase x).tr = s.tr := rfl
@[simp] theorem State.setChase_chase : (s.setChase x).chase = x := rfl
@[simp] theorem State.setChase_cues : (s.setChase x).cues = s.cues := rfl
@[simp] theorem State.setChase_fader : (s.setChase x).fader = s.fader := rfl
@[simp] theorem State.setChase_mix : (s.setChase x).mix = s.mix := rfl
@[simp] theorem State.setChase_gpi : (s.setChase x).gpi = s.gpi := rfl
@[simp] theorem State.setChase_marks : (s.setChase x).marks = s.marks := rfl
@[simp] theorem State.setChase_flags : (s.setChase x).flags = s.flags := rfl
@[simp] theorem State.setChase_choices : (s.setChase x).choices = s.choices := rfl
@[simp] theorem State.setChase_pending : (s.setChase x).pending = s.pending := rfl
@[simp] theorem State.setChase_self : s.setChase s.chase = s := rfl
@[simp] theorem State.setChase_setChase (y : Chase) : (s.setChase y).setChase x = s.setChase x := rfl
end setChase

section setCues
variable (s : State) (x : CueEngine)
@[simp] theorem State.setCues_power : (s.setCues x).power = s.power := rfl
@[simp] theorem State.setCues_straps : (s.setCues x).straps = s.straps := rfl
@[simp] theorem State.setCues_pins : (s.setCues x).pins = s.pins := rfl
@[simp] theorem State.setCues_time : (s.setCues x).time = s.time := rfl
@[simp] theorem State.setCues_pos : (s.setCues x).pos = s.pos := rfl
@[simp] theorem State.setCues_peers : (s.setCues x).peers = s.peers := rfl
@[simp] theorem State.setCues_req : (s.setCues x).req = s.req := rfl
@[simp] theorem State.setCues_link : (s.setCues x).link = s.link := rfl
@[simp] theorem State.setCues_tr : (s.setCues x).tr = s.tr := rfl
@[simp] theorem State.setCues_chase : (s.setCues x).chase = s.chase := rfl
@[simp] theorem State.setCues_cues : (s.setCues x).cues = x := rfl
@[simp] theorem State.setCues_fader : (s.setCues x).fader = s.fader := rfl
@[simp] theorem State.setCues_mix : (s.setCues x).mix = s.mix := rfl
@[simp] theorem State.setCues_gpi : (s.setCues x).gpi = s.gpi := rfl
@[simp] theorem State.setCues_marks : (s.setCues x).marks = s.marks := rfl
@[simp] theorem State.setCues_flags : (s.setCues x).flags = s.flags := rfl
@[simp] theorem State.setCues_choices : (s.setCues x).choices = s.choices := rfl
@[simp] theorem State.setCues_pending : (s.setCues x).pending = s.pending := rfl
@[simp] theorem State.setCues_self : s.setCues s.cues = s := rfl
@[simp] theorem State.setCues_setCues (y : CueEngine) : (s.setCues y).setCues x = s.setCues x := rfl
end setCues

section setFader
variable (s : State) (x : Fader)
@[simp] theorem State.setFader_power : (s.setFader x).power = s.power := rfl
@[simp] theorem State.setFader_straps : (s.setFader x).straps = s.straps := rfl
@[simp] theorem State.setFader_pins : (s.setFader x).pins = s.pins := rfl
@[simp] theorem State.setFader_time : (s.setFader x).time = s.time := rfl
@[simp] theorem State.setFader_pos : (s.setFader x).pos = s.pos := rfl
@[simp] theorem State.setFader_peers : (s.setFader x).peers = s.peers := rfl
@[simp] theorem State.setFader_req : (s.setFader x).req = s.req := rfl
@[simp] theorem State.setFader_link : (s.setFader x).link = s.link := rfl
@[simp] theorem State.setFader_tr : (s.setFader x).tr = s.tr := rfl
@[simp] theorem State.setFader_chase : (s.setFader x).chase = s.chase := rfl
@[simp] theorem State.setFader_cues : (s.setFader x).cues = s.cues := rfl
@[simp] theorem State.setFader_fader : (s.setFader x).fader = x := rfl
@[simp] theorem State.setFader_mix : (s.setFader x).mix = s.mix := rfl
@[simp] theorem State.setFader_gpi : (s.setFader x).gpi = s.gpi := rfl
@[simp] theorem State.setFader_marks : (s.setFader x).marks = s.marks := rfl
@[simp] theorem State.setFader_flags : (s.setFader x).flags = s.flags := rfl
@[simp] theorem State.setFader_choices : (s.setFader x).choices = s.choices := rfl
@[simp] theorem State.setFader_pending : (s.setFader x).pending = s.pending := rfl
@[simp] theorem State.setFader_self : s.setFader s.fader = s := rfl
@[simp] theorem State.setFader_setFader (y : Fader) : (s.setFader y).setFader x = s.setFader x := rfl
end setFader

section setMix
variable (s : State) (x : Mix)
@[simp] theorem State.setMix_power : (s.setMix x).power = s.power := rfl
@[simp] theorem State.setMix_straps : (s.setMix x).straps = s.straps := rfl
@[simp] theorem State.setMix_pins : (s.setMix x).pins = s.pins := rfl
@[simp] theorem State.setMix_time : (s.setMix x).time = s.time := rfl
@[simp] theorem State.setMix_pos : (s.setMix x).pos = s.pos := rfl
@[simp] theorem State.setMix_peers : (s.setMix x).peers = s.peers := rfl
@[simp] theorem State.setMix_req : (s.setMix x).req = s.req := rfl
@[simp] theorem State.setMix_link : (s.setMix x).link = s.link := rfl
@[simp] theorem State.setMix_tr : (s.setMix x).tr = s.tr := rfl
@[simp] theorem State.setMix_chase : (s.setMix x).chase = s.chase := rfl
@[simp] theorem State.setMix_cues : (s.setMix x).cues = s.cues := rfl
@[simp] theorem State.setMix_fader : (s.setMix x).fader = s.fader := rfl
@[simp] theorem State.setMix_mix : (s.setMix x).mix = x := rfl
@[simp] theorem State.setMix_gpi : (s.setMix x).gpi = s.gpi := rfl
@[simp] theorem State.setMix_marks : (s.setMix x).marks = s.marks := rfl
@[simp] theorem State.setMix_flags : (s.setMix x).flags = s.flags := rfl
@[simp] theorem State.setMix_choices : (s.setMix x).choices = s.choices := rfl
@[simp] theorem State.setMix_pending : (s.setMix x).pending = s.pending := rfl
@[simp] theorem State.setMix_self : s.setMix s.mix = s := rfl
@[simp] theorem State.setMix_setMix (y : Mix) : (s.setMix y).setMix x = s.setMix x := rfl
end setMix

section setGpi
variable (s : State) (x : Gpi)
@[simp] theorem State.setGpi_power : (s.setGpi x).power = s.power := rfl
@[simp] theorem State.setGpi_straps : (s.setGpi x).straps = s.straps := rfl
@[simp] theorem State.setGpi_pins : (s.setGpi x).pins = s.pins := rfl
@[simp] theorem State.setGpi_time : (s.setGpi x).time = s.time := rfl
@[simp] theorem State.setGpi_pos : (s.setGpi x).pos = s.pos := rfl
@[simp] theorem State.setGpi_peers : (s.setGpi x).peers = s.peers := rfl
@[simp] theorem State.setGpi_req : (s.setGpi x).req = s.req := rfl
@[simp] theorem State.setGpi_link : (s.setGpi x).link = s.link := rfl
@[simp] theorem State.setGpi_tr : (s.setGpi x).tr = s.tr := rfl
@[simp] theorem State.setGpi_chase : (s.setGpi x).chase = s.chase := rfl
@[simp] theorem State.setGpi_cues : (s.setGpi x).cues = s.cues := rfl
@[simp] theorem State.setGpi_fader : (s.setGpi x).fader = s.fader := rfl
@[simp] theorem State.setGpi_mix : (s.setGpi x).mix = s.mix := rfl
@[simp] theorem State.setGpi_gpi : (s.setGpi x).gpi = x := rfl
@[simp] theorem State.setGpi_marks : (s.setGpi x).marks = s.marks := rfl
@[simp] theorem State.setGpi_flags : (s.setGpi x).flags = s.flags := rfl
@[simp] theorem State.setGpi_choices : (s.setGpi x).choices = s.choices := rfl
@[simp] theorem State.setGpi_pending : (s.setGpi x).pending = s.pending := rfl
@[simp] theorem State.setGpi_self : s.setGpi s.gpi = s := rfl
@[simp] theorem State.setGpi_setGpi (y : Gpi) : (s.setGpi y).setGpi x = s.setGpi x := rfl
end setGpi

section setMarks
variable (s : State) (x : List Mark)
@[simp] theorem State.setMarks_power : (s.setMarks x).power = s.power := rfl
@[simp] theorem State.setMarks_straps : (s.setMarks x).straps = s.straps := rfl
@[simp] theorem State.setMarks_pins : (s.setMarks x).pins = s.pins := rfl
@[simp] theorem State.setMarks_time : (s.setMarks x).time = s.time := rfl
@[simp] theorem State.setMarks_pos : (s.setMarks x).pos = s.pos := rfl
@[simp] theorem State.setMarks_peers : (s.setMarks x).peers = s.peers := rfl
@[simp] theorem State.setMarks_req : (s.setMarks x).req = s.req := rfl
@[simp] theorem State.setMarks_link : (s.setMarks x).link = s.link := rfl
@[simp] theorem State.setMarks_tr : (s.setMarks x).tr = s.tr := rfl
@[simp] theorem State.setMarks_chase : (s.setMarks x).chase = s.chase := rfl
@[simp] theorem State.setMarks_cues : (s.setMarks x).cues = s.cues := rfl
@[simp] theorem State.setMarks_fader : (s.setMarks x).fader = s.fader := rfl
@[simp] theorem State.setMarks_mix : (s.setMarks x).mix = s.mix := rfl
@[simp] theorem State.setMarks_gpi : (s.setMarks x).gpi = s.gpi := rfl
@[simp] theorem State.setMarks_marks : (s.setMarks x).marks = x := rfl
@[simp] theorem State.setMarks_flags : (s.setMarks x).flags = s.flags := rfl
@[simp] theorem State.setMarks_choices : (s.setMarks x).choices = s.choices := rfl
@[simp] theorem State.setMarks_pending : (s.setMarks x).pending = s.pending := rfl
@[simp] theorem State.setMarks_self : s.setMarks s.marks = s := rfl
@[simp] theorem State.setMarks_setMarks (y : List Mark) : (s.setMarks y).setMarks x = s.setMarks x := rfl
end setMarks

section setFlags
variable (s : State) (x : BitVec 13)
@[simp] theorem State.setFlags_power : (s.setFlags x).power = s.power := rfl
@[simp] theorem State.setFlags_straps : (s.setFlags x).straps = s.straps := rfl
@[simp] theorem State.setFlags_pins : (s.setFlags x).pins = s.pins := rfl
@[simp] theorem State.setFlags_time : (s.setFlags x).time = s.time := rfl
@[simp] theorem State.setFlags_pos : (s.setFlags x).pos = s.pos := rfl
@[simp] theorem State.setFlags_peers : (s.setFlags x).peers = s.peers := rfl
@[simp] theorem State.setFlags_req : (s.setFlags x).req = s.req := rfl
@[simp] theorem State.setFlags_link : (s.setFlags x).link = s.link := rfl
@[simp] theorem State.setFlags_tr : (s.setFlags x).tr = s.tr := rfl
@[simp] theorem State.setFlags_chase : (s.setFlags x).chase = s.chase := rfl
@[simp] theorem State.setFlags_cues : (s.setFlags x).cues = s.cues := rfl
@[simp] theorem State.setFlags_fader : (s.setFlags x).fader = s.fader := rfl
@[simp] theorem State.setFlags_mix : (s.setFlags x).mix = s.mix := rfl
@[simp] theorem State.setFlags_gpi : (s.setFlags x).gpi = s.gpi := rfl
@[simp] theorem State.setFlags_marks : (s.setFlags x).marks = s.marks := rfl
@[simp] theorem State.setFlags_flags : (s.setFlags x).flags = x := rfl
@[simp] theorem State.setFlags_choices : (s.setFlags x).choices = s.choices := rfl
@[simp] theorem State.setFlags_pending : (s.setFlags x).pending = s.pending := rfl
@[simp] theorem State.setFlags_self : s.setFlags s.flags = s := rfl
@[simp] theorem State.setFlags_setFlags (y : BitVec 13) : (s.setFlags y).setFlags x = s.setFlags x := rfl
end setFlags

section setChoices
variable (s : State) (x : Nat)
@[simp] theorem State.setChoices_power : (s.setChoices x).power = s.power := rfl
@[simp] theorem State.setChoices_straps : (s.setChoices x).straps = s.straps := rfl
@[simp] theorem State.setChoices_pins : (s.setChoices x).pins = s.pins := rfl
@[simp] theorem State.setChoices_time : (s.setChoices x).time = s.time := rfl
@[simp] theorem State.setChoices_pos : (s.setChoices x).pos = s.pos := rfl
@[simp] theorem State.setChoices_peers : (s.setChoices x).peers = s.peers := rfl
@[simp] theorem State.setChoices_req : (s.setChoices x).req = s.req := rfl
@[simp] theorem State.setChoices_link : (s.setChoices x).link = s.link := rfl
@[simp] theorem State.setChoices_tr : (s.setChoices x).tr = s.tr := rfl
@[simp] theorem State.setChoices_chase : (s.setChoices x).chase = s.chase := rfl
@[simp] theorem State.setChoices_cues : (s.setChoices x).cues = s.cues := rfl
@[simp] theorem State.setChoices_fader : (s.setChoices x).fader = s.fader := rfl
@[simp] theorem State.setChoices_mix : (s.setChoices x).mix = s.mix := rfl
@[simp] theorem State.setChoices_gpi : (s.setChoices x).gpi = s.gpi := rfl
@[simp] theorem State.setChoices_marks : (s.setChoices x).marks = s.marks := rfl
@[simp] theorem State.setChoices_flags : (s.setChoices x).flags = s.flags := rfl
@[simp] theorem State.setChoices_choices : (s.setChoices x).choices = x := rfl
@[simp] theorem State.setChoices_pending : (s.setChoices x).pending = s.pending := rfl
@[simp] theorem State.setChoices_self : s.setChoices s.choices = s := rfl
@[simp] theorem State.setChoices_setChoices (y : Nat) : (s.setChoices y).setChoices x = s.setChoices x := rfl
end setChoices

section setPending
variable (s : State) (x : List Instr)
@[simp] theorem State.setPending_power : (s.setPending x).power = s.power := rfl
@[simp] theorem State.setPending_straps : (s.setPending x).straps = s.straps := rfl
@[simp] theorem State.setPending_pins : (s.setPending x).pins = s.pins := rfl
@[simp] theorem State.setPending_time : (s.setPending x).time = s.time := rfl
@[simp] theorem State.setPending_pos : (s.setPending x).pos = s.pos := rfl
@[simp] theorem State.setPending_peers : (s.setPending x).peers = s.peers := rfl
@[simp] theorem State.setPending_req : (s.setPending x).req = s.req := rfl
@[simp] theorem State.setPending_link : (s.setPending x).link = s.link := rfl
@[simp] theorem State.setPending_tr : (s.setPending x).tr = s.tr := rfl
@[simp] theorem State.setPending_chase : (s.setPending x).chase = s.chase := rfl
@[simp] theorem State.setPending_cues : (s.setPending x).cues = s.cues := rfl
@[simp] theorem State.setPending_fader : (s.setPending x).fader = s.fader := rfl
@[simp] theorem State.setPending_mix : (s.setPending x).mix = s.mix := rfl
@[simp] theorem State.setPending_gpi : (s.setPending x).gpi = s.gpi := rfl
@[simp] theorem State.setPending_marks : (s.setPending x).marks = s.marks := rfl
@[simp] theorem State.setPending_flags : (s.setPending x).flags = s.flags := rfl
@[simp] theorem State.setPending_choices : (s.setPending x).choices = s.choices := rfl
@[simp] theorem State.setPending_pending : (s.setPending x).pending = x := rfl
@[simp] theorem State.setPending_self : s.setPending s.pending = s := rfl
@[simp] theorem State.setPending_setPending (y : List Instr) : (s.setPending y).setPending x = s.setPending x := rfl
end setPending

/-- Two states that agree in every field are equal. -/
theorem State.eq_of_fields {s t : State}
    (h0 : s.power = t.power) (h1 : s.straps = t.straps) (h2 : s.pins = t.pins)
    (h3 : s.time = t.time) (h4 : s.pos = t.pos) (h5 : s.peers = t.peers)
    (h6 : s.req = t.req) (h7 : s.link = t.link) (h8 : s.tr = t.tr)
    (h9 : s.chase = t.chase) (h10 : s.cues = t.cues) (h11 : s.fader = t.fader)
    (h12 : s.mix = t.mix) (h13 : s.gpi = t.gpi) (h14 : s.marks = t.marks)
    (h15 : s.flags = t.flags) (h16 : s.choices = t.choices) (h17 : s.pending = t.pending) :
    s = t := by
  cases s; cases t; simp_all

end Sys2Proof.Machine
end

