-- ==== Sys2Proof/Laws/Ops.lean ====
section
/-! SUPPORT. What each shared operation of Flags and Ops can change, and what it does: one lemma for each, cited in place
of its definition. -/

namespace Sys2Proof.Machine

/-! ### RUN and HOLD -/

theorem inRun_of_running {s : State} (f : State → State) (h : s.power.supervisor = .run) :
    inRun f s = .next (f s) := by simp [inRun, h]

theorem inRun_of_hold {s : State} (f : State → State) (h : s.power.supervisor = .hold) : inRun f s = .next s := by
  simp [inRun, h]

theorem inRun_answers_next (f : State → State) (s : State) : ∃ t, inRun f s = .next t ∧ (t = s ∨ t = f s) := by
  unfold inRun; split
  · exact ⟨_, rfl, Or.inr rfl⟩
  · exact ⟨_, rfl, Or.inl rfl⟩

/-! ### Flags -/

theorem setFlag_touches (f : Flag) (s : State) : setFlag f s = s.setFlags (s.flags ||| f.mask) := rfl

@[simp] theorem hasFlag_setFlag_self (f : Flag) (s : State) : hasFlag (setFlag f s) f = true := by
  cases f <;> simp [hasFlag, setFlag, Flag.mask, Flag.number]

theorem hasFlag_setFlag_other {f g : Flag} (s : State) (h : g ≠ f) : hasFlag (setFlag f s) g = hasFlag s g := by
  cases f <;> cases g <;> first
    | exact absurd rfl h
    | simp [hasFlag, setFlag, Flag.mask, Flag.number]

theorem hasFlag_setFlag_mono {f g : Flag} {s : State} (h : hasFlag s g = true) : hasFlag (setFlag f s) g = true := by
  by_cases e : g = f
  · subst e; exact hasFlag_setFlag_self g s
  · rw [hasFlag_setFlag_other s e]; exact h

theorem bumpCounter_le {n : Nat} (h : n ≤ 65535) : bumpCounter n ≤ 65535 := by unfold bumpCounter; split <;> omega

theorem bumpCounterBy_le (k : Nat) {n : Nat} (h : n ≤ 65535) : bumpCounterBy k n ≤ 65535 := by
  induction k generalizing n with
  | zero => exact h
  | succ k ih => exact ih (bumpCounter_le h)

/-! ### Cues and record lines -/

theorem updateCues_touches (pick : Cue → Bool) (f : Cue → Cue) (s : State) :
    updateCues pick f s
      = s.setCues { s.cues with list := s.cues.list.map fun c => if pick c then f c else c } := rfl

theorem abortActiveRecord_touches (s : State) :
    ∃ a b, abortActiveRecord s = (s.setCues a).setFlags b := by
  unfold abortActiveRecord; split
  · exact ⟨_, _, rfl⟩
  · exact ⟨s.cues, s.flags, rfl⟩

theorem endActiveRecord_touches (s : State) : ∃ a, endActiveRecord s = s.setCues a := ⟨_, rfl⟩

theorem punchOut_touches (s : State) : punchOut s = s.setTr { s.tr with punch := none } := rfl

theorem breakRecord_touches (s : State) :
    ∃ p b c, breakRecord s = ((s.setTr { s.tr with punch := p }).setCues b).setFlags c := by
  unfold breakRecord; split
  · obtain ⟨a, b, h⟩ := abortActiveRecord_touches (punchOut s)
    exact ⟨none, a, b, h⟩
  · exact ⟨s.tr.punch, s.cues, s.flags, rfl⟩

/-- The transport state does not depend on the record lines. -/
theorem transportState_setPunch (p : Option Punch) (s : State) :
    transportState (s.setTr { s.tr with punch := p }) = transportState s := rfl

/-- After `breakRecord` the lines are asserted only in PLAY. -/
theorem breakRecord_punch (s : State) :
    (breakRecord s).tr.punch = if transportState s = .play then s.tr.punch else none := by
  unfold breakRecord
  cases hp : s.tr.punch with
  | none => simp [hp]
  | some p =>
    by_cases h : transportState s = .play
    · simp [h, hp]
    · obtain ⟨a, b, e⟩ := abortActiveRecord_touches (punchOut s)
      simp [h, e]; rfl

/-- Every ACTIVE RECORD cue finished: none is left. -/
theorem finished_not_recording (state : CueState) (fc : Word16) (cs : List Cue) (h : state ≠ .active) :
    (cs.map fun c => if c.recording then c.finishAs state fc else c).find? Cue.recording = none := by
  rw [List.find?_eq_none]
  intro c hc
  obtain ⟨d, -, rfl⟩ := List.mem_map.mp hc
  by_cases hd : d.recording = true
  · rw [if_pos hd]; simp [Cue.finishAs, Cue.recording, h]
  · rw [if_neg hd]; exact hd

theorem abortActiveRecord_none (s : State) : activeRecord (abortActiveRecord s) = none := by
  unfold abortActiveRecord; split
  · exact finished_not_recording .aborted s.time.fieldCount s.cues.list (by simp)
  · rename_i h; simpa using h

theorem endActiveRecord_none (s : State) : activeRecord (endActiveRecord s) = none :=
  finished_not_recording .done s.time.fieldCount s.cues.list (by simp)

/-- Reporting a broken record sets no flag but CUE_ABORTED and clears none. -/
theorem abortActiveRecord_flag (f : Flag) (s : State) (h : f ≠ .cueAborted) :
    hasFlag (abortActiveRecord s) f = hasFlag s f := by
  unfold abortActiveRecord; split
  · rw [hasFlag_setFlag_other _ h]; rfl
  · rfl

/-- All that `breakRecord` does: in PLAY nothing; elsewhere the lines are released and no RECORD cue is left ACTIVE
behind asserted ones; no flag but CUE_ABORTED moves. -/
theorem breakRecord_spec (s : State) :
    (transportState s = .play → breakRecord s = s)
      ∧ (s.tr.punch = none → breakRecord s = s)
      ∧ (∃ b c, breakRecord s = ((s.setTr (breakRecord s).tr).setCues b).setFlags c)
      ∧ (breakRecord s).tr
          = { s.tr with punch := if transportState s = .play then s.tr.punch else none }
      ∧ (transportState s ≠ .play → s.tr.punch.isSome = true → activeRecord (breakRecord s) = none)
      ∧ ∀ f, f ≠ .cueAborted → hasFlag (breakRecord s) f = hasFlag s f := by
  obtain ⟨p, b, c, e⟩ := breakRecord_touches s
  have hp := breakRecord_punch s
  refine ⟨?_, ?_, ⟨b, c, ?_⟩, ?_, ?_, ?_⟩
  · intro h; simp [breakRecord, h]
  · intro h; simp [breakRecord, h]
  · rw [e]; rfl
  · rw [← hp, e]; rfl
  · intro h hs
    rw [breakRecord, if_pos (by simp [hs, h])]
    exact abortActiveRecord_none _
  · intro f hf
    unfold breakRecord; split
    · rw [abortActiveRecord_flag f _ hf]; rfl
    · rfl

theorem punchIn_touches (tracks : Tracks) (s : State) :
    ∃ p, punchIn tracks s = s.setTr { s.tr with punch := p } := by
  unfold punchIn; split
  · exact ⟨_, rfl⟩
  · exact ⟨_, rfl⟩
  · exact ⟨s.tr.punch, rfl⟩

/-! ### Chase -/

theorem freeChase_touches (s : State) : ∃ a, freeChase s = s.setChase a := ⟨_, rfl⟩

theorem disableChase_touches (s : State) : ∃ a, disableChase s = s.setChase a := by
  unfold disableChase; split
  · exact ⟨s.chase, rfl⟩
  · exact freeChase_touches s

/-- After a disable the chase is FREE (R86, R114). -/
theorem disableChase_free (s : State) : (disableChase s).chase.state = .free := by
  unfold disableChase; split
  · assumption
  · rfl

theorem loseLock_touches (s : State) : ∃ a, loseLock s = s.setChase a := by
  unfold loseLock; split
  · exact ⟨_, rfl⟩
  · exact ⟨s.chase, rfl⟩

theorem loseLock_not_locked (s : State) : (loseLock s).chase.state ≠ .locked := by
  unfold loseLock; split
  · simp
  · assumption

/-! ### Transport commands -/

theorem takeCommand_touches (c : Command) (s : State) :
    ∃ a b d, takeCommand c s = ((s.setTr a).setCues b).setFlags d := by
  unfold takeCommand; split
  · obtain ⟨p, b, d, h⟩ := breakRecord_touches
      (s.setTr { s.tr with command := c, locate := none, parkedMark := markAfter s.tr.parkedMark c })
    exact ⟨_, _, _, h⟩
  · exact ⟨s.tr, s.cues, s.flags, rfl⟩

/-- A command a deck does not take changes nothing (R87). -/
theorem takeCommand_of_not_ready {c : Command} {s : State} (h : deckReady s = false) : takeCommand c s = s := by
  simp [takeCommand, h]

/-- A command a deck takes (R87): it becomes the command, cancels a locate, and leaves the arms and the timers. -/
theorem takeCommand_tr {c : Command} {s : State} (h : deckReady s = true) :
    ∃ p, (takeCommand c s).tr
      = { s.tr with
          command := c, locate := none, parkedMark := markAfter s.tr.parkedMark c, punch := p } := by
  obtain ⟨p, b, d, e⟩ := breakRecord_touches
    (s.setTr { s.tr with command := c, locate := none, parkedMark := markAfter s.tr.parkedMark c })
  exact ⟨p, by simp [takeCommand, h, e]⟩

/-- The port is driven by the supply, the role and two lines alone, whatever the drive is (R79). -/
theorem drive_isSome (s : State) :
    (drive s).isSome = true
      ↔ s.power.supervisor = .run ∧ isDeck s = true ∧ (s.pins.threaded = false ∨ s.pins.localOn = false) := by
  unfold drive isDeck
  cases hp : s.power.supervisor <;> cases hr : role s <;> cases ht : s.pins.threaded <;> cases hl : s.pins.localOn <;>
    simp

theorem giveLocate_touches (skips : Option Word16) (target : Nat) (s : State) :
    ∃ a b d, giveLocate skips target s = ((s.setTr a).setCues b).setFlags d := by
  unfold giveLocate; split
  · cases hl : s.tr.locate with
    | some l => exact ⟨{ s.tr with locate := some (l.retarget skips target) }, s.cues, s.flags, rfl⟩
    | none =>
      obtain ⟨p, b, d, e⟩ := breakRecord_touches
        (s.setTr
          { s.tr with
            locate := some (Locate.start skips target s.pos.record.quality s.tr.command), parkedMark := false })
      exact ⟨_, _, _, e⟩
  · exact ⟨s.tr, s.cues, s.flags, rfl⟩

theorem takeLocate_touches (target : Nat) (s : State) :
    ∃ a b d, takeLocate target s = ((s.setTr a).setCues b).setFlags d := giveLocate_touches _ target s

theorem commandStop_touches (s : State) :
    ∃ x a b d, commandStop s = (((s.setChase x).setTr a).setCues b).setFlags d := by
  obtain ⟨x, hx⟩ := disableChase_touches s
  obtain ⟨a, b, d, h⟩ := takeCommand_touches .stop (disableChase s)
  exact ⟨x, a, b, d, by rw [commandStop, h, hx]⟩

theorem noteParkEnd_touches (target : Nat) (s : State) :
    noteParkEnd target s
      = s.setChase
          (if s.chase.parkFrame = some target then { s.chase with parkDone := true } else s.chase) := by
  unfold noteParkEnd; split <;> rfl

theorem locateSucceed_touches (l : Locate) (s : State) :
    locateSucceed l s
      = (s.setTr { s.tr with command := .stop, locate := none, parkedMark := true }).setChase
          (if s.chase.parkFrame = some l.target then { s.chase with parkDone := true } else s.chase) := by
  rw [locateSucceed, noteParkEnd_touches]; rfl

theorem locateFail_touches (l : Locate) (s : State) :
    locateFail l s
      = ((s.setTr { s.tr with command := .stop, locate := none, parkedMark := false }).setChase
          (if s.chase.parkFrame = some l.target then { s.chase with parkDone := true } else s.chase)).setFlags
          (s.flags ||| Flag.locateFail.mask) := by
  rw [locateFail, setFlag_touches, noteParkEnd_touches]; rfl

/-! ### Marks -/

theorem pushMark_touches (origin : Origin) (s : State) :
    ∃ a b, pushMark origin s = (s.setMarks a).setFlags b := by
  unfold pushMark; dsimp only; split
  · exact ⟨s.marks, s.flags, rfl⟩
  · split
    · exact ⟨_, _, rfl⟩
    · exact ⟨_, _, (State.setFlags_self _).symm⟩

/-- A push keeps the stack within 8 entries, none of quality NONE (R180). -/
theorem pushMark_sound (origin : Origin) {s : State} (h : s.marks.length ≤ 8)
    (hq : ∀ m ∈ s.marks, m.quality ≠ .none) :
    (pushMark origin s).marks.length ≤ 8 ∧ ∀ m ∈ (pushMark origin s).marks, m.quality ≠ .none := by
  unfold pushMark; dsimp only
  split
  · exact ⟨h, hq⟩
  · rename_i hn
    split
    · refine ⟨by simp [setFlag], ?_⟩
      intro m hm
      simp only [setFlag, State.setFlags_marks, State.setMarks_marks, List.mem_cons] at hm
      rcases hm with rfl | hm
      · exact hn
      · exact hq m (List.mem_of_mem_take hm)
    · refine ⟨by simp; omega, ?_⟩
      intro m hm
      simp only [State.setMarks_marks, List.mem_cons] at hm
      rcases hm with rfl | hm
      · exact hn
      · exact hq m hm

end Sys2Proof.Machine
end

