-- ==== Sys2Proof/Laws/Fader.lean ====
section
/-! SUPPORT. What the Source Fader's operations can change. -/

namespace Sys2Proof.Machine

theorem sendMix_touches (s : State) : ∃ a, sendMix s = s.setMix a := by
  unfold sendMix
  split
  · split
    · exact ⟨_, rfl⟩
    · exact ⟨_, rfl⟩
  · exact ⟨s.mix, rfl⟩

theorem endMixRecord_touches (s : State) : ∃ a, endMixRecord s = s.setMix a := by
  unfold endMixRecord
  split
  · exact ⟨s.mix, rfl⟩
  · split
    · exact ⟨_, rfl⟩
    · exact ⟨_, rfl⟩

/-- A started port has a record on its way after `sendMix`. -/
theorem sendMix_sending {s : State} (h : s.mix.started = true) : (sendMix s).mix.sending.isSome = true := by
  unfold sendMix
  rw [if_pos h]
  split
  · rfl
  · rename_i m hm
    change s.mix.sending.isSome = true
    rw [hm]; rfl

theorem formValues_touches (s : State) : ∃ a, formValues s = s.setFader a := by
  unfold formValues
  split
  · exact ⟨s.fader, rfl⟩
  · exact ⟨_, rfl⟩

theorem reportComplete_touches (tag : Byte) (s : State) :
    ∃ cs, reportComplete tag s = s.setCues { s.cues with list := cs } := by
  unfold reportComplete
  split
  · exact ⟨s.cues.list, rfl⟩
  · exact ⟨_, rfl⟩

theorem completeContext_touches (s : State) :
    ∃ a cs, completeContext s = (s.setFader a).setCues { s.cues with list := cs } := by
  unfold completeContext
  split
  · exact ⟨s.fader, s.cues.list, rfl⟩
  · rename_i c _
    obtain ⟨cs, h⟩ := reportComplete_touches c.tag (s.setFader (s.fader.ended c))
    exact ⟨_, cs, h⟩

theorem cutContext_touches (s : State) : ∃ a, cutContext s = s.setFader a := by
  unfold cutContext
  split
  · exact ⟨s.fader, rfl⟩
  · exact ⟨_, rfl⟩

theorem completeIfDue_touches (s : State) :
    ∃ a cs, completeIfDue s = (s.setFader a).setCues { s.cues with list := cs } := by
  unfold completeIfDue
  split
  · exact ⟨s.fader, s.cues.list, rfl⟩
  · split
    · exact completeContext_touches s
    · exact ⟨s.fader, s.cues.list, rfl⟩

theorem startContext_touches (tag : Byte) (hard : Bool) (p : TransParams) (s : State) :
    ∃ a cs m, startContext tag hard p s = ((s.setFader a).setCues { s.cues with list := cs }).setMix m := by
  obtain ⟨a1, c1, h1⟩ := completeContext_touches s
  unfold startContext placeContext
  rw [h1]
  generalize hu : State.setFader _ _ = u
  obtain ⟨a2, h2⟩ := formValues_touches u
  rw [h2]
  obtain ⟨a3, c3, h3⟩ := completeIfDue_touches (u.setFader a2)
  rw [h3]
  obtain ⟨m, h4⟩ := sendMix_touches (((u.setFader a2).setFader a3).setCues { (u.setFader a2).cues with list := c3 })
  rw [h4]
  subst hu
  exact ⟨a3, c3, m, rfl⟩

theorem partnerCheck_touches (s : State) :
    ∃ a cs b, partnerCheck s = ((s.setFader a).setCues { s.cues with list := cs }).setFlags b := by
  unfold partnerCheck
  split
  · exact ⟨s.fader, s.cues.list, s.flags, rfl⟩
  · rename_i c _
    split
    · split
      · exact ⟨{ s.fader with context := some { c with pair := .paired } }, s.cues.list, s.flags, rfl⟩
      · unfold failPartner
        dsimp only
        split
        · obtain ⟨a, cs, h⟩ := completeContext_touches
            (updateCues (Cue.transiting c.tag) (fun q => { q with unpaired := true })
              (setFlag .unpaired (s.setFader { s.fader with context := some { c with pair := .unpaired } })))
          exact ⟨a, cs, _, h⟩
        · exact ⟨_, _, _, rfl⟩
    · exact ⟨s.fader, s.cues.list, s.flags, rfl⟩

theorem advanceContext_touches (s : State) :
    ∃ a cs b, advanceContext s = ((s.setFader a).setCues { s.cues with list := cs }).setFlags b := by
  unfold advanceContext
  split
  · exact ⟨s.fader, s.cues.list, s.flags, rfl⟩
  · rename_i c _
    split
    · exact ⟨s.fader, s.cues.list, s.flags, rfl⟩
    · obtain ⟨a, cs, b, h⟩ :=
        partnerCheck_touches (s.setFader { s.fader with context := some { c with k := c.k + 1 } })
      exact ⟨a, cs, b, h⟩

theorem faderBoundary_touches (s : State) :
    ∃ a cs b m, faderBoundary s
      = (((s.setFader a).setCues { s.cues with list := cs }).setFlags b).setMix m
        ∧ m.sending.isSome = true := by
  obtain ⟨a1, c1, b, h1⟩ := advanceContext_touches s
  unfold faderBoundary
  rw [h1]
  generalize hu : ((s.setFader a1).setCues { s.cues with list := c1 }).setFlags b = u
  obtain ⟨a2, h2⟩ := formValues_touches u
  rw [h2]
  generalize hv : u.setFader a2 = v
  obtain ⟨a3, c3, h3⟩ := completeIfDue_touches v
  rw [h3]
  generalize hw : (v.setFader a3).setCues { v.cues with list := c3 } = w
  dsimp only
  have hs := sendMix_sending (s := w.setMix { w.mix with started := true }) rfl
  obtain ⟨m, h4⟩ := sendMix_touches (w.setMix { w.mix with started := true })
  rw [h4] at hs ⊢
  subst hw hv hu
  refine ⟨a3, c3, b, m, ?_, hs⟩
  apply State.eq_of_fields <;> simp

/-! ### Curves -/

/-- No curve passes 1,024 (R159, R162). -/
theorem curvePosition_le (curve : Curve) {k d : Nat} (h : k ≤ d) : curvePosition curve k d ≤ 1024 := by
  cases curve
  · exact Nat.div_le_of_le_mul (by rw [Nat.mul_comm d]; exact Nat.mul_le_mul_left _ h)
  · apply Nat.div_le_of_le_mul
    obtain ⟨e, rfl⟩ := Nat.exists_eq_add_of_le h
    have hsub : 3 * (k + e) - 2 * k = k + 3 * e := by omega
    rw [hsub]
    nlinarith [Nat.zero_le (k * e * e), Nat.zero_le (e ^ 3), Nat.zero_le (k ^ 3), Nat.zero_le (k ^ 2 * e)]
  · apply Nat.div_le_of_le_mul
    obtain ⟨e, rfl⟩ := Nat.exists_eq_add_of_le h
    have hsub : 2 * (k + e) - k = k + 2 * e := by omega
    rw [hsub]
    nlinarith [Nat.zero_le (e * e)]

/-- An audio gain of a share within 1,024 is within 1,024 (R167). -/
theorem audioGain_le (law : AudioLaw) {q : Nat} (h : q ≤ 1024) : audioGain law q ≤ 1024 := by
  cases law
  · exact h
  · apply Nat.div_le_of_le_mul
    obtain ⟨e, he⟩ := Nat.exists_eq_add_of_le h
    have hq : 2048 - q = 1024 + e := by omega
    rw [hq]
    nlinarith [Nat.zero_le (e * e)]
  · unfold audioGain; dsimp only; split <;> omega

end Sys2Proof.Machine
end

