-- ==== Sys2Proof/Laws/Cues.lean ====
section
/-! SUPPORT. What the Cue Engine's and the GPI Unit's operations can change. -/

namespace Sys2Proof.Machine

/-- What a fire, an edge or an abort leaves as it was: no position, no timebase, no link and no request record changes;
the cue samples and the inputs of the GPI Unit stay. -/
structure EditOnly (s t : State) : Prop where
  power : t.power = s.power
  straps : t.straps = s.straps
  pins : t.pins = s.pins
  time : t.time = s.time
  pos : t.pos = s.pos
  peers : t.peers = s.peers
  req : t.req = s.req
  link : t.link = s.link
  choices : t.choices = s.choices
  pending : t.pending = s.pending
  ownSample : t.cues.ownSample = s.cues.ownSample
  leadSample : t.cues.leadSample = s.cues.leadSample
  inputs : t.gpi.inputs = s.gpi.inputs

theorem EditOnly.refl (s : State) : EditOnly s s := by constructor <;> rfl

theorem EditOnly.trans {s t u : State} (h : EditOnly s t) (k : EditOnly t u) : EditOnly s u :=
  ⟨k.power.trans h.power, k.straps.trans h.straps, k.pins.trans h.pins, k.time.trans h.time, k.pos.trans h.pos,
    k.peers.trans h.peers, k.req.trans h.req, k.link.trans h.link, k.choices.trans h.choices,
    k.pending.trans h.pending, k.ownSample.trans h.ownSample, k.leadSample.trans h.leadSample,
    k.inputs.trans h.inputs⟩

theorem setFlag_edit (f : Flag) (s : State) : EditOnly s (setFlag f s) := by constructor <;> rfl

theorem updateCues_edit (pick : Cue → Bool) (f : Cue → Cue) (s : State) : EditOnly s (updateCues pick f s) := by
  constructor <;> rfl

theorem setTr_edit (x : Transport) (s : State) : EditOnly s (s.setTr x) := by constructor <;> rfl

theorem setChase_edit (x : Chase) (s : State) : EditOnly s (s.setChase x) := by constructor <;> rfl

theorem setFader_edit (x : Fader) (s : State) : EditOnly s (s.setFader x) := by constructor <;> rfl

theorem setMix_edit (x : Mix) (s : State) : EditOnly s (s.setMix x) := by constructor <;> rfl

theorem abortActiveRecord_edit (s : State) : EditOnly s (abortActiveRecord s) := by
  unfold abortActiveRecord
  split
  · exact (updateCues_edit _ _ _).trans (setFlag_edit _ _)
  · exact EditOnly.refl s

theorem breakRecord_edit (s : State) : EditOnly s (breakRecord s) := by
  unfold breakRecord
  split
  · exact (setTr_edit _ s).trans (abortActiveRecord_edit _)
  · exact EditOnly.refl s

theorem takeCommand_edit (c : Command) (s : State) : EditOnly s (takeCommand c s) := by
  unfold takeCommand
  split
  · exact (setTr_edit _ s).trans (breakRecord_edit _)
  · exact EditOnly.refl s

theorem giveLocate_edit (skips : Option Word16) (target : Nat) (s : State) :
    EditOnly s (giveLocate skips target s) := by
  unfold giveLocate
  split
  · split
    · exact setTr_edit _ s
    · exact (setTr_edit _ s).trans (breakRecord_edit _)
  · exact EditOnly.refl s

theorem disableChase_edit (s : State) : EditOnly s (disableChase s) := by
  obtain ⟨a, h⟩ := disableChase_touches s
  rw [h]; exact setChase_edit a s

theorem commandStop_edit (s : State) : EditOnly s (commandStop s) :=
  (disableChase_edit s).trans (takeCommand_edit _ _)

theorem pushMark_edit (origin : Origin) (s : State) : EditOnly s (pushMark origin s) := by
  obtain ⟨a, b, h⟩ := pushMark_touches origin s
  rw [h]; constructor <;> rfl

theorem completeContext_edit (s : State) : EditOnly s (completeContext s) := by
  obtain ⟨a, cs, h⟩ := completeContext_touches s
  rw [h]; constructor <;> rfl

theorem cutContext_edit (s : State) : EditOnly s (cutContext s) := by
  obtain ⟨a, h⟩ := cutContext_touches s
  rw [h]; exact setFader_edit a s

theorem sendMix_edit (s : State) : EditOnly s (sendMix s) := by
  obtain ⟨a, h⟩ := sendMix_touches s
  rw [h]; exact setMix_edit a s

theorem startContext_edit (tag : Byte) (hard : Bool) (p : TransParams) (s : State) :
    EditOnly s (startContext tag hard p s) := by
  obtain ⟨a, cs, m, h⟩ := startContext_touches tag hard p s
  rw [h]; constructor <;> rfl

theorem punchIn_edit (tracks : Tracks) (s : State) : EditOnly s (punchIn tracks s) := by
  obtain ⟨p, h⟩ := punchIn_touches tracks s
  rw [h]; exact setTr_edit _ s

theorem answerPunch_edit (tag : Byte) (a : PunchAnswer) (s : State) : EditOnly s (answerPunch tag a s) := by
  unfold answerPunch
  split
  · exact EditOnly.refl s
  · exact updateCues_edit _ _ s
  · exact (updateCues_edit _ _ s).trans (setFlag_edit _ _)

theorem fireRecord_edit (tag : Byte) (tracks : Tracks) (length : Nat) (s : State) :
    EditOnly s (fireRecord tag tracks length s) := by
  unfold fireRecord activate endActiveRecord
  exact (((updateCues_edit _ _ s).trans (updateCues_edit _ _ _)).trans (punchIn_edit _ _)).trans
    (answerPunch_edit _ _ _)

theorem fireTransition_edit (tag : Byte) (hard : Bool) (p : TransParams) (s : State) :
    EditOnly s (fireTransition tag hard p s) := by
  unfold fireTransition activate
  exact ((completeContext_edit s).trans (updateCues_edit _ _ _)).trans (startContext_edit _ _ _ _)

theorem actAtOnce_edit (action : CueAction) (s : State) : EditOnly s (actAtOnce action s) := by
  unfold actAtOnce
  split
  · exact commandStop_edit s
  · exact (disableChase_edit s).trans (takeCommand_edit _ _)
  · exact (disableChase_edit s).trans (giveLocate_edit _ _ _)
  · constructor <;> rfl
  · exact pushMark_edit _ s
  · exact EditOnly.refl s
  · exact EditOnly.refl s

theorem fireJudged_edit {ok : Bool} {c : Cue} {make : State → State} (h : ∀ u, EditOnly u (make u)) (s : State) :
    EditOnly s (fireJudged ok c make s) := by
  unfold fireJudged
  split
  · exact h s
  · split
    · exact (updateCues_edit _ _ s).trans (setFlag_edit _ _)
    · exact ((updateCues_edit _ _ s).trans (setFlag_edit _ _)).trans (h _)

/-- Every fire follows R144 and changes the edit state alone. -/
theorem fireCue_edit (ok : Bool) (c : Cue) (s : State) : EditOnly s (fireCue ok c s) := by
  unfold fireCue
  split
  · exact fireJudged_edit (fireRecord_edit _ _ _) s
  · exact fireJudged_edit (fireTransition_edit _ _ _) s
  all_goals exact (updateCues_edit _ _ s).trans (actAtOnce_edit _ _)

theorem fireLine_edit (line : GpiLine) (s : State) : EditOnly s (fireLine line s) := by
  unfold fireLine
  split
  · exact fireCue_edit _ _ s
  · exact EditOnly.refl s

theorem abortActive_edit (s : State) : EditOnly s (abortActive s) := by
  unfold abortActive
  split
  · dsimp only
    split
    · exact (((cutContext_edit s).trans (setTr_edit _ _)).trans (updateCues_edit _ _ _)).trans (setFlag_edit _ _)
    · exact ((setTr_edit _ s).trans (updateCues_edit _ _ _)).trans (setFlag_edit _ _)
  · exact EditOnly.refl s

theorem abortCues_edit (s : State) : EditOnly s (abortCues s) := by
  unfold abortCues
  dsimp only
  split
  · exact abortActive_edit s
  · exact (abortActive_edit s).trans (sendMix_edit _)

theorem recordLengthEnd_edit (s : State) : EditOnly s (recordLengthEnd s) := by
  unfold recordLengthEnd
  split
  · split
    · exact (updateCues_edit _ _ s).trans (setTr_edit _ _)
    · exact EditOnly.refl s
  · exact EditOnly.refl s

theorem notReadyLimit_edit (s : State) : EditOnly s (notReadyLimit s) := by
  unfold notReadyLimit
  split
  · split
    · split
      · exact (abortActiveRecord_edit s).trans (setTr_edit _ _)
      · exact (updateCues_edit _ _ s).trans (setFlag_edit _ _)
    · exact EditOnly.refl s
  · exact EditOnly.refl s

theorem runRecord_edit (ok : Bool) (s : State) : EditOnly s (runRecord ok s) := by
  have h (u : State) : EditOnly u (judgeRecord ok u) := by
    unfold judgeRecord
    split
    · exact (updateCues_edit _ _ u).trans (notReadyLimit_edit _)
    · exact EditOnly.refl u
  unfold runRecord
  exact ((updateCues_edit _ _ s).trans (recordLengthEnd_edit _)).trans (h _)

theorem fireTimed_edit (ok : Bool) (due : Cue → Bool) (s : State) : EditOnly s (fireTimed ok due s) := by
  unfold fireTimed
  generalize s.cues.list = cs
  induction cs generalizing s with
  | nil => exact EditOnly.refl s
  | cons c cs ih =>
    refine EditOnly.trans ?_ (ih (fireIfDue ok due s c))
    unfold fireIfDue
    split
    · split
      · exact fireCue_edit _ _ s
      · exact EditOnly.refl s
    · exact EditOnly.refl s

theorem runEarlier_edit (ok : Bool) (before : Option Cue) (s : State) : EditOnly s (runEarlier ok before s) := by
  unfold runEarlier
  split
  · split
    · exact runRecord_edit _ s
    · exact EditOnly.refl s
  · exact EditOnly.refl s

/-- The Cue Engine at a boundary changes the edit state and its own samples alone. -/
theorem cueBoundary_edit (s : State) :
    ∃ t, EditOnly s t ∧ cueBoundary s
      = t.setCues { t.cues with ownSample := ownSampleNow s, leadSample := leadSampleNow s } :=
  ⟨_, (fireTimed_edit _ _ s).trans (runEarlier_edit _ _ _), rfl⟩

/-! ### GPI inputs -/

theorem performBinding_edit (b : Binding) (line : GpiLine) (s : State) : EditOnly s (performBinding b line s) := by
  unfold performBinding
  split
  · exact fireLine_edit line s
  · exact pushMark_edit _ s
  · unfold edgePlay
    split
    · exact takeCommand_edit _ s
    · exact EditOnly.refl s
  · unfold edgeStop
    split
    · exact commandStop_edit s
    · exact EditOnly.refl s
  · exact abortCues_edit s
  · exact EditOnly.refl s

end Sys2Proof.Machine
end

