-- ==== Sys2Proof/Laws/Boundary.lean ====
section
/-! SUPPORT. What each taker of a boundary can change, the order of the takers, and the induction over them. -/

namespace Sys2Proof.Machine

/-! ### The order of the takers -/

theorem takerOrder_perm (rank : Taker → Nat) : (takerOrder rank).Perm allTakers := List.perm_insertionSort _ _

/-- What holds when the boundary opens and is kept by every taker holds after the boundary, in whatever order. -/
theorem boundaryInOrder_keeps {P : State → Prop} (identity : Option Bool) (order : List Taker) {s : State}
    (h : P (openBoundary identity s)) (keep : ∀ t u, P u → P (takeBoundary t u)) :
    P (boundaryInOrder identity order s) := by
  unfold boundaryInOrder
  generalize openBoundary identity s = u at h
  induction order generalizing u with
  | nil => exact h
  | cons t ts ih => exact ih _ (keep t u h)

/-- The same of a field boundary. -/
theorem fieldBoundary_keeps {P : State → Prop} (identity : Option Bool) {s : State}
    (h : P (openBoundary identity (s.setChoices (s.choices + 1)))) (keep : ∀ t u, P u → P (takeBoundary t u)) :
    P (fieldBoundary identity s) := boundaryInOrder_keeps identity _ h keep

/-! ### The takers one by one -/

theorem positionBoundary_touches (s : State) : ∃ a, positionBoundary s = s.setPos a := by
  have h1 (u : State) : ∃ a, expireCandidate u = u.setPos a := by
    unfold expireCandidate
    split
    · split
      · exact ⟨_, rfl⟩
      · exact ⟨u.pos, rfl⟩
    · exact ⟨u.pos, rfl⟩
  have h2 (u : State) : ∃ a, countSilence u = u.setPos a := by
    unfold countSilence
    split
    · exact ⟨_, rfl⟩
    · exact ⟨u.pos, rfl⟩
  have h3 (u : State) : ∃ a, expireSilence u = u.setPos a := by
    unfold expireSilence
    split
    · exact ⟨_, rfl⟩
    · exact ⟨u.pos, rfl⟩
  unfold positionBoundary
  split
  · unfold publishDeck
    obtain ⟨a, ha⟩ := h1 s
    rw [ha]
    obtain ⟨b, hb⟩ := h2 (s.setPos a)
    rw [hb]
    obtain ⟨c, hc⟩ := h3 ((s.setPos a).setPos b)
    rw [hc]
    exact ⟨_, rfl⟩
  · exact ⟨_, rfl⟩

theorem setVirtual_touches (s : State) : ∃ a, setVirtual s = s.setPos a := by
  unfold setVirtual
  split
  · exact ⟨_, rfl⟩
  · exact ⟨s.pos, rfl⟩

theorem lockIfDue_edit (s : State) : EditOnly s (lockIfDue s) := by
  unfold lockIfDue
  split
  · exact setChase_edit _ s
  · exact EditOnly.refl s

theorem judgeLock_edit (e : Int) (s : State) : EditOnly s (judgeLock e s) := by
  have h1 (u : State) : EditOnly u (unlockIfOut u) := by
    unfold unlockIfOut
    split
    · exact setChase_edit _ u
    · exact EditOnly.refl u
  have h2 (u : State) : EditOnly u (unlockIfUnsound u) := by
    unfold unlockIfUnsound
    split
    · exact setChase_edit _ u
    · exact EditOnly.refl u
  unfold judgeLock
  split
  · exact ((setChase_edit _ s).trans (h1 _)).trans (h2 _)
  · exact (setChase_edit _ s).trans (lockIfDue_edit _)

theorem followFresh_edit (s : State) : EditOnly s (followFresh s) := by
  unfold followFresh
  dsimp only
  split
  · exact (setChase_edit _ s).trans (takeCommand_edit _ _)
  · split
    · unfold park
      dsimp only
      split
      · exact setChase_edit _ s
      · exact (setChase_edit _ s).trans (giveLocate_edit _ _ _)
    · split
      · exact (setChase_edit _ s).trans (takeCommand_edit _ _)
      · exact ((setChase_edit _ s).trans (takeCommand_edit _ _)).trans (judgeLock_edit _ _)

theorem countFreewheel_edit (s : State) : EditOnly s (countFreewheel s) := by
  unfold countFreewheel
  split
  · unfold freewheelStop
    split
    · exact (setChase_edit _ s).trans (takeCommand_edit _ _)
    · exact setChase_edit _ s
  · exact EditOnly.refl s

theorem followStale_edit (s : State) : EditOnly s (followStale s) := by
  unfold followStale
  split
  · exact countFreewheel_edit s
  · exact setChase_edit _ s

theorem follow_edit (s : State) : EditOnly s (follow s) := by
  unfold follow
  split
  · split
    · exact followFresh_edit s
    · unfold followCoasting
      split
      · exact countFreewheel_edit s
      · exact setChase_edit _ s
    · exact followStale_edit s
  · unfold followLive
    split
    · exact setChase_edit _ s
    · exact setChase_edit _ s
    · exact followStale_edit s

/-- An evaluation changes the edit state alone. -/
theorem chaseBoundary_edit (s : State) : EditOnly s (chaseBoundary s) := by
  unfold chaseBoundary
  split
  · exact setChase_edit _ s
  · exact (follow_edit s).trans (setChase_edit _ _)

theorem locateSucceed_edit (l : Locate) (s : State) : EditOnly s (locateSucceed l s) := by
  rw [locateSucceed_touches]; constructor <;> rfl

theorem locateFail_edit (l : Locate) (s : State) : EditOnly s (locateFail l s) := by
  rw [locateFail_touches]; constructor <;> rfl

theorem locateSettle_edit (s : State) : EditOnly s (locateSettle s) := by
  unfold locateSettle
  split
  · split
    · split
      · exact locateSucceed_edit _ s
      · split
        · exact locateFail_edit _ s
        · exact setTr_edit _ s
    · exact EditOnly.refl s
  · exact EditOnly.refl s

theorem locateAcquireLimit_edit (s : State) : EditOnly s (locateAcquireLimit s) := by
  unfold locateAcquireLimit
  split
  · split
    · exact locateFail_edit _ s
    · exact EditOnly.refl s
  · exact EditOnly.refl s

theorem locateEotLimit_edit (s : State) : EditOnly s (locateEotLimit s) := by
  unfold locateEotLimit
  split
  · split
    · exact locateFail_edit _ s
    · exact EditOnly.refl s
  · exact EditOnly.refl s

theorem locateRecordLimit_edit (s : State) : EditOnly s (locateRecordLimit s) := by
  unfold locateRecordLimit
  split
  · split
    · exact locateFail_edit _ s
    · exact EditOnly.refl s
  · exact EditOnly.refl s

theorem locateTake_touches (s : State) : ∃ l, locateTake s = s.setTr { s.tr with locate := l } := by
  unfold locateTake
  split
  · exact ⟨_, rfl⟩
  · exact ⟨s.tr.locate, rfl⟩

theorem locateRecord_edit (s : State) : EditOnly s (locateRecord s) := by
  obtain ⟨l, h⟩ := locateTake_touches s
  unfold locateRecord
  rw [h]
  exact (((((setTr_edit _ s).trans (locateSettle_edit _)).trans (locateAcquireLimit_edit _)).trans
    (locateEotLimit_edit _)).trans (locateRecordLimit_edit _))

theorem locateBoundary_edit (s : State) : EditOnly s (locateBoundary s) := by
  unfold locateBoundary
  split
  · exact EditOnly.refl s
  · exact locateRecord_edit s

theorem faderBoundary_edit (s : State) : EditOnly s (faderBoundary s) := by
  obtain ⟨a, cs, b, m, h, _⟩ := faderBoundary_touches s
  rw [h]; constructor <;> rfl

theorem servoExpiry_edit (s : State) : EditOnly s (servoExpiry s) := by
  unfold servoExpiry
  split
  · exact setFlag_edit _ s
  · exact EditOnly.refl s

theorem tallyExpiry_edit (s : State) : EditOnly s (tallyExpiry s) := by
  unfold tallyExpiry
  split
  · split
    · exact (setTr_edit _ s).trans (setFlag_edit _ _)
    · exact EditOnly.refl s
  · exact EditOnly.refl s

theorem transportBoundary_edit (s : State) : EditOnly s (transportBoundary s) := by
  have h (u : State) : EditOnly u (sendSpeedWord u) := by
    unfold sendSpeedWord
    split
    · exact setTr_edit _ u
    · exact setTr_edit _ u
  unfold transportBoundary
  exact ((((setTr_edit _ s).trans (servoExpiry_edit _)).trans (setTr_edit _ _)).trans (tallyExpiry_edit _)).trans (h _)

/-! ### The link -/

/-- The state but for the link and the flags. -/
structure LinkOnly (s t : State) : Prop where
  same : t = (s.setLink t.link).setFlags t.flags

theorem LinkOnly.refl (s : State) : LinkOnly s s := ⟨rfl⟩

theorem LinkOnly.trans {s t u : State} (h : LinkOnly s t) (k : LinkOnly t u) : LinkOnly s u := by
  refine ⟨?_⟩
  have hk := k.same
  rw [h.same] at hk
  exact hk

theorem setLink_only (x : Link) (s : State) : LinkOnly s (s.setLink x) := ⟨rfl⟩

theorem setFlag_only (f : Flag) (s : State) : LinkOnly s (setFlag f s) := ⟨rfl⟩

theorem startHead_only (s : State) : LinkOnly s (startHead s) := by
  unfold startHead
  split
  · split
    · exact setLink_only _ s
    · exact setLink_only _ s
  · unfold startReport
    split
    · exact LinkOnly.refl s
    · exact setLink_only _ s

theorem beginDeferral_only (s : State) : LinkOnly s (beginDeferral s) := by
  unfold beginDeferral
  split
  · split
    · unfold deferFor
      dsimp only
      split
      · exact (setLink_only _ s).trans (startHead_only _)
      · exact (setLink_only _ s).trans (setLink_only _ _)
    · exact LinkOnly.refl s
  · exact LinkOnly.refl s

theorem abandonDeferral_only (s : State) : LinkOnly s (abandonDeferral s) := by
  unfold abandonDeferral
  split
  · exact setLink_only _ s
  all_goals exact LinkOnly.refl s

theorem headChanged_only (s : State) : LinkOnly s (headChanged s) :=
  (abandonDeferral_only s).trans (beginDeferral_only _)

theorem dropPosition_only (s : State) : LinkOnly s (dropPosition s) := by
  unfold dropPosition dropFrames
  exact ((setLink_only _ s).trans (setLink_only _ _)).trans (setFlag_only _ _)

theorem letGo_only (s : State) : LinkOnly s (letGo s) := by
  unfold letGo
  split
  · split
    · exact setLink_only _ s
    · exact LinkOnly.refl s
  all_goals exact LinkOnly.refl s

theorem joinPosition_only (payload : List Byte) (s : State) : LinkOnly s (joinPosition payload s) := by
  unfold joinPosition
  dsimp only
  split
  · exact ((dropPosition_only s).trans (setLink_only _ _)).trans (headChanged_only _)
  · exact ((letGo_only s).trans (setLink_only _ _)).trans (headChanged_only _)

theorem joinReport_only (payload : List Byte) (s : State) : LinkOnly s (joinReport payload s) := by
  unfold joinReport
  exact (setLink_only _ s).trans (beginDeferral_only _)

theorem dropExpired_only (s : State) : LinkOnly s (dropExpired s) := (setLink_only _ s).trans (setLink_only _ _)

theorem restartIfChanged_only (before s : State) : LinkOnly s (restartIfChanged before s) := by
  unfold restartIfChanged
  split
  · exact LinkOnly.refl s
  · exact headChanged_only s

theorem expireReports_only (s : State) : LinkOnly s (expireReports s) :=
  (dropExpired_only s).trans (restartIfChanged_only _ _)

theorem settlePosition_only (s : State) : LinkOnly s (settlePosition s) := by
  unfold settlePosition letOldGo
  split
  · split
    · exact LinkOnly.refl s
    · exact dropPosition_only s
  · split
    · split
      · exact LinkOnly.refl s
      · exact letGo_only s
    all_goals exact LinkOnly.refl s

theorem linkBoundary_only (s : State) : LinkOnly s (linkBoundary s) :=
  (((setLink_only _ s).trans (settlePosition_only _)).trans (dropExpired_only _)).trans (restartIfChanged_only _ _)

theorem composeBulletin_only (s : State) : LinkOnly s (composeBulletin s) := joinPosition_only _ s

/-! ### What no taker changes -/

/-- What every taker of a boundary leaves as it was. -/
structure BoundaryKeeps (s t : State) : Prop where
  power : t.power = s.power
  straps : t.straps = s.straps
  pins : t.pins = s.pins
  time : t.time = s.time
  req : t.req = s.req
  choices : t.choices = s.choices
  pending : t.pending = s.pending

theorem EditOnly.boundaryKeeps {s t : State} (h : EditOnly s t) : BoundaryKeeps s t :=
  ⟨h.power, h.straps, h.pins, h.time, h.req, h.choices, h.pending⟩

theorem LinkOnly.boundaryKeeps {s t : State} (h : LinkOnly s t) : BoundaryKeeps s t := by
  rw [h.same]; constructor <;> rfl

/-- No taker of a boundary changes the supply, the straps, the lines, the timebase, the request record or the queue. -/
theorem takeBoundary_keeps (t : Taker) (s : State) : BoundaryKeeps s (takeBoundary t s) := by
  cases t
  · obtain ⟨a, h⟩ := positionBoundary_touches s
    simp only [takeBoundary]; rw [h]; constructor <;> rfl
  · exact (chaseBoundary_edit s).boundaryKeeps
  · obtain ⟨a, h⟩ := setVirtual_touches s
    simp only [takeBoundary]; rw [h]; constructor <;> rfl
  · obtain ⟨t, h, e⟩ := cueBoundary_edit s
    simp only [takeBoundary]; rw [e]
    exact ⟨h.power, h.straps, h.pins, h.time, h.req, h.choices, h.pending⟩
  · exact (locateBoundary_edit s).boundaryKeeps
  · exact (faderBoundary_edit s).boundaryKeeps
  · constructor <;> rfl
  · constructor <;> rfl
  · exact (transportBoundary_edit s).boundaryKeeps
  · exact (linkBoundary_only s).boundaryKeeps
  · exact (composeBulletin_only s).boundaryKeeps

/-- A field boundary changes the timebase as `openBoundary` does, draws one choice, and leaves the rest of these. -/
theorem fieldBoundary_spec (identity : Option Bool) (s : State) :
    (fieldBoundary identity s).time = (openBoundary identity s).time
      ∧ (fieldBoundary identity s).power = s.power ∧ (fieldBoundary identity s).straps = s.straps
      ∧ (fieldBoundary identity s).pins = s.pins ∧ (fieldBoundary identity s).req = s.req
      ∧ (fieldBoundary identity s).pending = s.pending := by
  refine fieldBoundary_keeps
    (P := fun u => u.time = (openBoundary identity s).time ∧ u.power = s.power ∧ u.straps = s.straps
      ∧ u.pins = s.pins ∧ u.req = s.req ∧ u.pending = s.pending) identity ⟨rfl, rfl, rfl, rfl, rfl, rfl⟩ ?_
  intro t u h
  have k := takeBoundary_keeps t u
  exact ⟨k.time.trans h.1, k.power.trans h.2.1, k.straps.trans h.2.2.1, k.pins.trans h.2.2.2.1,
    k.req.trans h.2.2.2.2.1, k.pending.trans h.2.2.2.2.2⟩

end Sys2Proof.Machine
end

