-- ==== Sys2Proof/Laws/Operands.lean ====
section
/-! SUPPORT. What is read from a line, a label, a bulletin and a cue record: characters sent read back as sent, and every
frame read is a frame count of the standard. -/

namespace Sys2Proof.Machine

/-! ### Characters (R34) -/

theorem charLevels_length (b : Byte) : (charLevels b).length = 10 := by simp [charLevels]

/-- The data bits of a character give its number back. -/
theorem numberOfBits_range (b : Byte) : BitVec.ofNat 8 (numberOfBits ((List.range 8).map b.getLsbD)) = b := by
  revert b; decide +kernel

theorem charOf_levels (b : Byte) : charOf ((List.range 8).map b.getLsbD ++ [true]) = { byte := b, framing := false } := by
  have h : ((List.range 8).map b.getLsbD).length = 8 := by simp
  simp only [charOf, LinkChar.mk.injEq]
  refine ⟨?_, ?_⟩
  · rw [List.take_append_of_le_length (by simp), List.take_of_length_le (by simp)]
    exact numberOfBits_range b
  · simp

/-- One turn over a character sent whole. -/
theorem readChars_char (n : Nat) (b : Byte) (rest : List Bool) :
    readChars (n + 1) (charLevels b ++ rest) = { byte := b, framing := false } :: readChars n rest := by
  have e : charLevels b ++ rest = false :: (((List.range 8).map b.getLsbD ++ [true]) ++ rest) := by simp [charLevels]
  have l : ((List.range 8).map b.getLsbD ++ [true]).length = 9 := by simp
  rw [e, readChars, if_neg (by simp; omega), List.take_append_of_le_length (by rw [l]), List.take_of_length_le (by rw [l]),
    List.drop_append_of_le_length (by rw [l]), List.drop_of_length_le (by rw [l]), charOf_levels]
  simp [afterChar]

theorem readChars_levels (n : Nat) (bs : List Byte) (h : bs.length ≤ n) :
    readChars n (lineLevels bs) = bs.map fun b => { byte := b, framing := false } := by
  induction bs generalizing n with
  | nil => cases n <;> rfl
  | cons b bs ih =>
    cases n with
    | zero => simp at h
    | succ n =>
      have e : lineLevels (b :: bs) = charLevels b ++ lineLevels bs := rfl
      rw [e, readChars_char, ih n (by simpa using h)]
      rfl

theorem lineLevels_length (bs : List Byte) : (lineLevels bs).length = 10 * bs.length := by
  induction bs with
  | nil => rfl
  | cons b bs ih =>
    have e : lineLevels (b :: bs) = charLevels b ++ lineLevels bs := rfl
    rw [e, List.length_append, charLevels_length, ih, List.length_cons]; omega

/-- Characters sent back to back are read as they were sent (R34). -/
theorem readLine_levels (bs : List Byte) :
    readLine (lineLevels bs) = bs.map fun b => { byte := b, framing := false } := by
  unfold readLine
  rw [lineLevels_length]
  exact readChars_levels _ bs (by omega)

/-! ### The CRC and the characters of a frame -/

/-- The CRC takes one character after another (R37). -/
theorem crcOf_append (bs : List Byte) (b : Byte) : crcOf (bs ++ [b]) = crcByte (crcOf bs) b := by
  unfold crcOf
  rw [List.foldl_append, List.foldl_cons, List.foldl_nil]

/-- A frame is seven characters beside its payload (R36). -/
theorem frameChars_length (p : Straps) (f : TxFrame) : (frameChars p f).length = f.payload.length + 7 := by
  simp [frameChars, bytesOf]

/-! ### TARGET -/

/-- TARGET is its two characters with the first as the high byte (Table 12.3, R184). -/
theorem targetAt_cons (high low : Byte) (rest : List Byte) : targetAt (high :: low :: rest) = high ++ low := by
  apply BitVec.eq_of_toNat_eq
  have h := high.isLt
  have l := low.isLt
  rw [targetAt, BitVec.toNat_ofNat, BitVec.toNat_append, ← Nat.shiftLeft_add_eq_or_of_lt l, Nat.shiftLeft_eq]
  simp only [wordAt, byteAt, List.getD_cons_zero, List.getD_cons_succ]
  omega

theorem targetOf_eq (r : Request) : targetOf r = r.targetHigh ++ r.targetLow := targetAt_cons _ _ _

/-! ### Frames of labels, bulletins and cue records -/

/-- The count of a label that counting does not omit is a frame count (R6, R7). -/
theorem labelCount_lt {x : Standard} {l : Label} (h : labelValid x l = true) (h' : labelOmitted x l = false) :
    labelCount x l < x.fpd := by
  simp [labelValid] at h
  cases x <;> simp [labelOmitted, labelCount, labelSeconds, Standard.labelRate, Standard.fpd] at * <;> omega

/-- The count of a valid request label is a frame count (R8). -/
theorem requestCount_lt {x : Standard} {l : Label} (h : labelValid x l = true) : requestCount x l < x.fpd := by
  unfold requestCount coerceLabel
  split
  · refine labelCount_lt ?_ ?_
    · simp only [labelValid, Bool.and_eq_true, decide_eq_true_eq] at h ⊢
      refine ⟨h.1, ?_⟩
      cases x <;> simp [Standard.labelRate]
    · simp [labelOmitted]
  · rename_i k
    exact labelCount_lt h (by simpa using k)

theorem readLabel_lt {x : Standard} {l : Label} {c : Coerced Nat} (h : readLabel x l = some c) : c.value < x.fpd := by
  unfold readLabel at h
  split at h
  · rename_i k; cases h; exact requestCount_lt k
  · cases h

/-- What a peer entry takes from a well-formed bulletin is a position (R60). -/
theorem readBulletin_frame {x : Standard} {payload : List Byte} (h : bulletinWellFormed x payload = true) :
    (readBulletin payload).frame < x.fpd ∧ (readBulletin payload).phase < 512 := by
  simp only [bulletinWellFormed, Bool.and_eq_true, decide_eq_true_eq] at h
  exact ⟨h.1.1.1.1.1.2, Nat.mod_lt _ (by decide)⟩

theorem readTrigger_frame {x : Standard} {bs : List Byte} {t : Coerced Trigger} (h : readTrigger x bs = some t)
    (f : Nat) (hf : t.value = .own f ∨ t.value = .lead f) : f < x.fpd := by
  unfold readTrigger at h
  split at h
  all_goals first
    | (simp only [Option.map_eq_some_iff] at h
       obtain ⟨c, hc, rfl⟩ := h
       have k := readLabel_lt hc
       rcases hf with hf | hf <;> first | (cases hf; exact k) | cases hf)
    | (cases h; rcases hf with hf | hf; all_goals cases hf)
    | cases h

theorem readAction_locate {x : Standard} {bs : List Byte} {a : Coerced CueAction} (h : readAction x bs = some a)
    (f : Nat) (hf : a.value = .transport (.locate f)) : f < x.fpd := by
  unfold readAction at h
  split at h
  · cases h; cases hf
  · unfold readTransition at h
    split at h
    · cases h; cases hf
    · cases h
  · unfold readTransport at h
    split at h
    · cases h; cases hf
    · cases h; cases hf
    · simp only [Option.map_eq_some_iff] at h
      obtain ⟨c, hc, rfl⟩ := h
      cases hf
      exact readLabel_lt hc
    · cases h
  · simp only [Option.map_eq_some_iff] at h
    obtain ⟨l, -, rfl⟩ := h
    cases hf
  · cases h; cases hf
  · cases h

/-- The parts a cue record is read from. -/
theorem readCue_parts {x : Standard} {bs : List Byte} {c : Coerced Cue} (h : readCue x bs = some c) :
    ∃ t a m, readTrigger x bs = some t ∧ readAction x bs = some a ∧ flagOfCode (byteAt bs 6) = some m
      ∧ c.value = newCue (bs.getD 0 0) t.value (!m) (BitVec.ofNat 16 (wordAt bs 7)) a.value
      ∧ c.coerced = (t.coerced || a.coerced) ∧ bs.length = 21 ∧ byteAt bs 0 ≠ 0 := by
  unfold readCue at h
  split at h
  · rename_i hb
    split at h
    · rename_i t m a ht hm ha
      cases h
      exact ⟨t, a, m, ht, ha, hm, rfl, rfl, hb.1, hb.2⟩
    · cases h
  · cases h

/-- A loaded cue's frames are frame counts (R132, R135). -/
theorem readCue_frames {x : Standard} {bs : List Byte} {c : Coerced Cue} (h : readCue x bs = some c) :
    CueFramesSound x c.value := by
  obtain ⟨t, a, m, ht, ha, -, e, -⟩ := readCue_parts h
  rw [e]
  refine ⟨fun f hf => ?_, fun f hf => readAction_locate ha f hf⟩
  refine readTrigger_frame ht f ?_
  unfold Cue.frame? newCue at hf
  dsimp only at hf
  split at hf
  · rename_i g hg; rw [hg]; left; simpa using hf
  · rename_i g hg; rw [hg]; right; simpa using hf
  · cases hf
  · cases hf

end Sys2Proof.Machine
end

