-- ==== Sys2Proof/Laws/Requests.lean ====
section
/-! SUPPORT. What taking a request does: one lemma for each way a REQUEST frame ends, and one for each step of a
judgement. -/

namespace Sys2Proof.Machine

/-! ### The views do not see the receiver -/

@[simp] theorem received_role (s : State) : role (received s) = role s := rfl
@[simp] theorem received_std (s : State) : std (received s) = std s := rfl
@[simp] theorem received_own (s : State) : own (received s) = own s := rfl
@[simp] theorem received_isDeck (s : State) : isDeck (received s) = isDeck s := rfl
@[simp] theorem received_deckReady (s : State) : deckReady (received s) = deckReady s := rfl
@[simp] theorem received_transportState (s : State) : transportState (received s) = transportState s := rfl
@[simp] theorem received_activeRecord (s : State) : activeRecord (received s) = activeRecord s := rfl
@[simp] theorem received_ownReady (s : State) : ownReady (received s) = ownReady s := rfl
@[simp] theorem received_power (s : State) : (received s).power = s.power := rfl
@[simp] theorem received_straps (s : State) : (received s).straps = s.straps := rfl
@[simp] theorem received_pins (s : State) : (received s).pins = s.pins := rfl
@[simp] theorem received_time (s : State) : (received s).time = s.time := rfl
@[simp] theorem received_pos (s : State) : (received s).pos = s.pos := rfl
@[simp] theorem received_peers (s : State) : (received s).peers = s.peers := rfl
@[simp] theorem received_req (s : State) : (received s).req = s.req := rfl
@[simp] theorem received_tr (s : State) : (received s).tr = s.tr := rfl
@[simp] theorem received_chase (s : State) : (received s).chase = s.chase := rfl
@[simp] theorem received_cues (s : State) : (received s).cues = s.cues := rfl
@[simp] theorem received_fader (s : State) : (received s).fader = s.fader := rfl
@[simp] theorem received_mix (s : State) : (received s).mix = s.mix := rfl
@[simp] theorem received_gpi (s : State) : (received s).gpi = s.gpi := rfl
@[simp] theorem received_marks (s : State) : (received s).marks = s.marks := rfl
@[simp] theorem received_flags (s : State) : (received s).flags = s.flags := rfl
@[simp] theorem received_choices (s : State) : (received s).choices = s.choices := rfl
@[simp] theorem received_pending (s : State) : (received s).pending = s.pending := rfl

/-! ### How a REQUEST frame ends -/

/-- An arrival that passes the screening is taken by the station that has received it (R40). -/
theorem arrive_taken {source : Byte} {s : State} (hx : s.link.rx = .frame)
    (hf : foreignStandard source s = false) (take : State → State) :
    arrive source take s = take (received s) := by
  unfold arrive; rw [if_pos hx, if_neg (by simp [hf])]; rfl

/-- An arrival of a foreign standard is discarded (R39). -/
theorem arrive_foreign {source : Byte} {s : State} (hx : s.link.rx = .frame)
    (hf : foreignStandard source s = true) (take : State → State) :
    arrive source take s = discardFrame .ignore s := by
  unfold arrive; rw [if_pos hx, if_pos hf]

/-- An arrival while no frame is being collected changes nothing (R38). -/
theorem arrive_idle {source : Byte} {s : State} (hx : s.link.rx ≠ .frame) (take : State → State) :
    arrive source take s = s := by
  unfold arrive; rw [if_neg hx]

/-- A request that is taken is decided and recorded (R66, R70). -/
theorem takeRequest_taken {r : Request} {s : State} (h : Taken r s) (judge : State → Judged) :
    takeRequest r judge s = record r.tag (judge (received s)) := by
  obtain ⟨-, hx, hf, ha⟩ := h
  rw [takeRequest, arrive_taken hx hf, takeIfAddressed]
  exact if_pos ha

/-- A frame that comes while none is being collected changes nothing (R38). -/
theorem takeRequest_idle {r : Request} {s : State} (h : s.link.rx ≠ .frame) (judge : State → Judged) :
    takeRequest r judge s = s := arrive_idle h _

/-- A request of a foreign standard is discarded (R39). -/
theorem takeRequest_foreign {r : Request} {s : State} (hx : s.link.rx = .frame)
    (hf : foreignStandard r.source s = true) (judge : State → Judged) :
    takeRequest r judge s = discardFrame .ignore s := arrive_foreign hx hf _

/-- A request not addressed to the station is received alone (R66). -/
theorem takeRequest_elsewhere {r : Request} {s : State} (hx : s.link.rx = .frame)
    (hf : foreignStandard r.source s = false) (ha : addressed (targetOf r) s = false) (judge : State → Judged) :
    takeRequest r judge s = received s := by
  rw [takeRequest, arrive_taken hx hf, takeIfAddressed]
  exact if_neg (by rw [show addressed (targetOf r) (received s) = false from ha]; simp)

/-- What holds after every way a REQUEST frame ends. -/
theorem takeRequest_keeps {P : State → Prop} (r : Request) (judge : State → Judged) {s : State} (h : P s)
    (hd : P (discardFrame .ignore s)) (hr : P (received s))
    (hj : s.link.rx = .frame → P (record r.tag (judge (received s)))) :
    P (takeRequest r judge s) := by
  by_cases hx : s.link.rx = .frame
  · cases hf : foreignStandard r.source s with
    | true => rw [takeRequest_foreign hx hf]; exact hd
    | false =>
      cases ha : addressed (targetOf r) s with
      | false => rw [takeRequest_elsewhere hx hf ha]; exact hr
      | true =>
        rw [takeRequest, arrive_taken hx hf, takeIfAddressed,
          if_pos (show addressed (targetOf r) (received s) = true from ha)]
        exact hj hx
  · rw [takeRequest_idle hx]; exact h

/-! ### Judgements -/

theorem withLength_ok {n : Nat} {r : Request} (judge : State → Judged) (h : r.params.length = n) :
    withLength n r judge = judge := by funext s; simp [withLength, h]

theorem withLength_wrong {n : Nat} {r : Request} (judge : State → Judged) (s : State) (h : r.params.length ≠ n) :
    withLength n r judge s = (.refusedFormat, s) := by simp [withLength, h]

/-- What a judgement leaves is either what it found or its effect (R67). -/
theorem answer_state (x : Option ReqResult) (result : ReqResult) (effect : State → State) (s : State) :
    (answer x result effect s).2 = s ∨ (answer x result effect s).2 = effect s := by
  cases x <;> simp [answer]

theorem record_fields (tag : Byte) (j : Judged) :
    record tag j = j.2.setReq { lastTag := tag, lastResult := j.1, count := j.2.req.count + 1 } := rfl

end Sys2Proof.Machine
end

