-- ==== Sys2Proof/Laws/Moves.lean ====
section
/-! SUPPORT. What a step can do, said once: every command's effect is a sequence of the elementary changes of `Move`. An
invariant is shown by one case for each change. -/

namespace Sys2Proof.Machine

/-! ### The changes -/

/-- What the Chase Servo may write between taking a lead up and letting it go. -/
structure ChaseStep (s : State) (x : Chase) : Prop where
  lead : x.lead = s.chase.lead
  offset : x.offset = s.chase.offset ∨ x.offset = 0
  free : x.state = .free ↔ s.chase.state = .free
  locked : x.state = .locked → s.chase.state = .locked
    ∨ (Running s ∧ s.time.refState = .present ∧ (role s = .live ∨ s.pins.servo = true))
  handed : x.handed = s.chase.handed ∨ x.handed.target < (std s).day ∨ x.handed.target = s.pos.published.position
  record : x.record.target = s.chase.record.target ∨ x.record.target < (std s).day
    ∨ x.record.target = s.pos.published.position
  park : x.parkFrame = s.chase.parkFrame ∨ ∀ f ∈ x.parkFrame, f < (std s).fpd

/-- The cue keeps its tag, its trigger, its action and its state. -/
structure SameCue (c d : Cue) : Prop where
  tag : d.tag = c.tag
  trigger : d.trigger = c.trigger
  action : d.action = c.action
  state : d.state = c.state

/-- A frame known to be a frame count: checked now, or held by a cue's LOCATE. -/
def FrameKnown (s : State) (f : Nat) : Prop :=
  f < (std s).fpd ∨ ∃ c ∈ s.cues.list, c.action = .transport (.locate f)

/-- One elementary change of the station. -/
inductive Move : State → State → Prop
  | choices (s : State) (n : Nat) : Move s (s.setChoices n)
  | mix (s : State) (x : Mix) : Move s (s.setMix x)
  | peers (s : State) (x : Vector PeerEntry 16)
      (h : ∀ st : Station, EntryFrameSound (std s) s.peers[st] → EntryFrameSound (std s) x[st]) : Move s (s.setPeers x)
  | req (s : State) (x : RequestUnit) : Move s (s.setReq x)
  | gpi (s : State) (x : Gpi) : Move s (s.setGpi x)
  | flags (s : State) (x : BitVec 13) : Move s (s.setFlags x)
  | samples (s : State) (a b : Option Nat) : Move s (s.setCues { s.cues with ownSample := a, leadSample := b })
  | time (s : State) (x : Timebase)
      (h : s.chase.state = .locked → s.time.refState = .present → x.refState = .present)
      (hs : TimebaseSound s → TimebaseSound (s.setTime x)) : Move s (s.setTime x)
  | link {s t : State} (h : LinkOnly s t) : Move s t
  | power {c : Instr} {s t : State} (hc : isPowerCommand c = true) (h : exec c s = .next t) : Move s t
  | deckLine {c : Instr} {s t : State} (hc : isDeckLine c = true) (h : exec c s = .next t) : Move s t
  | tach (s : State) (forward : Bool) : Move s (tachPulse forward s)
  | word (s : State) (label : Label) (backward : Bool) : Move s (timecodeWord label backward s)
  | candidate (s : State) : Move s (expireCandidate s)
  | silence (s : State) : Move s (expireSilence s)
  | publish (s : State) : Move s (positionBoundary s)
  | virtual (s : State) : Move s (setVirtual s)
  | command (s : State) (c : Command) (h : CommandSound c) : Move s (takeCommand c s)
  | locate (s : State) (skips : Option Word16) (target : Nat) (h : FrameKnown s target) : Move s (giveLocate skips target s)
  | locateMark (s : State) (m : Mark) (rest : List Mark) (h : s.marks = m :: rest) :
      Move s (takeLocate m.frame (popMark s))
  | locateSucceed (s : State) (l : Locate) (h : s.tr.locate = some l) : Move s (locateSucceed l s)
  | locateFail (s : State) (l : Locate) (h : s.tr.locate = some l) : Move s (locateFail l s)
  | locateGoesOn (s : State) (l m : Locate) (h : s.tr.locate = some l) (ht : m.target = l.target)
      (hd : CommandSound l.drive → CommandSound m.drive) : Move s (s.setTr { s.tr with locate := some m })
  | countServo (s : State) : Move s (countServo s)
  | countTally (s : State) : Move s (countTally s)
  | tallyExpiry (s : State) : Move s (tallyExpiry s)
  | speedWord (s : State) : Move s (sendSpeedWord s)
  | arm (s : State) (x : Tracks) (h : activeRecord s = none) : Move s (setArmed x s)
  | chase (s : State) (x : Chase) (h : ChaseStep s x) : Move s (s.setChase x)
  | loseLock (s : State) : Move s (loseLock s)
  | freeChase (s : State) : Move s (freeChase s)
  | startChase (s : State) (lead : Station) (offset : Nat) (hl : lead ≠ own s) (ho : offset < (std s).fpd) :
      Move s (startChase lead offset s)
  | pushMark (s : State) (origin : Origin) : Move s (pushMark origin s)
  | popMark (s : State) : Move s (popMark s)
  | clearMarks (s : State) : Move s (s.setMarks [])
  | fader (s : State) : Move s (faderBoundary s)
  | startContext (s : State) (tag : Byte) (hard : Bool) (p : TransParams)
      (h : ParamsSound p ∨ ∃ c ∈ s.cues.list, c.action = .transition p) : Move s (startContext tag hard p s)
  | completeContext (s : State) : Move s (completeContext s)
  | cutContext (s : State) : Move s (cutContext s)
  | zeroFader (s : State) :
      Move s (s.setFader { s.fader with level := 0, gain := audioGain s.fader.law 0 })
  | fireRecord (s : State) (tag : Byte) (tracks : Tracks) (length : Nat) (hr : Running s)
      (h : ∃ c ∈ s.cues.list, c.tag = tag ∧ c.state = .waiting ∧ c.action = .record tracks length) :
      Move s (fireRecord tag tracks length s)
  | activate (s : State) (tag : Byte)
      (h : ∃ c ∈ s.cues.list, c.tag = tag ∧ c.state = .waiting ∧ c.isTransition = true) : Move s (activate tag 0 s)
  | finishWaiting (s : State) (tag : Byte) (state : CueState) (h : state = .done ∨ state = .aborted) :
      Move s (finishWaiting tag state s)
  | touchCues (s : State) (pick : Cue → Bool) (f : Cue → Cue) (h : ∀ c, SameCue c (f c)) :
      Move s (updateCues pick f s)
  | recordLengthEnd (s : State) : Move s (recordLengthEnd s)
  | notReadyLimit (s : State) : Move s (notReadyLimit s)
  | abortActive (s : State) : Move s (abortActive s)
  | loadCue (s : State) (bs : List Byte) (c : Coerced Cue) (hc : readCue (std s) bs = some c)
      (h : loadRefusal c.value s = none) : Move s (loadCue c.value s)
  | dropCue (s : State) (tag : Byte) (c : Cue) (hc : findCue tag s = some c) (ha : c.state ≠ .active) :
      Move s (setList (removeTag tag s.cues.list) s)
  | keepCues (s : State) (keep : Cue → Bool) (h : ∀ c ∈ s.cues.list, c.state = .active → keep c = true) :
      Move s (setList (s.cues.list.filter keep) s)

/-- A sequence of changes. -/
abbrev Moves : State → State → Prop := Relation.ReflTransGen Move

theorem Moves.refl (s : State) : Moves s s := Relation.ReflTransGen.refl

theorem Moves.one {s t : State} (h : Move s t) : Moves s t := Relation.ReflTransGen.single h

theorem Moves.trans {s t u : State} (h : Moves s t) (k : Moves t u) : Moves s u := Relation.ReflTransGen.trans h k

/-- Two sequences joined, the later one given first. -/
theorem Moves.after {s t u : State} (k : Moves t u) (h : Moves s t) : Moves s u := h.trans k

/-- What every change keeps, every sequence of changes keeps. -/
theorem Moves.keeps {P : State → Prop} (h : ∀ s t, P s → Move s t → P t) {s t : State} (hs : P s)
    (m : Moves s t) : P t := by
  induction m with
  | refl => exact hs
  | tail _ m ih => exact h _ _ ih m

/-! ### Small operations -/

theorem setFlag_moves (f : Flag) (s : State) : Moves s (setFlag f s) := Moves.one (Move.flags s _)

theorem linkOnly_moves {s t : State} (h : LinkOnly s t) : Moves s t := Moves.one (Move.link h)

theorem sendMix_moves (s : State) : Moves s (sendMix s) := by
  obtain ⟨a, h⟩ := sendMix_touches s
  rw [h]; exact Moves.one (Move.mix s a)

theorem disableChase_moves (s : State) : Moves s (disableChase s) := by
  unfold disableChase; split
  · exact Moves.refl s
  · exact Moves.one (Move.freeChase s)

theorem takeCommand_moves {c : Command} (h : CommandSound c) (s : State) : Moves s (takeCommand c s) :=
  Moves.one (Move.command s c h)

theorem playSound : CommandSound (.speed 256) := by simp [CommandSound]

theorem stopSound : CommandSound .stop := trivial

/-- A speed clamped to the command range is one (R3). -/
theorem clampedSound (x : Int) : CommandSound (.speed (clampInt (-12800) 12800 x)) := by
  simp only [CommandSound, clampInt]; omega

theorem commandStop_moves (s : State) : Moves s (commandStop s) :=
  (disableChase_moves s).trans (takeCommand_moves stopSound _)

theorem updateOutput_moves (line : GpiLine) (f : GpiOutput → GpiOutput) (s : State) :
    Moves s (updateOutput line f s) := Moves.one (Move.gpi s _)

theorem updateInput_moves (line : GpiLine) (f : GpiInput → GpiInput) (s : State) :
    Moves s (updateInput line f s) := Moves.one (Move.gpi s _)

theorem updateEntry_moves (st : Station) {f : PeerEntry → PeerEntry} {s : State}
    (h : EntryFrameSound (std s) s.peers[st] → EntryFrameSound (std s) (f s.peers[st])) :
    Moves s (updateEntry st f s) := by
  refine Moves.one (Move.peers s _ fun other k => ?_)
  by_cases e : st = other
  · subst e; simpa using h k
  · have n : (st : Nat) ≠ other := fun q => e (Fin.ext q)
    simpa [Vector.getElem_set_ne _ _ n] using k

/-- Clearing a silent entry keeps its frame (R62). -/
theorem silenced_frame (fc : Word16) {x : Standard} {e : PeerEntry} (h : EntryFrameSound x e) :
    EntryFrameSound x (e.silenced fc) := by
  unfold PeerEntry.silenced; split
  · exact h
  · exact h

/-! ### Fires -/

/-- A waiting cue of a tag and an action stands in the list. -/
def Waits (tag : Byte) (action : CueAction) (s : State) : Prop :=
  ∃ c ∈ s.cues.list, c.tag = tag ∧ c.state = .waiting ∧ c.action = action

theorem waits_of_find {tag : Byte} {s : State} {c : Cue} (h : waitingCue tag s = some c) :
    c ∈ s.cues.list ∧ c.tag = tag ∧ c.state = .waiting := by
  have hw := List.find?_some h
  simp only [Cue.waitingFor, Bool.and_eq_true, decide_eq_true_eq] at hw
  exact ⟨List.mem_of_find?_eq_some h, hw.1, hw.2⟩

/-- A change of other marks of the cues leaves a waiting cue waiting. -/
theorem Waits.updateCues {tag : Byte} {action : CueAction} {s : State} (h : Waits tag action s) (pick : Cue → Bool)
    {f : Cue → Cue} (hf : ∀ c, SameCue c (f c)) : Waits tag action (updateCues pick f s) := by
  obtain ⟨c, hc, h1, h2, h3⟩ := h
  refine ⟨if pick c then f c else c, List.mem_map_of_mem hc, ?_⟩
  split
  · exact ⟨(hf c).tag.trans h1, (hf c).state.trans h2, (hf c).action.trans h3⟩
  · exact ⟨h1, h2, h3⟩

theorem Waits.completeContext {tag : Byte} {action : CueAction} {s : State} (h : Waits tag action s) :
    Waits tag action (completeContext s) := by
  obtain ⟨c, hc, h1, h2, h3⟩ := h
  unfold Machine.completeContext reportComplete
  split
  · exact ⟨c, hc, h1, h2, h3⟩
  · split
    · exact ⟨c, hc, h1, h2, h3⟩
    · rename_i k _ _
      refine ⟨if c.transiting k.tag then _ else c, List.mem_map_of_mem hc, ?_⟩
      rw [if_neg (by simp [Cue.transiting, h2])]
      exact ⟨h1, h2, h3⟩

theorem fireTransition_moves {tag : Byte} {p : TransParams} {s : State} (h : Waits tag (.transition p) s)
    (hard : Bool) : Moves s (fireTransition tag hard p s) := by
  obtain ⟨c, hc, h1, h2, h3⟩ := h.completeContext
  refine ((Moves.one (Move.completeContext s)).trans
    (Moves.one (Move.activate _ tag ⟨c, hc, h1, h2, by simp [Cue.isTransition, h3]⟩))).trans
    (Moves.one (Move.startContext _ tag hard p (Or.inr ?_)))
  refine ⟨_, List.mem_map_of_mem hc, ?_⟩
  split <;> exact h3

theorem slipAtFire_moves (tag : Byte) (s : State) : Moves s (slipAtFire tag s) :=
  (setFlag_moves .syncSlip _).after (Moves.one (Move.touchCues s _ _ fun _ => ⟨rfl, rfl, rfl, rfl⟩))

theorem Waits.slipAtFire {tag : Byte} {action : CueAction} {s : State} (h : Waits tag action s) :
    Waits tag action (slipAtFire tag s) :=
  h.updateCues (Cue.waitingFor tag) (f := fun c => { c with slipped := true }) fun _ => ⟨rfl, rfl, rfl, rfl⟩

theorem fireJudged_moves {ok : Bool} {c : Cue} {make : State → State} {P : State → Prop} {s : State}
    (hm : ∀ u, P u → Moves u (make u)) (hs : P s) (hp : P (slipAtFire c.tag s)) :
    Moves s (fireJudged ok c make s) := by
  unfold fireJudged
  split
  · exact hm s hs
  · split
    · exact (Moves.one (Move.finishWaiting s _ _ (Or.inr rfl))).trans (setFlag_moves _ _)
    · exact (slipAtFire_moves _ s).trans (hm _ hp)

theorem disableChase_cues (s : State) : (disableChase s).cues = s.cues := by
  unfold disableChase; split <;> rfl

theorem disableChase_std (s : State) : std (disableChase s) = std s := by
  unfold disableChase; split <;> rfl

theorem FrameKnown.of {s t : State} {f : Nat} (h : FrameKnown s f) (e : std t = std s) (l : t.cues = s.cues) :
    FrameKnown t f := by
  unfold FrameKnown; rw [e, l]; exact h

theorem actAtOnce_moves {action : CueAction} {s : State}
    (h : ∀ f, action = .transport (.locate f) → FrameKnown s f) : Moves s (actAtOnce action s) := by
  unfold actAtOnce
  split
  · exact commandStop_moves s
  · exact (disableChase_moves s).trans (takeCommand_moves playSound _)
  · exact (disableChase_moves s).trans
      (Moves.one (Move.locate _ _ _ ((h _ rfl).of (disableChase_std s) (disableChase_cues s))))
  · exact updateOutput_moves _ _ s
  · exact Moves.one (Move.pushMark s _)
  all_goals exact Moves.refl s

theorem fireCue_moves {c : Cue} {s : State} (ok : Bool) (hr : Running s) (hc : c ∈ s.cues.list)
    (hw : c.state = .waiting) : Moves s (fireCue ok c s) := by
  unfold fireCue
  split
  · rename_i tracks length ha
    refine fireJudged_moves (P := fun u => Running u ∧ Waits c.tag (.record tracks length) u) ?_
      ⟨hr, c, hc, rfl, hw, ha⟩ ⟨hr, Waits.slipAtFire ⟨c, hc, rfl, hw, ha⟩⟩
    exact fun u hu => Moves.one (Move.fireRecord u _ _ _ hu.1 hu.2)
  · rename_i p ha
    refine fireJudged_moves (P := fun u => Waits c.tag (.transition p) u) ?_
      ⟨c, hc, rfl, hw, ha⟩ (Waits.slipAtFire ⟨c, hc, rfl, hw, ha⟩)
    exact fun u hu => fireTransition_moves hu _
  all_goals
    refine (Moves.one (Move.finishWaiting s _ _ (Or.inl rfl))).trans (actAtOnce_moves fun f hf => Or.inr ?_)
    refine ⟨_, List.mem_map_of_mem hc, ?_⟩
    split <;> exact hf

theorem fireLine_moves {s : State} (line : GpiLine) (hr : Running s) : Moves s (fireLine line s) := by
  unfold fireLine
  split
  · rename_i c h
    have hw := List.find?_some h
    simp only [Bool.and_eq_true, decide_eq_true_eq] at hw
    exact fireCue_moves _ hr (List.mem_of_find?_eq_some h) hw.1
  · exact Moves.refl s

theorem abortCues_moves (s : State) : Moves s (abortCues s) := by
  unfold abortCues
  dsimp only
  split
  · exact Moves.one (Move.abortActive s)
  · exact (Moves.one (Move.abortActive s)).trans (sendMix_moves _)

/-! ### The Cue Engine at a boundary -/

theorem fireIfDue_moves {s : State} (ok : Bool) (due : Cue → Bool) (c : Cue) (hr : Running s) :
    Moves s (fireIfDue ok due s c) := by
  unfold fireIfDue
  split
  · rename_i q h
    split
    · rename_i hq
      simp only [Bool.and_eq_true, decide_eq_true_eq] at hq
      exact fireCue_moves _ hr (List.mem_of_find?_eq_some h) hq.1
    · exact Moves.refl s
  · exact Moves.refl s

theorem fireIfDue_running {s : State} (ok : Bool) (due : Cue → Bool) (c : Cue) (hr : Running s) :
    Running (fireIfDue ok due s c) := by
  unfold fireIfDue
  split
  · split
    · exact (congrArg Power.supervisor (fireCue_edit _ _ s).power).trans hr
    · exact hr
  · exact hr

theorem fireList_moves (ok : Bool) (due : Cue → Bool) (cs : List Cue) {s : State} (hr : Running s) :
    Moves s (cs.foldl (fireIfDue ok due) s) := by
  induction cs generalizing s with
  | nil => exact Moves.refl s
  | cons c cs ih => exact (fireIfDue_moves ok due c hr).trans (ih (fireIfDue_running ok due c hr))

theorem judgeRecord_moves (ok : Bool) (s : State) : Moves s (judgeRecord ok s) := by
  unfold judgeRecord
  split
  · exact (Moves.one (Move.notReadyLimit _)).after (Moves.one (Move.touchCues s _ _ fun _ => ⟨rfl, rfl, rfl, rfl⟩))
  · exact Moves.refl s

theorem runEarlier_moves (ok : Bool) (before : Option Cue) (s : State) : Moves s (runEarlier ok before s) := by
  unfold runEarlier
  split
  · split
    · exact (judgeRecord_moves _ _).after ((Moves.one (Move.recordLengthEnd _)).after
        (Moves.one (Move.touchCues s _ _ fun _ => ⟨rfl, rfl, rfl, rfl⟩)))
    · exact Moves.refl s
  · exact Moves.refl s

theorem cueBoundary_moves {s : State} (hr : Running s) : Moves s (cueBoundary s) :=
  ((fireList_moves _ _ _ hr).trans (runEarlier_moves _ _ _)).trans (Moves.one (Move.samples _ _ _))

/-! ### The chase -/

/-- A step of the servo that stays where the chase is. -/
theorem chaseStep_stay {s : State} {x : Chase} (h1 : x.lead = s.chase.lead) (h2 : x.offset = s.chase.offset)
    (h3 : x.state = s.chase.state) (h4 : x.handed = s.chase.handed) (h5 : x.record.target = s.chase.record.target)
    (h6 : x.parkFrame = s.chase.parkFrame) : ChaseStep s x :=
  ⟨h1, Or.inl h2, by rw [h3], fun h => Or.inl (h3 ▸ h), Or.inl h4, Or.inl h5, Or.inl h6⟩

/-- A step of an enabled servo to a state that is neither FREE nor LOCKED. -/
theorem chaseStep_move {s : State} {x : Chase} (h0 : s.chase.state ≠ .free) (h1 : x.lead = s.chase.lead)
    (h2 : x.offset = s.chase.offset) (h3 : x.state ≠ .free) (h4 : x.state ≠ .locked)
    (h5 : x.handed = s.chase.handed) (h6 : x.record.target = s.chase.record.target)
    (h7 : x.parkFrame = s.chase.parkFrame ∨ ∀ f ∈ x.parkFrame, f < (std s).fpd) : ChaseStep s x :=
  ⟨h1, Or.inl h2, ⟨fun h => absurd h h3, fun h => absurd h h0⟩, fun h => absurd h h4, Or.inl h5, Or.inl h6, h7⟩

/-- An enabled chase; every operation of an evaluation keeps it so. -/
def Enabled (s : State) : Prop := s.chase.state ≠ .free

theorem lockIfDue_moves {s : State} (hr : Running s) : Moves s (lockIfDue s) := by
  unfold lockIfDue
  split
  · rename_i h
    refine Moves.one (Move.chase s _ ⟨rfl, Or.inl rfl, ?_, ?_, Or.inl rfl, Or.inl rfl, Or.inl rfl⟩)
    · simp [h.1]
    · intro _
      have hc := h.2.2
      simp only [lockConditions, Bool.and_eq_true, decide_eq_true_eq] at hc
      exact Or.inr ⟨hr, hc.1.1.1, Or.inr hc.1.1.2⟩
  · exact Moves.refl s

theorem unlock_moves {s : State} (h : s.chase.state = .locked) : Moves s (unlock s) :=
  Moves.one (Move.chase s _ (chaseStep_move (by simp [h]) rfl rfl (by simp) (by simp) rfl rfl (Or.inl rfl)))

theorem unlockIfOut_moves (s : State) : Moves s (unlockIfOut s) := by
  unfold unlockIfOut
  split
  · rename_i h; exact unlock_moves h.1
  · exact Moves.refl s

theorem unlockIfUnsound_moves (s : State) : Moves s (unlockIfUnsound s) := by
  unfold unlockIfUnsound
  split
  · rename_i h; exact unlock_moves h.1
  · exact Moves.refl s

theorem judgeLock_moves {s : State} (e : Int) (hr : Running s) : Moves s (judgeLock e s) := by
  unfold judgeLock
  split
  · exact (unlockIfUnsound_moves _).after ((unlockIfOut_moves _).after
      (Moves.one (Move.chase s _ (chaseStep_stay rfl rfl rfl rfl rfl rfl))))
  · refine (lockIfDue_moves ?_).after (Moves.one (Move.chase s _ (chaseStep_stay rfl rfl rfl rfl rfl rfl)))
    exact hr

/-- A sum of positions lies within the day (R12). -/
theorem modSum_lt (x : Standard) (a : Nat) (b : Int) : modSum x a b < x.day := by
  have hpos : 0 < x.day := by cases x <;> decide
  unfold modSum
  have h1 := Int.emod_lt_of_pos ((a : Int) + b) (show (0 : Int) < (x.day : Int) by exact_mod_cast hpos)
  have h2 := Int.emod_nonneg ((a : Int) + b) (show (x.day : Int) ≠ 0 by exact_mod_cast hpos.ne')
  omega

theorem parkTarget_lt (s : State) : parkTarget s < (std s).fpd := by
  have h := modSum_lt (std s) (extrapolated (leadEntry s) s) (512 * s.chase.offset : Nat)
  have e : (std s).day = (std s).fpd * 512 := rfl
  unfold parkTarget chaseTarget frameView
  omega

theorem park_moves {s : State} (e : Int) (h : Enabled s) : Moves s (park e s) := by
  have hp : ∀ c done, (Chase.parkAt c (parkTarget s) done).parkFrame = s.chase.parkFrame
      ∨ ∀ f ∈ (Chase.parkAt c (parkTarget s) done).parkFrame, f < (std s).fpd :=
    fun _ _ => Or.inr (by simpa [Chase.parkAt] using parkTarget_lt s)
  unfold park
  dsimp only
  split
  · exact Moves.one (Move.chase s _
      (chaseStep_move h rfl rfl (by simp [Chase.parkAt]) (by simp [Chase.parkAt]) rfl rfl (hp _ _)))
  · refine Moves.after (Moves.one (Move.locate _ _ _ (Or.inl (parkTarget_lt s)))) (Moves.one (Move.chase s _ ?_))
    exact chaseStep_move h rfl rfl (by simp [Chase.parkAt]) (by simp [Chase.parkAt]) rfl rfl (hp _ _)

theorem syncLaw_moves {s : State} (e : Int) (hr : Running s) (h : Enabled s) : Moves s (syncLaw e s) := by
  unfold syncLaw
  dsimp only
  refine (judgeLock_moves e ?_).after ((takeCommand_moves (clampedSound _) _).after
    (Moves.one (Move.chase s _
      ⟨rfl, Or.inl rfl, ?_, ?_, Or.inl rfl, Or.inl rfl, Or.inr (by simp [Chase.underSync])⟩)))
  · exact (congrArg Power.supervisor (takeCommand_edit _ _).power).trans hr
  · simp only [Chase.underSync]
    split
    · rename_i hl; simp [hl]
    · simp [show s.chase.state ≠ .free from h]
  · simp only [Chase.underSync]
    split
    · rename_i hl; exact fun _ => Or.inl hl
    · simp

theorem followFresh_moves {s : State} (hr : Running s) (h : Enabled s) : Moves s (followFresh s) := by
  unfold followFresh
  dsimp only
  split
  · exact (takeCommand_moves playSound _).after
      (Moves.one (Move.chase s _ (chaseStep_move h rfl rfl (by simp [Chase.enter]) (by simp [Chase.enter]) rfl rfl
        (Or.inr (by simp [Chase.enter])))))
  · split
    · exact park_moves _ h
    · split
      · exact (takeCommand_moves (clampedSound _) _).after (Moves.one
          (Move.chase s _ (chaseStep_move h rfl rfl (by simp [Chase.enter]) (by simp [Chase.enter]) rfl rfl
            (Or.inr (by simp [Chase.enter])))))
      · exact syncLaw_moves _ hr h

theorem freewheelStop_moves (s : State) : Moves s (freewheelStop s) := by
  unfold freewheelStop
  split
  · exact takeCommand_moves stopSound s
  · exact Moves.refl s

theorem countFreewheel_moves (s : State) : Moves s (countFreewheel s) := by
  unfold countFreewheel
  split
  · exact (freewheelStop_moves _).after (Moves.one (Move.chase s _ (chaseStep_stay rfl rfl rfl rfl rfl rfl)))
  · exact Moves.refl s

theorem followStale_moves {s : State} (h : Enabled s) : Moves s (followStale s) := by
  unfold followStale
  split
  · exact countFreewheel_moves s
  · exact Moves.one (Move.chase s _ (chaseStep_move h rfl rfl (by simp) (by simp) rfl rfl (Or.inr (by simp))))

theorem followCoasting_moves {s : State} (h : Enabled s) : Moves s (followCoasting s) := by
  unfold followCoasting
  split
  · exact countFreewheel_moves s
  · refine Moves.one (Move.chase s _ (chaseStep_move h rfl rfl ?_ ?_ rfl rfl (Or.inl rfl)))
    · dsimp only; split
      · simp
      · exact h
    · dsimp only; split
      · simp
      · assumption

theorem followLive_moves {s : State} (hl : isDeck s = false) (hr : Running s) (h : Enabled s) :
    Moves s (followLive s) := by
  have live : role s = .live := by simpa [isDeck] using hl
  unfold followLive
  split
  · refine Moves.one (Move.chase s _ ⟨rfl, Or.inl rfl, ?_, ?_, Or.inl rfl, Or.inl rfl, Or.inl rfl⟩)
    · dsimp only; split <;> simp [show s.chase.state ≠ .free from h]
    · dsimp only; split
      · rename_i hp; exact fun _ => Or.inr ⟨hr, hp, Or.inl live⟩
      · simp
  · exact Moves.one (Move.chase s _ (chaseStep_move h rfl rfl (by simp) (by simp) rfl rfl (Or.inl rfl)))
  · exact followStale_moves h

theorem follow_moves {s : State} (hr : Running s) (h : Enabled s) : Moves s (follow s) := by
  unfold follow
  split
  · split
    · exact followFresh_moves hr h
    · exact followCoasting_moves h
    · exact followStale_moves h
  · rename_i hd
    exact followLive_moves (by simpa using hd) hr h

theorem chaseBoundary_moves {s : State} (hr : Running s) : Moves s (chaseBoundary s) := by
  unfold chaseBoundary
  split
  · exact Moves.one (Move.chase s _
      ⟨rfl, Or.inl rfl, Iff.rfl, fun h => Or.inl h, Or.inr (Or.inr rfl), Or.inr (Or.inr rfl), Or.inl rfl⟩)
  · rename_i h
    dsimp only
    have k := follow_edit s
    have hstd : std (follow s) = std s := congrArg standardOf k.straps
    have ht : (followRecord (targetNow s) (follow s)).target < (std (follow s)).day
        ∨ (followRecord (targetNow s) (follow s)).target = (follow s).pos.published.position := by
      simp only [followRecord, targetNow]
      split
      · left
        simp only [Option.getD_some, chaseTarget, hstd]
        exact modSum_lt _ _ _
      · right; rfl
    exact (follow_moves hr h).trans (Moves.one (Move.chase _ _
      ⟨rfl, Or.inl rfl, Iff.rfl, fun h => Or.inl h, Or.inr ht, Or.inr ht, Or.inl rfl⟩))

/-! ### The transport at a boundary -/

theorem locateSpeed_sound (dist : Int) : CommandSound (locateSpeed dist) := by
  unfold locateSpeed CommandSound signOf
  dsimp only
  split
  · constructor <;> push_cast <;> omega
  · split
    · simp
    · constructor <;> push_cast <;> omega

theorem inDrive_sound (l : Locate) (dist : Int) : CommandSound (l.inDrive dist).drive := by
  unfold Locate.inDrive
  split
  · trivial
  · exact locateSpeed_sound dist

theorem take_sound {l : Locate} (h : CommandSound l.drive) (r : PosRecord) (eot : Bool) (dist : Int) :
    CommandSound (l.take r eot dist).drive := by
  unfold Locate.take
  dsimp only
  split
  · split
    · exact h
    · exact inDrive_sound _ dist
  · exact inDrive_sound _ dist
  · trivial

theorem inDrive_target (l : Locate) (dist : Int) : (l.inDrive dist).target = l.target := by
  unfold Locate.inDrive; split <;> rfl

theorem take_target (l : Locate) (r : PosRecord) (eot : Bool) (dist : Int) : (l.take r eot dist).target = l.target := by
  unfold Locate.take
  dsimp only
  split
  · split
    · rfl
    · exact inDrive_target _ dist
  · exact inDrive_target _ dist
  · rfl

theorem locateTake_moves (s : State) : Moves s (locateTake s) := by
  unfold locateTake
  split
  · rename_i l h
    exact Moves.one (Move.locateGoesOn s l _ h (take_target _ _ _ _) fun k => take_sound k _ _ _)
  · exact Moves.refl s

theorem locateSettle_moves (s : State) : Moves s (locateSettle s) := by
  unfold locateSettle
  split
  · rename_i l h
    split
    · split
      · exact Moves.one (Move.locateSucceed s l h)
      · split
        · exact Moves.one (Move.locateFail s l h)
        · exact Moves.one (Move.locateGoesOn s l _ h rfl fun _ => locateSpeed_sound _)
    · exact Moves.refl s
  · exact Moves.refl s

theorem locateAcquireLimit_moves (s : State) : Moves s (locateAcquireLimit s) := by
  unfold locateAcquireLimit
  split
  · rename_i l h
    split
    · exact Moves.one (Move.locateFail s l h)
    · exact Moves.refl s
  · exact Moves.refl s

theorem locateEotLimit_moves (s : State) : Moves s (locateEotLimit s) := by
  unfold locateEotLimit
  split
  · rename_i l h
    split
    · exact Moves.one (Move.locateFail s l h)
    · exact Moves.refl s
  · exact Moves.refl s

theorem locateRecordLimit_moves (s : State) : Moves s (locateRecordLimit s) := by
  unfold locateRecordLimit
  split
  · rename_i l h
    split
    · exact Moves.one (Move.locateFail s l h)
    · exact Moves.refl s
  · exact Moves.refl s

theorem locateRecord_moves (s : State) : Moves s (locateRecord s) :=
  ((((locateTake_moves s).trans (locateSettle_moves _)).trans (locateAcquireLimit_moves _)).trans
    (locateEotLimit_moves _)).trans (locateRecordLimit_moves _)

theorem locateBoundary_moves (s : State) : Moves s (locateBoundary s) := by
  unfold locateBoundary
  split
  · exact Moves.refl s
  · exact locateRecord_moves s

theorem servoExpiry_moves (s : State) : Moves s (servoExpiry s) := by
  unfold servoExpiry
  split
  · exact setFlag_moves _ s
  · exact Moves.refl s

theorem transportBoundary_moves (s : State) : Moves s (transportBoundary s) :=
  ((((Moves.one (Move.countServo s)).trans (servoExpiry_moves _)).trans (Moves.one (Move.countTally _))).trans
    (Moves.one (Move.tallyExpiry _))).trans (Moves.one (Move.speedWord _))

/-! ### The field boundary -/

theorem takeBoundary_moves (t : Taker) {s : State} (hr : Running s) : Moves s (takeBoundary t s) := by
  cases t
  · exact Moves.one (Move.publish s)
  · exact chaseBoundary_moves hr
  · exact Moves.one (Move.virtual s)
  · exact cueBoundary_moves hr
  · exact locateBoundary_moves s
  · exact Moves.one (Move.fader s)
  · exact Moves.one (Move.gpi s _)
  · exact Moves.one (Move.peers s _ fun st k => by simpa using silenced_frame _ k)
  · exact transportBoundary_moves s
  · exact linkOnly_moves (linkBoundary_only s)
  · exact linkOnly_moves (composeBulletin_only s)

theorem fieldBoundary_moves (identity : Option Bool) {s : State} (hr : Running s) :
    Moves s (fieldBoundary identity s) := by
  refine (fieldBoundary_keeps (P := fun u => Moves s u ∧ Running u) identity ?_ ?_).1
  · refine ⟨(Moves.one (Move.choices s _)).trans (Moves.one (Move.time _ _ (fun _ h => h) fun h => h)), hr⟩
  · intro t u h
    exact ⟨h.1.trans (takeBoundary_moves t h.2), (congrArg Power.supervisor (takeBoundary_keeps t u).power).trans h.2⟩

theorem setTime_moves {s : State} (x : Timebase)
    (h : s.chase.state = .locked → s.time.refState = .present → x.refState = .present)
    (hs : TimebaseSound s → TimebaseSound (s.setTime x)) : Moves s (s.setTime x) :=
  Moves.one (Move.time s x h hs)

theorem lostNotPresent : ¬RefState.lost = .present := by decide

theorem settlingNotPresent : ¬RefState.settling = .present := by decide

theorem period_pos (x : Standard) : 0 < x.period := by cases x <;> decide

theorem atTime_moves (time : Nat) (s : State) : Moves s (atTime time s) := by
  refine setTime_moves _ (fun _ h => h) fun h => ⟨Nat.mod_lt _ (period_pos _), fun k => if_pos k, h.2.2⟩

theorem settlingPulse_moves {s : State} (h : s.time.refState = .settling) : Moves s (settlingPulse s) := by
  have n : s.time.refState ≠ .present := by simp [h]
  unfold settlingPulse warmPulse loseReference
  split
  · split
    · split
      · exact setTime_moves _ (fun _ _ => rfl) fun q => ⟨q.1, fun _ => rfl, Nat.le_refl 16⟩
      · rename_i w
        refine setTime_moves _ (fun _ k => k) fun q => ⟨q.1, fun k => absurd k n, ?_⟩
        exact Nat.le_of_lt (Nat.lt_of_not_ge w)
    · exact setTime_moves _ (fun _ k => absurd k n) fun q => ⟨q.1, fun k => (lostNotPresent k).elim, Nat.zero_le _⟩
  · exact setTime_moves _ (fun _ k => absurd k n) fun q => ⟨q.1, fun k => (lostNotPresent k).elim, Nat.zero_le _⟩

theorem referencePulse_moves (time : Nat) (first : Bool) {s : State} (hr : Running s) :
    Moves s (referencePulse time first s) := by
  unfold referencePulse pulseNow
  refine (atTime_moves time s).trans ?_
  split
  · split
    · refine Moves.after (fieldBoundary_moves _ ?_)
        (setTime_moves _ (fun _ h => h) fun q => ⟨period_pos _, q.2.1, q.2.2⟩)
      exact hr
    · exact Moves.refl _
  · rename_i h
    exact setTime_moves _ (fun _ k => absurd k (by rw [h]; simp)) fun q => ⟨q.1, fun k => (settlingNotPresent k).elim, Nat.one_le_ofNat⟩
  · rename_i h
    exact settlingPulse_moves h

theorem missingLimitPresent_moves {s : State} (hr : Running s) : Moves s (missingLimitPresent s) := by
  unfold missingLimitPresent
  split
  · have e : ∀ (x : Timebase) (u : State), loseLock (setFlag .refLost (u.setTime x))
        = (setFlag .refLost (loseLock u)).setTime x := by
      intro x u
      by_cases h : u.chase.state = .locked <;> simp [loseLock, setFlag, h] <;> rfl
    have m : ∀ (x : Timebase) (u : State), (∀ v : State, std v = std u → TimebaseSound (v.setTime x)) →
        Moves u (loseLock (setFlag .refLost (u.setTime x))) := by
      intro x u hx
      rw [e]
      refine ((Moves.one (Move.loseLock u)).trans (setFlag_moves _ _)).trans
        (setTime_moves _ (fun k => ?_) fun _ => hx _ ?_)
      · exact absurd k (loseLock_not_locked u)
      · obtain ⟨a, h⟩ := loseLock_touches u
        rw [h]; rfl
    unfold missPresent loseReference
    dsimp only
    rw [State.setTime_setTime]
    refine ((atTime_moves _ s).trans (m _ _ fun v hv => ⟨?_, ?_, Nat.zero_le _⟩)).trans (fieldBoundary_moves _ ?_)
    · have hs : std (atTime (s.time.lastRef + (std s).missingLimit) s) = std s := rfl
      have := period_pos (std s)
      show (std s).period / 2 < (std v).period
      rw [hv, hs]; omega
    · exact fun k => (lostNotPresent k).elim
    · have r : ∀ u : State, Running u → Running (loseLock (setFlag .refLost u)) := by
        intro u hu
        obtain ⟨a, h⟩ := loseLock_touches (setFlag .refLost u)
        rw [h]; exact hu
      exact r _ hr
  · exact Moves.refl s

theorem missingLimitSettling_moves (s : State) : Moves s (missingLimitSettling s) := by
  unfold missingLimitSettling
  split
  · rename_i h
    refine (atTime_moves _ s).trans
      (setTime_moves _ (fun _ k => ?_) fun q => ⟨q.1, fun k => (lostNotPresent k).elim, Nat.zero_le _⟩)
    have k' : s.time.refState = .present := k
    rw [h] at k'; cases k'
  · exact Moves.refl s

theorem internalBoundary_moves {s : State} (hr : Running s) : Moves s (internalBoundary s) := by
  unfold internalBoundary
  split
  · exact Moves.refl s
  · rename_i np
    refine Moves.after (fieldBoundary_moves none ?_) ?_
    · unfold completePeriod; split <;> exact hr
    · unfold completePeriod
      split
      · exact setTime_moves _ (fun _ h => h) fun q => ⟨period_pos _, fun k => absurd k np, q.2.2⟩
      · exact setTime_moves _ (fun _ h => h) fun q => ⟨q.1, fun k => absurd k np, q.2.2⟩

/-! ### Other commands -/

theorem transitionComplete_moves (s : State) : Moves s (transitionComplete s) := by
  unfold transitionComplete
  split
  · exact Moves.refl s
  · split
    · exact (Moves.one (Move.completeContext s)).trans (sendMix_moves _)
    · exact Moves.refl s

theorem endMixRecord_moves (s : State) : Moves s (endMixRecord s) := by
  obtain ⟨a, h⟩ := endMixRecord_touches s
  rw [h]; exact Moves.one (Move.mix s a)

theorem refreshRecord_moves (before s : State) : Moves s (refreshRecord before s) := by
  unfold refreshRecord
  split
  · exact Moves.refl s
  · exact Moves.one (Move.chase s _ (chaseStep_stay rfl rfl rfl rfl rfl rfl))

theorem chaseLock_moves {s : State} (hr : Running s) : Moves s (chaseLock s) := by
  unfold chaseLock
  split
  · exact (lockIfDue_moves hr).trans (refreshRecord_moves _ _)
  · exact Moves.refl s

theorem outWindowExpiry_moves (s : State) : Moves s (outWindowExpiry s) := by
  unfold outWindowExpiry
  split
  · exact (unlockIfOut_moves s).trans (refreshRecord_moves _ _)
  · exact Moves.refl s

theorem performBinding_moves (b : Binding) (line : GpiLine) {s : State} (hr : Running s) :
    Moves s (performBinding b line s) := by
  unfold performBinding
  split
  · exact fireLine_moves line hr
  · exact Moves.one (Move.pushMark s _)
  · unfold edgePlay
    split
    · exact takeCommand_moves playSound s
    · exact Moves.refl s
  · unfold edgeStop
    split
    · exact commandStop_moves s
    · exact Moves.refl s
  · exact abortCues_moves s
  · exact Moves.refl s

theorem meetEdge_moves (rise : Bool) (line : GpiLine) {s : State} (hr : Running s) :
    Moves s (meetEdge rise s line) := by
  unfold meetEdge
  dsimp only
  split
  · exact (updateInput_moves _ _ s).trans (performBinding_moves _ _ hr)
  · exact Moves.refl s

theorem meetEdge_running (rise : Bool) (line : GpiLine) {s : State} (hr : Running s) :
    Running (meetEdge rise s line) := by
  unfold meetEdge
  dsimp only
  split
  · exact (congrArg Power.supervisor (performBinding_edit _ _ _).power).trans hr
  · exact hr

theorem gpiEdge_moves (line : GpiLine) (rise : Bool) {s : State} (hr : Running s) :
    Moves s (gpiEdge line rise s) := by
  unfold gpiEdge
  split
  · split
    · exact Moves.refl s
    · exact (updateInput_moves _ _ s).trans (meetEdge_moves _ _ hr)
  · exact updateInput_moves _ _ s

theorem meetEdges_moves (levels : BitVec 4) (edges : List GpiLine) {s : State} (hr : Running s) :
    Moves s (edges.foldl (fun u line => meetEdge (levelOf levels line) u line) s) := by
  induction edges generalizing s with
  | nil => exact Moves.refl s
  | cons a l ih => exact (meetEdge_moves _ _ hr).trans (ih (meetEdge_running _ _ hr))

theorem gpiSample_moves (levels : BitVec 4) {s : State} (hr : Running s) : Moves s (gpiSample levels s) :=
  ((Moves.one (Move.gpi s _)).trans (Moves.one (Move.choices _ _))).trans (meetEdges_moves _ _ hr)

/-! ### Link commands -/

theorem lineQuiet_moves (time : Nat) (s : State) : Moves s (lineQuiet time s) := by
  have q : ∀ u, LinkOnly u (quietNow u) := by
    intro u
    unfold quietNow discardFrame
    dsimp only
    split
    · exact (((setLink_only _ u).trans (setFlag_only _ _)).trans (setLink_only _ _)).trans (beginDeferral_only _)
    · exact (setLink_only _ u).trans (beginDeferral_only _)
  unfold lineQuiet
  split
  · exact (atTime_moves _ s).trans (linkOnly_moves (q _))
  · exact atTime_moves _ s

theorem gapError_moves (time : Nat) (s : State) : Moves s (gapError time s) := by
  have q : ∀ u, LinkOnly u (quietNow u) := by
    intro u
    unfold quietNow discardFrame
    dsimp only
    split
    · exact (((setLink_only _ u).trans (setFlag_only _ _)).trans (setLink_only _ _)).trans (beginDeferral_only _)
    · exact (setLink_only _ u).trans (beginDeferral_only _)
  unfold gapError
  split
  · exact (atTime_moves _ s).trans (linkOnly_moves (q _))
  · exact atTime_moves _ s

theorem deferralEnd_moves (time : Nat) (s : State) : Moves s (deferralEnd time s) := by
  unfold deferralEnd
  dsimp only
  split
  · exact (atTime_moves _ s).trans (linkOnly_moves (startHead_only _))
  all_goals exact atTime_moves _ s

theorem startBit_only (s : State) : LinkOnly s (startBit s) := by
  unfold startBit
  dsimp only
  split
  · exact (abandonDeferral_only s).trans (setLink_only _ _)
  · exact LinkOnly.refl s

theorem frameSent_only (s : State) : LinkOnly s (frameSent s) := by
  unfold frameSent
  split
  · exact setLink_only _ s
  all_goals exact LinkOnly.refl s

theorem jamEnd_only (s : State) : LinkOnly s (jamEnd s) := by
  unfold jamEnd
  split
  · exact setLink_only _ s
  all_goals exact LinkOnly.refl s

theorem flagDropped_only (f : TxFrame) (s : State) : LinkOnly s (flagDropped f s) := by
  unfold flagDropped
  split
  · exact setFlag_only _ s
  · exact LinkOnly.refl s

theorem settleCollided_only (f : TxFrame) (gone : Bool) (s : State) : LinkOnly s (settleCollided f gone s) := by
  unfold settleCollided dropFrames
  split
  · exact (setLink_only _ s).trans (flagDropped_only _ _)
  · split
    · exact ((setLink_only _ s).trans (flagDropped_only _ _)).trans (setFlag_only _ _)
    · unfold returnFrame
      dsimp only
      split <;> exact setLink_only _ s

theorem collide_only (s : State) : LinkOnly s (collide s) := by
  unfold collide
  split
  · exact (setLink_only _ s).trans (settleCollided_only _ _ _)
  all_goals exact LinkOnly.refl s

theorem judgeStart_only (first : LinkChar) (second : Option LinkChar) (s : State) :
    LinkOnly s (judgeStart first second s) := by
  unfold judgeStart
  dsimp only
  split
  · exact (startBit_only s).trans (setLink_only _ _)
  · exact LinkOnly.refl s

theorem frameStart_only (line : List Bool) (s : State) : LinkOnly s (frameStart line s) := by
  unfold frameStart
  split
  · exact LinkOnly.refl s
  · exact judgeStart_only _ _ s

theorem discardFrame_only (next : RxState) (s : State) : LinkOnly s (discardFrame next s) :=
  (setLink_only _ s).trans (setFlag_only _ _)

theorem brokenFrame_only (line : List Bool) (s : State) : LinkOnly s (brokenFrame line s) := by
  unfold brokenFrame
  split
  · exact discardFrame_only _ s
  · exact LinkOnly.refl s

theorem received_only (s : State) : LinkOnly s (received s) := setLink_only _ s

theorem arrive_moves {take : State → State} {s : State} (source : Byte) (h : Moves (received s) (take (received s))) :
    Moves s (arrive source take s) := by
  unfold arrive
  split
  · split
    · exact linkOnly_moves (discardFrame_only _ s)
    · exact (linkOnly_moves (received_only s)).trans h
  · exact Moves.refl s

theorem takeBulletin_moves (source : Byte) (payload : List Byte) (s : State) :
    Moves s (takeBulletin source payload s) := by
  unfold takeBulletin
  split
  · exact setFlag_moves _ s
  · split
    · rename_i h
      exact updateEntry_moves _ fun _ => readBulletin_frame h
    · exact Moves.refl s

theorem requestNotAddressed_moves (source : Byte) (payload : List Byte) (s : State) :
    Moves s (requestNotAddressed source payload s) := by
  unfold requestNotAddressed
  split
  · exact arrive_moves source (Moves.refl _)
  · exact Moves.refl s

/-! ### Requests -/

/-- A request that is taken changes what its judgement changes, and the record. -/
theorem takeRequest_moves (r : Request) {judge : State → Judged} {s : State} (h : Moves (received s) (judge (received s)).2) :
    Moves s (takeRequest r judge s) := by
  refine arrive_moves r.source ?_
  unfold takeIfAddressed
  split
  · exact h.trans (Moves.one (Move.req _ _))
  · exact Moves.refl _

theorem withLength_moves (n : Nat) (r : Request) {judge : State → Judged} {s : State} (h : Moves s (judge s).2) :
    Moves s (withLength n r judge s).2 := by
  unfold withLength
  split
  · exact h
  · exact Moves.refl s

theorem answer_moves {x : Option ReqResult} {result : ReqResult} {effect : State → State} {s : State}
    (h : x = none → Moves s (effect s)) : Moves s (answer x result effect s).2 := by
  cases x with
  | none => exact h rfl
  | some _ => exact Moves.refl s

theorem judgeLocate_moves (r : Request) (s : State) : Moves s (judgeLocate r s).2 := by
  refine withLength_moves _ _ ?_
  split
  · exact Moves.refl s
  · rename_i c hc
    exact answer_moves fun _ => Moves.one (Move.locate s _ _ (Or.inl (readLabel_lt hc)))

theorem judgeArm_moves (r : Request) (s : State) : Moves s (judgeArm r s).2 := by
  refine withLength_moves _ _ (answer_moves fun h => Moves.one (Move.arm s _ ?_))
  unfold armRefusal at h
  split at h
  · cases h
  · split at h
    · cases h
    · rename_i hn; simpa using hn

theorem unchase_moves (s : State) : Moves s (unchase s) := by
  unfold unchase
  split
  · exact Moves.refl s
  · refine (Moves.one (Move.freeChase s)).trans (takeCommand_moves ?_ _)
    unfold handOver
    split
    · exact playSound
    · exact stopSound

/-- A held offset is a frame count (R15). -/
theorem heldOffset_lt (x : Standard) (minus : Bool) (c : Nat) : heldOffset x minus c < x.fpd := by
  have hpos : 0 < x.fpd := by cases x <;> decide
  unfold heldOffset
  have h1 := Int.emod_lt_of_pos (signedCount minus c) (show (0 : Int) < (x.fpd : Int) by exact_mod_cast hpos)
  have h2 := Int.emod_nonneg (signedCount minus c) (show (x.fpd : Int) ≠ 0 by exact_mod_cast hpos.ne')
  omega

theorem chaseLead_moves {lead : Station} {offset : Nat} {s : State} (hl : lead ≠ own s) (ho : offset < (std s).fpd) :
    Moves s (chaseLead lead offset s) := by
  unfold chaseLead
  split
  · exact Moves.refl s
  · exact Moves.one (Move.startChase s lead offset hl ho)

theorem judgeChase_moves (r : Request) (s : State) : Moves s (judgeChase r s).2 := by
  refine withLength_moves _ _ ?_
  split
  · split
    · unfold judgeChaseWith
      split
      · exact answer_moves fun _ => unchase_moves s
      · rename_i hl
        exact answer_moves fun _ => chaseLead_moves hl (heldOffset_lt _ _ _)
    · exact Moves.refl s
  · exact Moves.refl s

theorem judgeCueLoad_moves (r : Request) (s : State) : Moves s (judgeCueLoad r s).2 := by
  unfold judgeCueLoad
  split
  · exact Moves.refl s
  · rename_i c hc
    exact answer_moves fun h => Moves.one (Move.loadCue s _ c hc h)

theorem judgeCueDrop_moves (r : Request) (s : State) : Moves s (judgeCueDrop r s).2 := by
  refine withLength_moves _ _ (answer_moves fun h => ?_)
  unfold dropRefusal at h
  split at h
  · rename_i c hc
    split at h
    · cases h
    · rename_i ha; exact Moves.one (Move.dropCue s _ c hc ha)
  · cases h

theorem judgeFire_moves (r : Request) {s : State} (hr : Running s) : Moves s (judgeFire r s).2 := by
  refine withLength_moves _ _ ?_
  split
  · rename_i c hc
    obtain ⟨h1, -, h3⟩ := waits_of_find hc
    exact fireCue_moves _ hr h1 h3
  · exact Moves.refl s

theorem judgeLocateMark_moves (r : Request) (s : State) : Moves s (judgeLocateMark r s).2 := by
  refine withLength_moves _ _ ?_
  split
  · exact Moves.refl s
  · exact Moves.refl s
  · rename_i m rest _ hm
    exact Moves.one (Move.locateMark s m rest hm)

theorem judgeGpiBind_moves (r : Request) (s : State) : Moves s (judgeGpiBind r s).2 := by
  refine withLength_moves _ _ ?_
  split
  · exact Moves.one (Move.gpi s _)
  · exact Moves.refl s

theorem judgeTallyMap_moves (r : Request) (s : State) : Moves s (judgeTallyMap r s).2 := by
  refine withLength_moves _ _ ?_
  split
  · exact Moves.one (Move.gpi s _)
  · exact Moves.refl s

theorem judgeReadCues_moves (r : Request) (s : State) : Moves s (judgeReadCues r s).2 := by
  refine withLength_moves _ _ ?_
  split
  · exact answer_moves fun _ => linkOnly_moves (joinReport_only _ s)
  · exact Moves.refl s

/-- A FADER's parameters are within their ranges (R156). -/
theorem faderParams_sound (a b : Nat) (p : Pattern) :
    ParamsSound (faderParams (atMost 1024 a).value (atMost 999 b).value p) := by
  simp [ParamsSound, faderParams, atMost]

theorem startFader_moves (a b : Nat) (s : State) :
    Moves s (startFader (atMost 1024 a).value (atMost 999 b).value s) :=
  (Moves.one (Move.choices s (s.choices + 1))).trans
    (Moves.one (Move.startContext _ _ _ _ (Or.inl (faderParams_sound _ _ _))))

/-- After the aborts no RECORD cue is ACTIVE. -/
theorem setList_nil_moves (s : State) (h : ∀ c ∈ s.cues.list, c.state ≠ .active) : Moves s (setList [] s) := by
  have e : s.cues.list.filter (fun _ => false) = [] := by simp
  rw [← e]
  exact Moves.one (Move.keepCues s _ fun c hc ha => absurd ha (h c hc))

/-- `abortActive` leaves no cue ACTIVE (R139). -/
theorem abortActive_none (s : State) : ∀ c ∈ (abortActive s).cues.list, c.state ≠ .active := by
  unfold abortActive
  dsimp only
  split
  · intro c hc
    simp only [setFlag, updateCues, State.setFlags_cues, State.setCues_cues, List.mem_map] at hc
    obtain ⟨d, -, rfl⟩ := hc
    split
    · simp [Cue.finishAs]
    · rename_i h; simpa using h
  · rename_i h
    intro c hc ha
    exact h (List.any_eq_true.mpr ⟨c, hc, by simpa using ha⟩)

theorem clearFader_cues (s : State) : (clearFader s).cues = s.cues := by
  obtain ⟨a, h⟩ := cutContext_touches s
  simp [clearFader, h]

theorem clearChase_moves (s : State) : Moves s (clearChase s) :=
  (Moves.one (Move.freeChase _)).after
    (Moves.one (Move.chase s _ ⟨rfl, Or.inr rfl, Iff.rfl, fun h => Or.inl h, Or.inl rfl, Or.inl rfl, Or.inl rfl⟩))

/-- Taking a command leaves an empty list empty. -/
theorem takeCommand_nil {c : Command} {s : State} (h : s.cues.list = []) : (takeCommand c s).cues.list = [] := by
  unfold takeCommand breakRecord abortActiveRecord activeRecord
  split
  · split
    · simp [punchOut, h]
    · exact h
  · exact h

theorem sessionClear_moves (s : State) : Moves s (sessionClear s) := by
  unfold sessionClear
  dsimp only
  refine (sendMix_moves _).after ((Moves.one (Move.flags _ _)).after ((Moves.one (Move.clearMarks _)).after
    ((Moves.one (Move.gpi _ _)).after ((Moves.one (Move.arm _ _ ?_)).after ((takeCommand_moves stopSound _).after
    ((clearChase_moves _).after ((setList_nil_moves _ ?_).after ((Moves.one (Move.zeroFader _)).after
    ((Moves.one (Move.cutContext _)).after (Moves.one (Move.abortActive s)))))))))))
  · have e : (takeCommand .stop (clearChase (setList [] (clearFader (abortActive s))))).cues.list = [] :=
      takeCommand_nil rfl
    simp [activeRecord, e]
  · have e : (clearFader (abortActive s)).cues = (abortActive s).cues := clearFader_cues _
    exact fun c hc => abortActive_none s c (e ▸ hc)

/-! ### Every command -/

theorem inRun_moves {f : State → State} {s t : State} (h : Running s → Moves s (f s)) (e : inRun f s = .next t) :
    Moves s t := by
  unfold inRun at e
  split at e
  · rename_i hr; cases e; exact h hr
  · cases e; exact Moves.refl s

/-- Every command's effect is a sequence of the elementary changes. -/
theorem exec_moves {c : Instr} {s t : State} (h : exec c s = .next t) : Moves s t := by
  cases c
  case powerUp => exact Moves.one (Move.power rfl h)
  case brownout => exact Moves.one (Move.power rfl h)
  case resetPinLow => exact Moves.one (Move.power rfl h)
  case supplyRecovery => exact Moves.one (Move.power rfl h)
  case resetPinRelease => exact Moves.one (Move.power rfl h)
  case threadedChange => exact Moves.one (Move.deckLine rfl h)
  case localChange => exact Moves.one (Move.deckLine rfl h)
  case eotChange => exact Moves.one (Move.deckLine rfl h)
  case servoFall => exact Moves.one (Move.deckLine rfl h)
  case rectallyRise => exact Moves.one (Move.deckLine rfl h)
  case referencePulse time first => exact inRun_moves (fun hr => referencePulse_moves time first hr) h
  case missingLimitPresent => exact inRun_moves (fun hr => missingLimitPresent_moves hr) h
  case missingLimitSettling => exact inRun_moves (fun _ => missingLimitSettling_moves s) h
  case internalBoundary => exact inRun_moves (fun hr => internalBoundary_moves hr) h
  case transitionComplete => exact inRun_moves (fun _ => transitionComplete_moves s) h
  case mixRecordEnd => exact inRun_moves (fun _ => endMixRecord_moves s) h
  case peerSilenceClear st => exact inRun_moves (fun _ => updateEntry_moves st (silenced_frame _)) h
  case reportExpiry => exact inRun_moves (fun _ => linkOnly_moves (expireReports_only s)) h
  case candidateExpiry => exact inRun_moves (fun _ => Moves.one (Move.candidate s)) h
  case silentCountExpiry => exact inRun_moves (fun _ => Moves.one (Move.silence s)) h
  case servoTimerExpiry => exact inRun_moves (fun _ => servoExpiry_moves s) h
  case tallyTimerExpiry => exact inRun_moves (fun _ => Moves.one (Move.tallyExpiry s)) h
  case pulseEnd line => exact inRun_moves (fun _ => updateOutput_moves line _ s) h
  case recordLengthEnd => exact inRun_moves (fun _ => Moves.one (Move.recordLengthEnd s)) h
  case notReadyLimit => exact inRun_moves (fun _ => Moves.one (Move.notReadyLimit s)) h
  case freewheelExpiry => exact inRun_moves (fun _ => freewheelStop_moves s) h
  case chaseLock => exact inRun_moves (fun hr => chaseLock_moves hr) h
  case outWindowExpiry => exact inRun_moves (fun _ => outWindowExpiry_moves s) h
  case locateSettle => exact inRun_moves (fun _ => locateSettle_moves s) h
  case locateAcquireLimit => exact inRun_moves (fun _ => locateAcquireLimit_moves s) h
  case locateRecordLimit => exact inRun_moves (fun _ => locateRecordLimit_moves s) h
  case locateEotLimit => exact inRun_moves (fun _ => locateEotLimit_moves s) h
  case tachPulse forward => exact inRun_moves (fun _ => Moves.one (Move.tach s forward)) h
  case timecodeWord label backward => exact inRun_moves (fun _ => Moves.one (Move.word s label backward)) h
  case gpiEdge line rise => exact inRun_moves (fun hr => gpiEdge_moves line rise hr) h
  case lineQuiet time => exact inRun_moves (fun _ => lineQuiet_moves time s) h
  case deferralEnd time => exact inRun_moves (fun _ => deferralEnd_moves time s) h
  case startBitSeen => exact inRun_moves (fun _ => linkOnly_moves (startBit_only s)) h
  case frameSent => exact inRun_moves (fun _ => linkOnly_moves (frameSent_only s)) h
  case collision => exact inRun_moves (fun _ => linkOnly_moves (collide_only s)) h
  case jamEnd => exact inRun_moves (fun _ => linkOnly_moves (jamEnd_only s)) h
  case gapError time => exact inRun_moves (fun _ => gapError_moves time s) h
  case positionArrival source payload =>
    exact inRun_moves (fun _ => arrive_moves source (takeBulletin_moves source payload _)) h
  case reportArrival source payload => exact inRun_moves (fun _ => arrive_moves source (Moves.refl _)) h
  case refusedUnknown code r =>
    refine inRun_moves (fun _ => ?_) h
    unfold refusedUnknown
    split
    · exact Moves.refl s
    · exact takeRequest_moves r (Moves.refl _)
  case stop r =>
    exact inRun_moves (fun _ => takeRequest_moves r (withLength_moves _ _ (answer_moves fun _ => commandStop_moves _))) h
  case play r =>
    exact inRun_moves
      (fun _ => takeRequest_moves r (withLength_moves _ _ (answer_moves fun _ => takeCommand_moves playSound _))) h
  case shuttle r =>
    exact inRun_moves
      (fun _ => takeRequest_moves r
        (withLength_moves _ _ (answer_moves fun _ => takeCommand_moves (clampedSound _) _))) h
  case locate r => exact inRun_moves (fun _ => takeRequest_moves r (judgeLocate_moves r _)) h
  case arm r => exact inRun_moves (fun _ => takeRequest_moves r (judgeArm_moves r _)) h
  case chase r => exact inRun_moves (fun _ => takeRequest_moves r (judgeChase_moves r _)) h
  case unchase r =>
    exact inRun_moves (fun _ => takeRequest_moves r (withLength_moves _ _ (answer_moves fun _ => unchase_moves _))) h
  case cueLoad r => exact inRun_moves (fun _ => takeRequest_moves r (judgeCueLoad_moves r _)) h
  case cueDrop r => exact inRun_moves (fun _ => takeRequest_moves r (judgeCueDrop_moves r _)) h
  case cueClear r =>
    refine inRun_moves (fun _ => takeRequest_moves r (withLength_moves _ _ (answer_moves fun _ => ?_))) h
    exact Moves.one (Move.keepCues _ (fun c => c.state = .active) fun _ _ ha => by simpa using ha)
  case fire r => exact inRun_moves (fun hr => takeRequest_moves r (judgeFire_moves r hr)) h
  case abort r =>
    exact inRun_moves (fun _ => takeRequest_moves r (withLength_moves _ _ (answer_moves fun _ => abortCues_moves _))) h
  case fader r =>
    exact inRun_moves
      (fun _ => takeRequest_moves r (withLength_moves _ _
        (answer_moves fun _ => startFader_moves _ _ _))) h
  case mark r =>
    exact inRun_moves
      (fun _ => takeRequest_moves r (withLength_moves _ _ (answer_moves fun _ => Moves.one (Move.pushMark _ _)))) h
  case markDrop r =>
    exact inRun_moves
      (fun _ => takeRequest_moves r (withLength_moves _ _ (answer_moves fun _ => Moves.one (Move.popMark _)))) h
  case locateMark r => exact inRun_moves (fun _ => takeRequest_moves r (judgeLocateMark_moves r _)) h
  case gpiBind r => exact inRun_moves (fun _ => takeRequest_moves r (judgeGpiBind_moves r _)) h
  case tallyMap r => exact inRun_moves (fun _ => takeRequest_moves r (judgeTallyMap_moves r _)) h
  case readStatus r =>
    exact inRun_moves
      (fun _ => takeRequest_moves r (withLength_moves _ _
        (answer_moves fun _ => linkOnly_moves (joinReport_only _ _)))) h
  case readCues r => exact inRun_moves (fun _ => takeRequest_moves r (judgeReadCues_moves r _)) h
  case readMarks r =>
    exact inRun_moves
      (fun _ => takeRequest_moves r (withLength_moves _ _
        (answer_moves fun _ => linkOnly_moves (joinReport_only _ _)))) h
  case clearFlags r =>
    exact inRun_moves
      (fun _ => takeRequest_moves r (withLength_moves _ _ (answer_moves fun _ => Moves.one (Move.flags _ _)))) h
  case sessionClear r =>
    exact inRun_moves (fun _ => takeRequest_moves r (withLength_moves _ _ (answer_moves fun _ => sessionClear_moves _))) h
  case frameStart start next => exact inRun_moves (fun _ => linkOnly_moves (frameStart_only (start ++ next) s)) h
  case brokenFrame line => exact inRun_moves (fun _ => linkOnly_moves (brokenFrame_only line s)) h
  case requestNotAddressed source payload =>
    exact inRun_moves (fun _ => requestNotAddressed_moves source payload s) h
  case unknownKindArrival kind source payload => exact inRun_moves (fun _ => arrive_moves source (Moves.refl _)) h
  case gpiSample levels => exact inRun_moves (fun hr => gpiSample_moves levels hr) h

end Sys2Proof.Machine
end

