-- ==== Sys2Proof/Tests/Slice0.lean ====
section
/-! SUPPORT. The model's own tests: ill-formed commands, the spec's worked examples, and states that meet the hypotheses
of the statements. -/

namespace Sys2Proof.Machine.Tests

/-! ### Small states -/

/-- A station 1 of a role, strapped F25, with a threaded tape, collecting a frame. -/
def station (role : BitVec 2) : State :=
  let s := State.atReset { station := 1, role := role, std := 0 }
    { threaded := true, localOn := false, servo := false, eot := false, rectally := false }
  s.setLink { s.link with rx := .frame }

def player : State := station 0
def recorder : State := station 1
def live : State := station 2

/-- A station whose record, published record and held position stand at a position of quality LTC. -/
def at_ (x : Nat) (motion : Int) (s : State) : State :=
  let r : PosRecord := { position := x, quality := .ltc, motion := motion, jammed := false }
  s.setPos { s.pos with held := x, quality := .ltc, record := r, published := r }

/-- A station in the reference state PRESENT. -/
def present (s : State) : State := s.setTime { s.time with refState := .present, warmUp := 16 }

/-- A station in HOLD with the RESET pin at a level and the good timer at a value. -/
def held (high : Bool) (good : Nat) : State :=
  player.setPower { supervisor := .hold, dipTimer := 0, goodTimer := good, resetHigh := high }

/-- A request of station 15, strapped F25, to every station, with tag 9. -/
def request (params : List Byte) : Request :=
  { source := 0x0F, targetHigh := 0xFF, targetLow := 0xFF, tag := 9, params := params }

/-- The next state of a command; the state itself where there is none. -/
def after (c : Instr) (s : State) : State :=
  match exec c s with
  | .next t => t
  | .fault _ => s
  | .refused _ => s

/-- A waiting HARD cue of tag 7, manual, with no required set. -/
def cue (action : CueAction) : Cue := newCue 7 .manual true 0 action

def withCues (cs : List Cue) (s : State) : State := s.setCues { s.cues with list := cs }

/-- A dissolve to full level in a number of fields. -/
def dissolve (duration : Nat) : TransParams :=
  { kind := .dissolve, direction := .inward, target := 1024, duration := duration, curve := .smooth,
    pattern := .left, softness := 0, partner := none, law := .power }

/-- A context of a tag at k. -/
def context (tag : Byte) (duration k : Nat) : Context :=
  { tag := tag, params := dissolve duration, fromLevel := 0, k := k, start := 0, noted := 0, pair := .paired,
    hard := true, seed := 1 }

def withContext (c : Context) (s : State) : State := s.setFader { s.fader with context := some c }

/-- A recorder punched in at play speed for its ACTIVE RECORD cue. -/
def recording : State :=
  (withCues [{ cue (.record 3 10) with state := .active, remaining := 20 }] recorder).setTr
    { recorder.tr with command := .speed 256, armed := 1, punch := some { tracks := 1, tally := .running 0 } }

/-- A station that locates to frame 100. -/
def locating (phase : LocatePhase) (settle records eotCount attempts : Nat) : State :=
  player.setTr
    { player.tr with
      locate :=
        some
          { target := 100, phase := phase, attempts := attempts, settle := settle, records := records,
            eotCount := eotCount, drive := .speed 256, skips := none } }

/-- A station that chases station 0 in a state. -/
def chasing (state : ChaseState) (s : State) : State := s.setChase { s.chase with lead := 0, state := state }

/-- Station 0 heard just now, playing at 256 from frame 90,000. -/
def leadHeard (s : State) : State :=
  s.setPeers
    (s.peers.set 0
      { heard := true, frame := 90000, phase := 0, quality := .ltc, speed := 256, transport := .play, ready := true,
        tag := 0, arrival := s.time.fieldCount, updates := 1 })

def withLink (l : Link) (s : State) : State := s.setLink l

/-- A POSITION and a REPORT of the queue. -/
def bulletin (collisions : Nat) : TxFrame :=
  { kind := .position, payload := [], collisions := collisions, joined := 0 }

def report (collisions : Nat) : TxFrame := { kind := .report, payload := [], collisions := collisions, joined := 0 }

/-- A player whose line has an empty queue, in a sender phase. -/
def onLine (phase : TxPhase) : State := withLink { player.link with rx := .ignore, phase := phase } player

/-! ### Ill-formed commands are refused -/

theorem test_wf_payload_too_long : (Instr.positionArrival 0 (List.replicate 49 0)).wf = false := by decide
theorem test_wf_report_too_long : (Instr.reportArrival 0 (List.replicate 49 0)).wf = false := by decide
theorem test_wf_unaddressed_too_long : (Instr.requestNotAddressed 0 (List.replicate 49 0)).wf = false := by decide
theorem test_wf_payload_fits : (Instr.positionArrival 0 (List.replicate 48 0)).wf = true := by decide
theorem test_wf_params_too_long : (Instr.stop (request (List.replicate 45 0))).wf = false := by decide
theorem test_wf_params_fit : (Instr.cueLoad (request (List.replicate 44 0))).wf = true := by decide
theorem test_wf_known_code : (Instr.refusedUnknown 0x05 (request [])).wf = false := by decide
theorem test_wf_unknown_code : (Instr.refusedUnknown 0x06 (request [])).wf = true := by decide
theorem test_wf_unknown_code_too_long : (Instr.refusedUnknown 0x06 (request (List.replicate 45 0))).wf = false := by
  decide
theorem test_wf_broken_empty : (Instr.brokenFrame []).wf = false := by decide
theorem test_wf_broken_short : (Instr.brokenFrame (List.replicate 9 false)).wf = false := by decide
theorem test_wf_start_short : (Instr.frameStart (List.replicate 9 false) [false]).wf = false := by decide
theorem test_wf_lines_fit :
    (Instr.frameStart (List.replicate 10 false) []).wf = true ∧ (Instr.brokenFrame (List.replicate 10 false)).wf = true := by
  decide
theorem test_wf_known_kind :
    ((Instr.unknownKindArrival 0x31 0 []).wf || (Instr.unknownKindArrival 0x52 0 []).wf
      || (Instr.unknownKindArrival 0x64 0 []).wf) = false := by decide
theorem test_wf_unknown_kind : (Instr.unknownKindArrival 0x32 0 []).wf = true := by decide
theorem test_wf_unknown_kind_too_long : (Instr.unknownKindArrival 0x32 0 (List.replicate 49 0)).wf = false := by decide

/-! ### The worked examples of the spec -/

/-- A label HH:MM:SS:FF. -/
def label (h m s f : Nat) : Label := { hours := h, minutes := m, seconds := s, frames := f }

/-- Table 1.4, rows 2, 5, 8 and 10. -/
theorem test_labels_f30df :
    labelCount .f30df (label 0 1 0 2) = 1800 ∧ labelCount .f30df (label 0 9 59 29) = 17981
      ∧ labelCount .f30df (label 1 10 0 2) = 125876 ∧ labelCount .f30df (label 23 59 59 29) = 2589407
      ∧ labelOfCount .f30df 1800 = label 0 1 0 2 ∧ labelOfCount .f30df 2589407 = label 23 59 59 29 := by decide

/-- Table 1.5 and R8. -/
theorem test_labels_f25_and_coercion :
    labelCount .f25 (label 23 59 59 24) = 2159999 ∧ labelCount .f30 (label 0 1 0 0) = 1800
      ∧ labelValid .f25 (label 0 0 0 25) = false ∧ labelOmitted .f30df (label 0 1 0 1) = true
      ∧ labelOmitted .f30df (label 0 10 0 1) = false ∧ requestCount .f30df (label 0 1 0 0) = 1800 := by decide

/-- Table 1.6. -/
theorem test_differences_across_midnight :
    signedDiff .f25 5120 1105917440 = 7680 ∧ signedDiff .f25 1105917440 5120 = -7680
      ∧ forwardDistance .f25 1105917440 5120 = 7680 ∧ forwardDistance .f25 5120 1105917440 = 1105912320 := by decide

/-- Table 1.7. -/
theorem test_offsets :
    heldOffset .f25 true 250 = 2159750 ∧ signedReading .f25 2159750 = -250
      ∧ offsetCoerced .f25 true { value := 1080000, coerced := false } = true
      ∧ offsetCoerced .f25 false { value := 1080000, coerced := false } = false
      ∧ signedReading .f25 (heldOffset .f25 false 1170000) = -990000 := by decide

/-- R37: the nine characters 31h to 39h give 29B1h. -/
theorem test_crc : crcOf [0x31, 0x32, 0x33, 0x34, 0x35, 0x36, 0x37, 0x38, 0x39] = 0x29B1 := by decide +kernel

/-- Tables 3.5 and 3.7. -/
theorem test_backoff_draws :
    stepRegister 0x5555 = 0x2AAB ∧ drawSlots 0x2AAB 0 = 3 ∧ stepRegister 0x4001 = 0x0003 ∧ drawSlots 0x0003 0 = 3
      ∧ drawSlots (stepRegister 0x2AAB) 1 = 7 ∧ drawSlots (stepRegister 0x0003) 1 = 6 := by decide

/-- Table 4.4, rows 3 and 4. -/
theorem test_extrapolation :
    modSum .f25 1105919872 256 = 128 ∧ modSum .f25 100 (-256 * 2) = 1105919588 := by decide

/-- Table 8.5. -/
theorem test_sync_law :
    modSum .f25 46080256 1105792000 = 45952256 ∧ signedDiff .f25 45952256 45951276 = 980
      ∧ nextIntegral 2000 980 = 2980 ∧ syncSpeed 256 980 2980 = 288 ∧ compareOf 980 = .behind := by decide

/-- Table 8.6, evaluations 1, 10 and 15: divisions round toward minus infinity. -/
theorem test_sync_speeds :
    syncSpeed 256 172 372 = 282 ∧ syncSpeed 256 (-14) 894 = 267 ∧ syncSpeed 256 (-53) 692 = 259 := by decide

/-- Table 8.7. -/
theorem test_seek_speeds :
    seekSpeed 256 200000 = 12756 ∧ seekSpeed 256 (-66000) = -3869 ∧ seekSpeed 256 (-2000000) = -12544
      ∧ seekSpeed 12800 100000 = 12800 ∧ seekSpeed 20000 100 = 12800 := by decide

/-- R121: the bounds of the servo's range. -/
theorem test_seek_bounds :
    seekDue 12832 65536 = false ∧ seekDue (-12832) (-65536) = false ∧ seekDue 12833 0 = true
      ∧ seekDue 0 65537 = true ∧ syncSpeed 12832 0 0 = 12800 ∧ syncSpeed (-12832) 0 0 = -12800 := by decide

/-- Table 9.5. -/
theorem test_crossing :
    crossed .f25 (some 46079744) (some 46080000) 90000 = true
      ∧ crossed .f25 (some 46080000) (some 46080256) 90000 = false
      ∧ crossed .f25 (some 46079000) (some 46080100) 90000 = false
      ∧ crossed .f25 (some 46080200) (some 46079944) 90000 = false
      ∧ crossed .f25 (some 46079900) (some 46079900) 90000 = false
      ∧ crossed .f25 (some 1105919872) (some 128) 0 = true := by decide

/-- Table 10.3. -/
theorem test_curves :
    curvePosition .linear 5 30 = 170 ∧ curvePosition .smooth 10 30 = 265 ∧ curvePosition .fast 25 30 = 995 := by decide

/-- Table 10.4. -/
theorem test_sparkle :
    sparkleSeed 5 = 646 ∧ stepRegister 646 = 1292 ∧ stepRegister 1292 = 2584 ∧ stepRegister 2584 = 5168
      ∧ lineCells 646 300 0 % 8 = 5 := by decide

/-- Tables 10.5 and 10.7. -/
theorem test_sound_and_box :
    audioGain .power 759 = 955 ∧ audioGain .power 265 = 461 ∧ dissolveLevel 1024 0 265 = 759
      ∧ lineWindow 288 .box 102 129 = (324, 396) ∧ lineWindow 288 .box 102 158 = (0, 0)
      ∧ lineWindow 288 .box 512 215 = (180, 540) := by decide

/-! ### Queue, supply and reset -/

theorem test_step_takes_the_front :
    step (player.setPending [.powerUp, .stop (request [])]) = exec .powerUp (player.setPending [.stop (request [])])
      ∧ step player = .next player := ⟨rfl, rfl⟩

theorem test_reset_is_running : Running State.reset ∧ Running player ∧ isDeck player = true ∧ isDeck live = false := by
  decide

theorem test_hold_entry :
    Running recording ∧ (after .brownout recording).power.supervisor = .hold ∧ drive recording = some (.speed 256)
      ∧ drive (after .resetPinLow recording) = none ∧ editLines (after .powerUp recording) = 0 := by decide

theorem test_hold_takes_no_input :
    (held true 0).power.supervisor = .hold ∧ isPowerCommand (.tachPulse true) = false
      ∧ isDeckLine (.tachPulse true) = false ∧ after (.tachPulse true) (held true 0) = held true 0
      ∧ (after (.threadedChange false) (held true 0)).pins.threaded = false := by decide

/-- Each clause of the end of HOLD: the pin high; the timer at 50 ms and below it; the pin low. -/
theorem test_witness_end_of_hold :
    (held true 0).power.resetHigh = true ∧ 50000 ≤ (held false 50000).power.goodTimer
      ∧ (held false 49999).power.goodTimer < 50000 ∧ (held false 0).power.resetHigh = false
      ∧ (after (.supplyRecovery (some player.straps)) (held true 0)).power.supervisor = .run
      ∧ (after (.resetPinRelease player.straps) (held false 50000)).power.supervisor = .run
      ∧ (after (.resetPinRelease player.straps) (held false 49999)).power.supervisor = .hold := by decide

/-- A supply that falls after the timer has reached 50 ms, with the pin low: its release does not end HOLD. -/
theorem test_supply_falls_in_hold :
    let sagged := after (.supplyRecovery none) (held false 50000)
    sagged.power.goodTimer = 0 ∧ (after (.supplyRecovery none) (after .brownout player)).power.dipTimer = 0
      ∧ (after .brownout player).power.dipTimer = 2000 ∧ (after (.resetPinRelease player.straps) sagged).power.supervisor = .hold
      ∧ (after .brownout (held false 50000)).power.goodTimer = 0
      ∧ after (.supplyRecovery (some player.straps)) player = player := by decide

/-! ### Reference and boundary -/

/-- A station in SETTLING with a warm-up count, its previous pulse at 0. -/
def settling (warmUp : Nat) : State :=
  player.setTime { player.time with refState := .settling, warmUp := warmUp, prevPulse := some 0 }

/-- A pulse at the moment an internal boundary is due, taken first: the boundary stays due and is dated there; at the
sixteenth pulse none is due any longer. -/
theorem test_pulse_meets_due_boundary :
    let s := after (.referencePulse 240000 true) player
    s.time.refState = .settling ∧ s.time.due = 1 ∧ s.time.count = 0 ∧ (completePeriod s).time.lastBoundary = 240000
      ∧ (completePeriod s).time.clock = 240000 ∧ (completePeriod s).time.due = 0
      ∧ (after (.referencePulse 240000 true) (settling 15)).time.due = 0 := by decide

theorem test_witness_reference_pulses :
    player.time.refState = .lost ∧ (settling 15).time.prevPulse = some 0
      ∧ (std player).goodSpacing 237600 = true ∧ (std player).goodSpacing 242400 = true
      ∧ (std player).goodSpacing 237599 = false ∧ (std player).goodSpacing 242401 = false
      ∧ (after (.referencePulse 240000 true) (settling 14)).time.warmUp = 15
      ∧ (after (.referencePulse 240000 true) (settling 15)).time.refState = .present
      ∧ (after (.referencePulse 250000 true) (settling 15)).time.refState = .lost
      ∧ (after (.referencePulse 250000 true) (present player)).time.count = 10000 := by decide

/-- The commands of a boundary meet their conditions: each source, and the two settings of the internal timebase. -/
theorem test_witness_boundary_sources :
    MakesBoundary .internalBoundary player ∧ MakesBoundary .missingLimitPresent (present player)
      ∧ MakesBoundary (.referencePulse 240000 true) (present player) ∧ Running (present player)
      ∧ (settling 3).time.refState = .settling ∧ (settling 3).time.prevPulse = some 0
      ∧ (after .missingLimitSettling (settling 3)).time.refState = .lost :=
  ⟨Or.inl (by decide), Or.inr (Or.inl (by decide)),
    Or.inr (Or.inr ⟨240000, true, rfl, by decide, by decide⟩), by decide, by decide, by decide, by decide⟩

theorem test_boundary_opens :
    (openBoundary none (completePeriod player)).time.fieldCount = 1
      ∧ (openBoundary none (completePeriod player)).time.lastBoundary = 240000
      ∧ (openBoundary none player).time.secondField = true
      ∧ (openBoundary (some false) player).time.secondField = true := by decide

/-- A boundary of the internal timebase in the order of `allTakers`, and in one that settles the queue after the
composition and runs the fader, the lines and the deck first. -/
def boundary (s : State) : State := boundaryInOrder none allTakers (completePeriod s)

def boundaryLate (s : State) : State :=
  boundaryInOrder none
    [.fader, .gpi, .peers, .transport, .publish, .locate, .evaluate, .compose, .cues, .link, .setVirtual]
    (completePeriod s)

/-- Every state of these tests in LOST makes a boundary by its internal timebase. -/
theorem test_makes_boundary (s : State) (h : s.time.refState = .lost) : MakesBoundary .internalBoundary s :=
  Or.inl ⟨rfl, by rw [h]; decide⟩

theorem test_position_published :
    (positionBoundary (tachPulse true (at_ 100 0 player))).pos.published
        = { position := 132, quality := .ltc, motion := 32, jammed := false }
      ∧ (positionBoundary (live.setPos { live.pos with held := 100 })).pos.published.position = 356 := by decide

/-! ### Position Unit -/

/-- A player that reads words: on tape at frame 0 moving at play speed. -/
def reading : State := at_ 0 256 player

/-- The same with a candidate of frame 500 that arrived at a field count. -/
def waitingWord (arrival : Word16) : State :=
  reading.setPos { reading.pos with candidate := some { count := 500, backward := false, arrival := arrival } }

theorem test_tach :
    (after (.tachPulse false) player).pos.held = 1105919968 ∧ (after (.tachPulse false) player).pos.pulses = -1
      ∧ after (.tachPulse true) live = live := by decide

/-- Delivery at its bounds, rejection, trim at 1,024 micros and candidate beyond. -/
theorem test_witness_word_without_candidate :
    wordsDelivered player = false ∧ wordsDelivered (at_ 0 32 player) = true ∧ wordsDelivered (at_ 0 4096 player) = true
      ∧ wordsDelivered (at_ 0 4097 player) = false ∧ labelValid .f25 (label 0 0 0 25) = false
      ∧ (after (.timecodeWord (label 0 0 0 25) false) reading).pos.tcRejects = 1
      ∧ (after (.timecodeWord (label 0 0 0 1) false) reading).pos.held = 1024
      ∧ (after (.timecodeWord (label 0 0 0 2) false) reading).pos.candidate
          = some { count := 2, backward := false, arrival := 0 } := by decide

theorem test_witness_word_with_candidate :
    (waitingWord 0).pos.candidate.isSome = true
      ∧ (after (.timecodeWord (label 0 0 20 1) false) (waitingWord 0xFFFD)).pos.jammed = true
      ∧ hasFlag (after (.timecodeWord (label 0 0 20 1) false) (waitingWord 0)) .tcJump = true
      ∧ (after (.timecodeWord (label 0 0 20 1) false) (waitingWord 0xFFFC)).pos.tcRejects = 1
      ∧ (after (.timecodeWord (label 0 0 20 2) false) (waitingWord 0)).pos.candidate
          = some { count := 502, backward := false, arrival := 0 }
      ∧ (after .candidateExpiry (waitingWord 0xFFFC)).pos.candidate = none := by decide

theorem test_silence_expires :
    (after .silentCountExpiry (reading.setPos { reading.pos with silent := 25 })).pos.quality = .tach := by decide

/-! ### Deck lines, transport and locates -/

theorem test_witness_threaded_and_local :
    Running recording ∧ isDeck recording = true ∧ recording.pins.threaded = true ∧ recording.pins.localOn = false
      ∧ recording.tr.punch.isSome = true ∧ transportState (after (.threadedChange false) recording) = .offline
      ∧ hasFlag (after (.threadedChange false) recording) .cueAborted = true
      ∧ hasFlag (after (.threadedChange false) (locating .drive 0 0 0 0)) .locateFail = true
      ∧ hasFlag (after (.localChange true) (locating .drive 0 0 0 0)) .locateFail = false
      ∧ (after (.localChange false) (after (.localChange true) player)).pins.localOn = false
      ∧ State.reset.pins.threaded = false
      ∧ (after (.threadedChange true) State.reset).pins.threaded = true := by decide

/-- A port that is released sends no speed word: LOCAL's rise, and THREADED's rise in LOCAL. -/
theorem test_released_port_is_quiet :
    let sending := recording.setTr { recording.tr with speedWord := 256, speedSent := true }
    let unthreaded :=
      (sending.setPins { sending.pins with threaded := false, localOn := true }).setTr { sending.tr with punch := none }
    speedWordChars sending = [1, 0] ∧ speedWordChars (after (.localChange true) sending) = []
      ∧ speedWordChars (after (.localChange false) (after (.localChange true) sending)) = []
      ∧ PortQuiet unthreaded ∧ speedWordChars (after (.threadedChange true) unthreaded) = [] := by
  refine ⟨by decide, by decide, by decide, fun _ => by decide, by decide⟩

theorem test_witness_eot_servo_rectally :
    drive (after (.eotChange true) recording) = some .stop ∧ (after (.eotChange true) recording).tr.punch = none
      ∧ (after (.rectallyRise true) recording).tr.punch = some { tracks := 1, tally := .confirmed }
      ∧ (after (.servoFall false)
            ((present (chasing .locked player)).setPins { player.pins with servo := true })).chase.state = .sync
      ∧ (after (.servoFall false) (chasing .seek player)).chase.state = .seek := by decide

/-- A player whose drive is a speed, by the command, with the mode line and the state it gives. -/
def shuttling (v : Int) : State := player.setTr { player.tr with command := .speed v }

/-- Tables 6.2 and 6.3 at the ends of their ranges, and the states before them. -/
theorem test_mode_lines :
    ([-769, -768, 0, 191, 192, 320, 321, 768, 769].map fun v => modeLine (shuttling v))
        = [some .revWind, some .play, some .play, some .play, some .play, some .play, some .play, some .play,
            some .fwdWind]
      ∧ ([-769, -768, 0, 191, 192, 320, 321, 768, 769].map fun v => transportState (shuttling v))
        = [.wind, .vari, .vari, .vari, .play, .play, .vari, .vari, .wind]
      ∧ modeLine player = some .stop ∧ transportState player = .stopped
      ∧ transportState (player.setTr { player.tr with parkedMark := true }) = .parked
      ∧ transportState (locating .drive 0 0 0 0) = .locating ∧ modeLine (locating .drive 0 0 0 0) = some .play
      ∧ modeLine (after (.localChange true) player) = none ∧ modeLine State.reset = some .stop
      ∧ transportState State.reset = .offline ∧ modeLine live = none ∧ transportState live = .stopped := by decide

/-- A record broken by EOT, and one that goes on when EOT falls. -/
theorem test_record_broken :
    ((after (.eotChange true) recording).cues.list.map fun c => (c.state, c.finish)) = [(.aborted, some 0)]
      ∧ hasFlag (after (.eotChange true) recording) .cueAborted = true
      ∧ (after (.eotChange true) recording).tr.armed = 1
      ∧ (after (.eotChange false) recording) = recording
      ∧ hasFlag (after (.localChange true) recording) .cueAborted = true
      ∧ activeRecord (after (.stop (request [])) recording) = none
      ∧ (after (.play (request [])) recording).tr.punch = recording.tr.punch := by decide

theorem test_lines_on_live :
    after (.eotChange true) live = live.setPins { live.pins with eot := true }
      ∧ after (.threadedChange false) live = live.setPins { live.pins with threaded := false }
      ∧ after (.threadedChange true) player = player
      ∧ after (.rectallyRise true) player = player.setPins { player.pins with rectally := true } := by decide

theorem test_witness_locate_limits :
    hasFlag (after .locateAcquireLimit (locating .acquire 0 250 0 0)) .locateFail = true
      ∧ after .locateAcquireLimit (locating .acquire 0 249 0 0) = locating .acquire 0 249 0 0
      ∧ hasFlag (after .locateRecordLimit (locating .drive 0 3000 0 0)) .locateFail = true
      ∧ hasFlag (after .locateEotLimit (locating .drive 0 10 2 0)) .locateFail = true := by decide

theorem test_witness_timers :
    transportState recording = .play
      ∧ hasFlag (after .servoTimerExpiry (recording.setTr { recording.tr with servoTimer := 120 })) .transportFault
          = true
      ∧ hasFlag
          (after .tallyTimerExpiry
            (recording.setTr { recording.tr with punch := some { tracks := 1, tally := .running 4 } })) .recordFault
          = true := by decide

/-- Frame 100 is micro 51,200. The settle clauses at 512 and 513 micros, and the fourth attempt. -/
theorem test_witness_locate_acts :
    ((locateTake (at_ 50944 0 (locating .drive 0 0 0 0))).tr.locate.map (·.phase)) = some .settle
      ∧ ((locateTake (at_ 50943 0 (locating .drive 0 0 0 0))).tr.locate.map (·.drive)) = some (.speed 64)
      ∧ (after .locateSettle (at_ 50688 0 (locating .settle 2 9 0 0))).tr.parkedMark = true
      ∧ ((after .locateSettle (at_ 50687 0 (locating .settle 2 9 0 2))).tr.locate.map (·.attempts)) = some 3
      ∧ hasFlag (after .locateSettle (at_ 50687 0 (locating .settle 2 9 0 3))) .locateFail = true := by decide

/-- Records taken: still and moving in SETTLE, NONE and usable in ACQUIRE, and still at EOT under a forward drive. -/
theorem test_locate_takes_records :
    let atEnd := (locating .drive 0 9 1 0).setPins { player.pins with eot := true }
    let taken (s : State) := (locateRecord s).tr.locate.map fun l => (l.phase, l.settle, l.records, l.drive)
    taken (at_ 51200 0 (locating .settle 0 9 0 0)) = some (.settle, 1, 10, .stop)
      ∧ taken (at_ 51200 1 (locating .settle 1 9 0 0)) = some (.settle, 0, 10, .stop)
      ∧ taken (locating .acquire 0 9 0 0) = some (.acquire, 0, 10, .speed 256)
      ∧ taken (at_ 0 256 (locating .acquire 0 9 0 0)) = some (.drive, 0, 10, .speed 1600)
      ∧ ((locateTake (at_ 0 0 atEnd)).tr.locate.map (·.eotCount)) = some 2
      ∧ ((locateTake (at_ 0 1 atEnd)).tr.locate.map (·.eotCount)) = some 0
      ∧ (locateRecord (at_ 0 0 atEnd)).tr.locate = none := by decide

/-- Endings at a record: success before a limit that falls due too, the limits, and a further attempt. -/
theorem test_locate_ends :
    let ends (s : State) := ((locateRecord s).tr.locate.isNone, (locateRecord s).tr.parkedMark,
      hasFlag (locateRecord s) .locateFail)
    ends (at_ 51200 0 (locating .settle 1 2999 0 0)) = (true, true, false)
      ∧ ends (at_ 0 0 (locating .settle 1 2999 0 0)) = (true, false, true)
      ∧ ends (at_ 0 0 (locating .settle 1 9 0 3)) = (true, false, true)
      ∧ ends (locating .acquire 0 249 0 0) = (true, false, true)
      ∧ ((locateRecord (at_ 0 0 (locating .settle 1 9 0 2))).tr.locate.map fun l => (l.attempts, l.phase))
          = some (3, .drive) := by decide

/-- A locate whose target a cue gave in this field passes its record over; the servo's takes it (R89). -/
theorem test_locate_skips :
    let cued := takeLocate 100 (at_ 0 0 (locating .drive 0 9 0 0))
    let led := servoLocate 100 (at_ 0 0 (locating .drive 0 9 0 0))
    locateBoundary cued = cued ∧ (cued.tr.locate.map (·.skips)) = some (some 0)
      ∧ ((locateBoundary led).tr.locate.map (·.records)) = some 10
      ∧ ((locateBoundary (cued.setTime { cued.time with fieldCount := 1 })).tr.locate.map (·.skips)) = some none := by
  decide

/-- A running locate at a boundary, in both orders. -/
theorem test_locate_at_boundary :
    let s := at_ 0 0 (locating .drive 0 9 0 0)
    NoTimedCue s ∧ s.chase.state = .free ∧ ((boundary s).tr.locate.map (·.drive)) = some (.speed 1600)
      ∧ (boundary s).tr.locate = (boundaryLate s).tr.locate := by
  refine ⟨by unfold NoTimedCue; decide, by decide, ?_⟩
  decide +kernel

/-- A cue of frame 100 that locates to frame 500, its point crossed at the boundary: the record of that boundary is passed
over whether the locate's turn is still to come or not, and the next one is the first. -/
theorem test_cue_retargets_at_boundary :
    let command : Cue := { cue (.transport (.locate 500)) with trigger := .own 100 }
    let s := at_ 51200 256 (withCues [command] (locating .drive 0 9 0 0))
    let t := s.setCues { s.cues with ownSample := some 51100 }
    let target (u : State) := u.tr.locate.map fun l => (l.target, l.records)
    target (boundary t) = some (500, 9) ∧ target (boundaryLate t) = some (500, 10)
      ∧ target (boundary (boundary t)) = some (500, 10) := by
  decide +kernel

/-! ### Requests in general and transport requests -/

theorem test_taken (params : List Byte) :
    Taken (request params) player ∧ Taken (request params) recorder ∧ Taken (request params) live
      ∧ Taken (request params) recording := by
  refine ⟨?_, ?_, ?_, ?_⟩ <;> 
    exact ⟨rfl, rfl, show foreignStandard 0x0F _ = false by decide, show addressed (targetAt [0xFF, 0xFF]) _ = true by decide⟩

/-- Taking looks at the supply, the straps and the receiver alone, so every state made from these by the updates above
takes the request too. -/
theorem test_taken_elsewhere (r : Request) (s t : State) (h : Taken r s) (hp : t.power = s.power)
    (hs : t.straps = s.straps) (hl : t.link = s.link) : Taken r t := by
  simpa only [Taken, Running, foreignStandard, addressed, own, hp, hs, hl] using h

/-- TARGET's first character holds stations 8 to 15, its second 0 to 7 (Table 12.3, R184). -/
theorem test_target_high_byte_first :
    let aimed (high low : Byte) : Request := { request [] with targetHigh := high, targetLow := low }
    let nine := player.setStraps { player.straps with station := 9 }
    addressed (targetOf (aimed 0x02 0x00)) nine = true ∧ addressed (targetOf (aimed 0x00 0x02)) nine = false
      ∧ addressed (targetOf (aimed 0x00 0x02)) player = true ∧ addressed (targetOf (aimed 0x02 0x00)) player = false
      ∧ (after (.stop (aimed 0x02 0x00)) nine).req.count = 1 ∧ after (.stop (aimed 0x00 0x02)) nine = received nine
      ∧ after (.requestNotAddressed 0x0F [0x00, 0x02, 9, 1]) nine = received nine
      ∧ after (.requestNotAddressed 0x0F [0x02, 0x00, 9, 1]) nine = nine := by decide

theorem test_requests_recorded :
    (after (.stop (request [])) player).req = { lastTag := 9, lastResult := .ok, count := 1 }
      ∧ (after (.stop (request [1])) player).req.lastResult = .refusedFormat
      ∧ (after (.stop (request [])) live).req.lastResult = .refusedRole := by decide

theorem test_frames_that_are_no_request :
    addressed 0xFFFD player = false
      ∧ after (.stop { request [] with targetLow := 0xFD }) player = received player
      ∧ after (.requestNotAddressed 0x0F [0, 0]) player = received player
      ∧ after (.requestNotAddressed 0x0F [0xFF, 0xFD, 9, 1]) player = received player
      ∧ (0x06 : Byte) ∉ requestCodes
      ∧ (after (.refusedUnknown 0x06 (request [])) player).req.lastResult = .refusedUnknown
      ∧ foreignStandard 0x0F player = false ∧ after (.unknownKindArrival 0x32 0x0F []) player = received player := by
  decide

/-- The FORMAT cases of R69. -/
theorem test_witness_format :
    badFormat .f25 (.arm (request [])) (request []) ∧ ¬badFormat .f25 (.arm (request [1])) (request [1])
      ∧ badFormat .f25 (.locate (request [0, 0, 0, 25])) (request [0, 0, 0, 25])
      ∧ badFormat .f25 (.readCues (request [24])) (request [24])
      ∧ badFormat .f25 (.gpiBind (request [5, 0, 0])) (request [5, 0, 0])
      ∧ badFormat .f25 (.chase (request [16, 0, 0, 0, 0, 0])) (request [16, 0, 0, 0, 0, 0]) :=
  ⟨Or.inl (by decide), fun h => h.elim (by decide) id, Or.inr (by show _ = false; decide),
    Or.inr (by show 23 < _; decide), Or.inr (Or.inl (Or.inr (by decide))), Or.inr (Or.inl (by decide))⟩

/-- A record of tag 7, manual, of an action and a mode byte; and a TRANSITION record of a kind, a direction and a
pattern byte. -/
def actionRecord (action mode : Byte) : List Byte :=
  [7, 6, 0, 0, 0, 0, mode, 0, 0, action, 1, 0, 1, 0, 0, 0, 0, 0, 0, 0, 0]

def transitionRecord (kind direction pattern : Byte) : List Byte :=
  [7, 6, 0, 0, 0, 0, 0, 0, 0, 1, kind, direction, 0, 0, 0, 5, 0, pattern, 0, 0, 0]

/-- The mode of every action and the choices of either kind of transition are checked (R69, R135); the label of an untimed
cue is not (R132). -/
theorem test_choices_are_checked :
    (readCue .f25 (actionRecord 4 1)).isSome = true ∧ readCue .f25 (actionRecord 4 2) = none
      ∧ readCue .f25 (actionRecord 3 2) = none ∧ readCue .f25 (actionRecord 0 2) = none
      ∧ (readCue .f25 (transitionRecord 0 1 4)).isSome = true ∧ readCue .f25 (transitionRecord 0 2 4) = none
      ∧ readCue .f25 (transitionRecord 0 1 5) = none ∧ readCue .f25 (transitionRecord 1 2 4) = none
      ∧ (readCue .f25 ((actionRecord 4 0).set 5 99)).isSome = true := by decide

theorem test_witness_transport_speed :
    role live = .live ∧ transportState (after (.localChange true) player) = .localControl
      ∧ transportState (after (.threadedChange false) player) = .offline ∧ player.chase.state = .free
      ∧ (after (.play (request [])) player).tr.command = .speed 256
      ∧ (after (.shuttle (request [0x32, 0x00])) player).tr.command = .speed 12800
      ∧ (after (.shuttle (request [0xCE, 0x00])) player).req.lastResult = .ok
      ∧ (after (.shuttle (request [0x32, 0x01])) player).req.lastResult = .clamped
      ∧ (after (.play (request [])) (chasing .seek player)).req.lastResult = .refusedState := by decide

theorem test_witness_stop :
    (after (.stop (request [])) (chasing .sync player)).chase.state = .free
      ∧ (after (.stop (request [])) recording).tr.punch = none
      ∧ role recorder ≠ .live ∧ transportState recorder ≠ .localControl := by decide

/-- LOCATE with no position, with one, over a running locate, and with a coerced label. -/
theorem test_witness_locate :
    labelValid (std player) (label 0 0 4 0) = true ∧ player.pos.record.quality = .none
      ∧ ((after (.locate (request [0, 0, 4, 0])) player).tr.locate.map (·.phase)) = some .acquire
      ∧ ((after (.locate (request [0, 0, 4, 0])) reading).tr.locate.map (·.target)) = some 100
      ∧ ((after (.locate (request [0, 0, 8, 0])) (locating .acquire 1 7 1 2)).tr.locate.map
          fun l => (l.target, l.attempts, l.records)) = some (200, 0, 7)
      ∧ (after (.locate (request [0, 0, 4, 25])) player).req.lastResult = .refusedFormat := by decide

theorem test_witness_arm :
    role recorder = .recorder ∧ activeRecord recorder = none ∧ (activeRecord recording).isSome = true
      ∧ (after (.arm (request [0x1F])) recorder).tr.armed = 0xF
      ∧ (after (.arm (request [1])) recording).req.lastResult = .refusedState
      ∧ (after (.arm (request [1])) player).req.lastResult = .refusedRole := by decide

/-! ### Chase -/

/-- CHASE of station 0 at half a day: plus keeps its sign, minus is coerced; a repetition changes nothing. -/
theorem test_witness_chase :
    (0 : Station) ≠ own player ∧ labelValid (std player) (label 12 0 0 0) = true
      ∧ (after (.chase (request [0, 0, 12, 0, 0, 0])) player).req.lastResult = .ok
      ∧ (after (.chase (request [0, 1, 12, 0, 0, 0])) player).req.lastResult = .clamped
      ∧ (after (.chase (request [0, 1, 0, 0, 10, 0])) player).chase.offset = 2159750
      ∧ (after (.chase (request [0, 0, 0, 0, 0, 0])) (chasing .sync player)).chase = (chasing .sync player).chase
      ∧ (after (.chase (request [0, 0, 0, 0, 0, 0])) recording).req.lastResult = .refusedState
      ∧ (after (.chase (request [16, 0, 0, 0, 0, 0])) player).req.lastResult = .refusedFormat := by decide

theorem test_witness_unchase :
    BitVec.ofNat 8 (own player).val = 1 ∧ deckReady player = true
      ∧ deckReady (after (.threadedChange false) player) = false
      ∧ (after (.unchase (request [])) (chasing .sync player)).tr.command = .speed 256
      ∧ (after (.unchase (request [])) (chasing .park player)).tr.command = .stop
      ∧ (after (.chase (request [1, 0, 0, 0, 0, 0])) (chasing .seek player)).chase.state = .free := by decide

/-- The worked evaluation of Table 8.5 with the lead one field old. -/
def worked : State :=
  let s := leadHeard (at_ 45951276 256 (chasing .sync player))
  (s.setTime { s.time with fieldCount := 1 }).setChase { s.chase with offset := 2159750, integral := 2000 }

theorem test_witness_evaluation :
    leadClass worked = .fresh ∧ deckReady worked = true ∧ leadParked worked = false
      ∧ chaseError worked = 980 ∧ (chaseBoundary worked).tr.command = .speed 288
      ∧ (chaseBoundary worked).chase.integral = 2980 ∧ (chaseBoundary worked).chase.record.compare = .behind := by
  decide

/-- The lead of an evaluation stands at a position with a speed and a state, heard an age ago. -/
def ledBy (position : Nat) (speed : Int) (transport : TransportState) (age : Word16) (s : State) : State :=
  let t := s.setTime { s.time with fieldCount := age }
  t.setPeers
    (t.peers.set 0
      { heard := true, frame := position / 512, phase := position % 512, quality := .ltc, speed := speed,
        transport := transport, ready := true, tag := 0, arrival := 0, updates := 1 })

/-- The other cases of a fresh lead: no own position, a lead parked at frame 100, and a far one. -/
theorem test_witness_park_and_seek :
    let acquiring := ledBy 51200 256 .play 0 (chasing .sync player)
    let parking := ledBy 51300 0 .stopped 0 (chasing .sync reading)
    let far := ledBy 51200 256 .play 0 (chasing .sync (at_ 1000000 0 player))
    leadClass acquiring = .fresh ∧ (chaseBoundary acquiring).chase.state = .seek
      ∧ (chaseBoundary acquiring).tr.command = .speed 256
      ∧ (chaseBoundary parking).chase.state = .park ∧ (chaseBoundary parking).chase.parkFrame = some 100
      ∧ ((chaseBoundary parking).tr.locate.map (·.target)) = some 100
      ∧ (chaseBoundary (chaseBoundary parking)).tr = (chaseBoundary parking).tr
      ∧ (chaseBoundary far).chase.state = .seek ∧ (chaseBoundary far).tr.command = .speed (-12544) := by
  decide +kernel

/-- A lead heard 5 boundaries ago, and the LIVE station on a fresh, a coasting and a stale lead. -/
theorem test_witness_coast_and_live :
    let coasting := ledBy 51200 256 .play 5 (chasing .locked reading)
    let follower (age : Word16) := ledBy 51200 256 .play age (chasing .seek live)
    leadClass coasting = .coasting ∧ (chaseBoundary coasting).chase.state = .sync
      ∧ (chaseBoundary coasting).chase.record.usable = false ∧ (chaseBoundary coasting).tr = coasting.tr
      ∧ (chaseBoundary (follower 0)).chase.state = .sync
      ∧ (chaseBoundary (present (follower 0))).chase.state = .locked
      ∧ (chaseBoundary (follower 5)).chase.state = .sync ∧ (chaseBoundary (follower 9)).chase.state = .lost
      ∧ (boundary (follower 0)).pos.held = 51456 := by
  decide +kernel

/-- The evaluation reaches the boundary: the chase after it is that of `worked`'s lead, in both orders. -/
theorem test_evaluation_at_boundary :
    let s := ledBy 45951276 256 .play 0 (chasing .sync (at_ 45951276 0 player))
    NoTimedCue s ∧ s.tr.locate = none ∧ (boundary s).chase.state = .sync ∧ (boundary s).tr.command = .speed 288
      ∧ (boundary s).chase = (boundaryLate s).chase := by
  refine ⟨by unfold NoTimedCue; decide, ?_⟩
  decide +kernel

/-- A stale lead: entry to LOST, the last count before the limit, the limit and the count at rest. -/
def lost (freewheel : Nat) : State :=
  let s := chasing .lost player
  (s.setChase { s.chase with freewheel := freewheel }).setTr { s.tr with command := .speed 256 }

theorem test_witness_freewheel :
    leadClass (lost 0) = .stale ∧ (chaseBoundary (chasing .sync player)).chase.state = .lost
      ∧ (chaseBoundary (lost 48)).chase.freewheel = 49 ∧ (chaseBoundary (lost 48)).tr.command = .speed 256
      ∧ (chaseBoundary (lost 49)).tr.command = .stop ∧ (chaseBoundary (lost 50)).tr.command = .speed 256
      ∧ (after .freewheelExpiry (lost 50)).tr.command = .stop := by decide

/-- A deck station at the end of its lock count, and one at the end of its out-window count. -/
def nearLock (state : ChaseState) (inside outside : Nat) : State :=
  let s := present (leadHeard (at_ 45951276 256 (chasing state player)))
  (s.setPins { s.pins with servo := true }).setChase { s.chase with inWindow := inside, outWindow := outside }

/-- A SYNC-law evaluation of a station behind its lead by an error, at lock counts. -/
def judged (state : ChaseState) (inside outside : Nat) (behind : Int) : Chase :=
  let s := nearLock state inside outside
  let r : PosRecord := { s.pos.record with position := ((46080000 : Int) - behind).toNat }
  (chaseBoundary (s.setPos { s.pos with held := r.position, record := r, published := r })).chase

/-- R123 and R124 at their bounds: 64 and 65 micros, 128 and 129, the tenth evaluation and the third. -/
theorem test_lock_counts :
    ((judged .sync 8 0 64).state, (judged .sync 8 0 64).inWindow) = (.sync, 9)
      ∧ ((judged .sync 9 2 64).state, (judged .sync 9 2 64).outWindow) = (.locked, 0)
      ∧ ((judged .sync 9 0 (-65)).state, (judged .sync 9 0 (-65)).inWindow) = (.sync, 0)
      ∧ ((judged .locked 10 2 128).state, (judged .locked 10 2 128).outWindow) = (.locked, 0)
      ∧ ((judged .locked 10 1 (-129)).state, (judged .locked 10 1 (-129)).outWindow) = (.locked, 2)
      ∧ ((judged .locked 10 2 129).state, (judged .locked 10 2 129).inWindow) = (.sync, 0)
      ∧ (judged .seek 9 0 0).state = .locked ∧ (judged .sync 9 0 0).record.ready = true := by decide +kernel

/-- A count held at 10 without SERVO, and a lock that an evaluation finds without it. -/
theorem test_lock_wants_servo :
    let slack (s : State) : State := s.setPins { s.pins with servo := false }
    let near (state : ChaseState) : State := slack (ledBy 51200 256 .play 0 (nearLock state 10 0))
    let level (s : State) : State := s.setPos { s.pos with published := { s.pos.published with position := 51200 } }
    (chaseBoundary (level (near .sync))).chase.state = .sync ∧ (chaseBoundary (level (near .sync))).chase.inWindow = 10
      ∧ (chaseBoundary (level (near .locked))).chase.state = .sync
      ∧ (chaseBoundary (level (near .locked))).chase.inWindow = 0 := by decide +kernel

theorem test_witness_chase_limits :
    lockConditions (nearLock .sync 10 0) = true
      ∧ (after .chaseLock (nearLock .sync 10 0)).chase.record.ready = true
      ∧ after .chaseLock (nearLock .sync 9 0) = nearLock .sync 9 0
      ∧ (after .outWindowExpiry (nearLock .locked 0 3)).chase.state = .sync
      ∧ after .outWindowExpiry (nearLock .locked 0 2) = nearLock .locked 0 2 := by decide

/-! ### Cues -/

/-- The cue record of an OWN-triggered HARD MARK cue of tag 7 at 00:00:04:00. -/
def cueBytes (tag : Byte) : List Byte := [tag, 0, 0, 0, 4, 0, 0, 0, 0, 4, 0, 0, 0, 0, 0, 0, 0, 0, 0, 0, 0]

/-- Twenty-four cues of tags 1 to 24, all in one state. -/
def full (state : CueState) : State :=
  withCues ((List.range 24).map fun n => { cue .mark with tag := BitVec.ofNat 8 (n + 1), state := state }) player

/-- A WIPE record read whole: LEAD at 0:0:4:1, SOFT, stations 0 and 15, target 1,025 coerced, 999 fields, station 3 as
partner. -/
theorem test_cue_record_read :
    readCue .f25 [9, 1, 0, 0, 4, 1, 1, 0x80, 1, 1, 1, 1, 4, 1, 3, 0xE7, 2, 3, 0xC5, 0x13, 1]
      = some
          { value :=
              newCue 9 (.lead 101) false 0x8001
                (.transition
                  { kind := .wipe, direction := .outward, target := 1024, duration := 999, curve := .fast,
                    pattern := .split, softness := 5, partner := some 3, law := .power })
            coerced := true } := by decide

/-- The values coerced by Table 9.4: a drop-frame label, a length of 0, a width of 0; and a label that is none. -/
theorem test_cue_record_coerced :
    (readCue .f30df [9, 0, 0, 1, 0, 0, 0, 0, 0, 4, 0, 0, 0, 0, 0, 0, 0, 0, 0, 0, 0]).map
          (fun c => (c.value.trigger, c.coerced)) = some (.own 1800, true)
      ∧ (readCue .f25 [9, 6, 0, 0, 0, 0, 0, 0, 0, 0, 3, 0, 0, 0, 0, 0, 0, 0, 0, 0, 0]).map
          (fun c => (c.value.action, c.coerced)) = some (.record 3 1, true)
      ∧ (readCue .f25 [9, 5, 0, 0, 0, 0, 0, 0, 0, 3, 2, 0, 0, 0, 0, 0, 0, 0, 0, 0, 0]).map
          (fun c => (c.value.trigger, c.value.action, c.coerced)) = some (.gpi 3, .gpiPulse 1 1, true)
      ∧ (readCue .f25 [9, 6, 0, 0, 0, 0, 0, 0, 0, 2, 2, 0, 0, 1, 0, 0, 0, 0, 0, 0, 0]).map
          (fun c => (c.value.action, c.coerced)) = some (.transport (.locate 25), false)
      ∧ readCue .f25 [9, 6, 0, 0, 0, 0, 0, 0, 0, 2, 2, 0, 0, 60, 0, 0, 0, 0, 0, 0, 0] = none := by decide

theorem test_witness_cue_load :
    (readCue (std player) (cueBytes 7)).map (fun c => (c.value.tag, c.value.trigger, c.coerced))
        = some (7, .own 100, false)
      ∧ loadRefusal (cue .mark) player = none ∧ loadRefusal (cue .mark) (full .done) = none
      ∧ loadRefusal (cue .mark) (full .waiting) = none
      ∧ loadRefusal { cue .mark with tag := 25 } (full .waiting) = some .refusedFull
      ∧ loadRefusal (cue .mark) (full .active) = some .refusedFull
      ∧ loadRefusal (cue .mark) (withCues [{ cue .mark with state := .active }] player) = some .refusedTag
      ∧ loadRefusal (cue (.record 1 1)) player = some .refusedRole
      ∧ (after (.cueLoad (request (cueBytes 7))) player).cues.list.length = 1
      ∧ (after (.cueLoad (request (cueBytes 0))) player).req.lastResult = .refusedFormat := by decide

/-- ROLE, FULL and TAG in their order, and what each leaves. -/
theorem test_cue_load_refused :
    (after (.cueLoad (request [7, 6, 0, 0, 0, 0, 0, 0, 0, 0, 1, 0, 1, 0, 0, 0, 0, 0, 0, 0, 0])) player).req.lastResult
        = .refusedRole
      ∧ (after (.cueLoad (request [7, 6, 0, 0, 0, 0, 0, 0, 0, 2, 0, 0, 0, 0, 0, 0, 0, 0, 0, 0, 0])) live).req.lastResult
        = .refusedRole
      ∧ (after (.cueLoad (request (cueBytes 7))) (full .active)).req.lastResult = .refusedFull
      ∧ (after (.cueLoad (request (cueBytes 7))) (withCues [{ cue .mark with state := .active }] player)).req.lastResult
        = .refusedTag
      ∧ (after (.cueLoad (request (cueBytes 25))) (full .waiting)).cues = (full .waiting).cues := by decide

/-- Of a full list the cue of the oldest finish leaves: the third, finished 9 boundaries ago, and not the first two. -/
theorem test_cue_load_reclaims_oldest :
    let finished := (full .done).cues.list.mapIdx fun n c => { c with finish := some (if n = 2 then 1 else 5) }
    let s := (withCues finished player).setTime { player.time with fieldCount := 10 }
    loadRefusal { cue .mark with tag := 25 } s = none
      ∧ findCue 3 (after (.cueLoad (request (cueBytes 25))) s) = none
      ∧ (findCue 1 (after (.cueLoad (request (cueBytes 25))) s)).isSome = true := by decide

theorem test_cue_load_reclaims :
    (after (.cueLoad (request (cueBytes 25))) (full .done)).cues.list.length = 24
      ∧ findCue 1 (after (.cueLoad (request (cueBytes 25))) (full .done)) = none := by decide

theorem test_witness_drop_and_clear :
    (after (.cueDrop (request [7])) (withCues [cue .mark] player)).cues.list = []
      ∧ (after (.cueDrop (request [8])) (withCues [cue .mark] player)).req.lastResult = .refusedTag
      ∧ (after (.cueDrop (request [7])) recording).req.lastResult = .refusedState
      ∧ (after (.cueClear (request [])) recording).cues.list.length = 1
      ∧ (after (.cueClear (request [])) (withCues [cue .mark] player)).cues.list = [] := by decide

/-- A playing recorder whose chase is FREE on a present reference with SERVO true: own-ready. -/
def rolling : State :=
  let s := (present recorder).setTr { recorder.tr with command := .speed 256, armed := 3 }
  s.setPins { s.pins with servo := true }

theorem test_witness_fire :
    waitingCue 7 player = none ∧ waitingCue 7 (withCues [cue .mark] reading) = some (cue .mark)
      ∧ (after (.fire (request [7])) (withCues [cue .mark] reading)).marks.length = 1
      ∧ ((after (.fire (request [7])) (withCues [cue (.gpiPulse 2 5)] player)).gpi.outputs[2].pulse)
          = some { count := 5, start := 0 }
      ∧ cueReady (ownReady rolling) 0 rolling = true ∧ activeRecord rolling = none
      ∧ editLines (after (.fire (request [7])) (withCues [cue (.record 0xD 10)] rolling)) = 1
      ∧ ((after (.fire (request [7])) (withCues [cue (.record 0xC 10)] rolling)).cues.list.map (·.rehearsal)) = [true]
      ∧ ((after (.fire (request [7])) (withCues [cue (.record 1 10)] recorder)).cues.list.map (·.state))
          = [.aborted] := by
  decide

/-- Readiness: the own station in the set, a peer heard READY 4 and 5 boundaries ago, and one never heard. -/
theorem test_cue_ready :
    cueReady true 2 (leadHeard player) = true ∧ cueReady false 0 (leadHeard player) = false
      ∧ cueReady true 1 (ledBy 0 0 .play 4 player) = true ∧ cueReady true 1 (ledBy 0 0 .play 5 player) = false
      ∧ cueReady true 4 (leadHeard player) = false ∧ ownReady rolling = true
      ∧ ownReady (present live) = true ∧ ownReady (chasing .sync rolling) = false := by decide

/-- TRANSPORT cues: STOP, PLAY and LOCATE, on a deck that is free to move and on one in LOCAL. -/
theorem test_witness_transport_cue :
    (after (.fire (request [7])) (withCues [cue (.transport .stop)] rolling)).tr.command = .stop
      ∧ (after (.fire (request [7])) (withCues [cue (.transport .play)] (chasing .sync player))).tr.command = .speed 256
      ∧ (after (.fire (request [7])) (withCues [cue (.transport .play)] (chasing .sync player))).chase.state = .free
      ∧ ((after (.fire (request [7])) (withCues [cue (.transport (.locate 100))] player)).tr.locate.map (·.target))
          = some 100
      ∧ ((after (.fire (request [7]))
            (withCues [cue (.transport .play)] (after (.localChange true) player))).cues.list.map (·.state)) = [.done] := by
  decide

/-- A recorder recording for cue 6 on track 1, with a RECORD cue 7 waiting. -/
def butt (tracks : Tracks) (hard : Bool) (required : Word16) : State :=
  withCues
    [{ cue (.record 1 10) with tag := 6, state := .active, remaining := 9 },
      { cue (.record tracks 10) with hard := hard, required := required }]
    (rolling.setTr { rolling.tr with punch := some { tracks := 1, tally := .confirmed } })

/-- The butt edit hands the lines over, releases them for an unarmed set, and is judged for readiness. -/
theorem test_witness_butt_edit :
    ((activeRecord (butt 2 true 0)).map (·.tag)) = some 6
      ∧ ((after (.fire (request [7])) (butt 2 true 0)).cues.list.map (·.state)) = [.done, .active]
      ∧ (after (.fire (request [7])) (butt 2 true 0)).tr.punch = some { tracks := 2, tally := .running 0 }
      ∧ (after (.fire (request [7])) (butt 4 true 0)).tr.punch = none
      ∧ ((after (.fire (request [7])) (butt 4 true 0)).cues.list.map (·.rehearsal)) = [false, true]
      ∧ ((after (.fire (request [7])) (butt 2 true 1)).cues.list.map (·.state)) = [.active, .aborted]
      ∧ ((after (.fire (request [7])) (butt 2 false 1)).cues.list.map (·.slipped)) = [false, true]
      ∧ hasFlag (after (.fire (request [7])) (butt 2 false 1)) .syncSlip = true := by decide

theorem test_witness_transition_cue :
    cueReady (ownReady rolling) 0 rolling = true ∧ cueReady (ownReady player) 0 player = false
      ∧ ((after (.fire (request [7])) (withCues [cue (.transition (dissolve 30))] rolling)).fader.context.map
          fun k => (k.tag, k.k, k.pair)) = some (7, 0, .paired)
      ∧ ((after (.fire (request [7]))
            (withCues [cue (.transition { dissolve 30 with partner := some 2 })] rolling)).fader.context.map
          fun k => (k.pair, k.noted)) = some (.pending, 0)
      ∧ hasFlag (after (.fire (request [7])) (withCues [cue (.transition (dissolve 30))] player)) .cueAborted = true := by
  decide

/-- A player with a running dissolve of an ACTIVE TRANSITION cue. -/
def dissolving (k : Nat) : State :=
  withContext (context 7 30 k) (withCues [{ cue (.transition (dissolve 30)) with state := .active }] player)

/-- A playing recorder with a dissolve of cue 6 under way to full level, and a TRANSITION cue 7 waiting. -/
def following (p : TransParams) (hard : Bool) (required : Word16) : State :=
  withContext { context 6 30 5 with fromLevel := 512 }
    (withCues
      [{ cue (.transition (dissolve 30)) with tag := 6, state := .active },
        { cue (.transition p) with hard := hard, required := required }] rolling)

/-- A fire over a context, of a wipe, of duration 0, slipped, and aborted. -/
theorem test_transition_fires_over :
    let fire (s : State) : State := after (.fire (request [7])) s
    let wipe : TransParams := { dissolve 30 with kind := .wipe, target := 300, pattern := .sparkle }
    ((fire (following wipe true 0)).cues.list.map (·.state)) = [.done, .active]
      ∧ ((fire (following wipe true 0)).fader.context.map (·.fromLevel)) = some 1024
      ∧ ((fire (following wipe true 0)).fader.level, (fire (following wipe true 0)).fader.gain) = (300, 0)
      ∧ (fire (following wipe true 0)).fader.windowClass = .cells
      ∧ (fire (following { dissolve 0 with target := 512 } true 0)).fader
        = { level := 512, gain := 768, law := .power, windowClass := .full, invert := false, softness := 0,
            context := none }
      ∧ ((fire (following { dissolve 0 with target := 512 } true 0)).cues.list.map (·.state)) = [.done, .done]
      ∧ ((fire (following wipe false 4)).cues.list.map fun c => (c.state, c.slipped)) = [(.done, false), (.active, true)]
      ∧ hasFlag (fire (following wipe false 4)) .syncSlip = true
      ∧ (fire (following wipe true 4)).fader = (following wipe true 4).fader
      ∧ ((fire (following wipe true 4)).cues.list.map (·.state)) = [.active, .aborted] := by decide

theorem test_witness_abort :
    (after (.abort (request [])) (withCues [cue .mark] player)).flags = player.flags
      ∧ (after (.abort (request [])) recording).tr.punch = none
      ∧ (after (.abort (request [])) (dissolving 5)).fader.level = 1024
      ∧ (after (.abort (request [])) (dissolving 5)).fader.gain = 1024
      ∧ hasFlag (after (.abort (request [])) (dissolving 5)) .cueAborted = true := by decide

/-- A player whose context of a cue with partner 2 stands before its check, a bulletin of the tag having come or not. -/
def pairing (hard came : Bool) : State :=
  let k : Context :=
    { context 7 30 0 with
      params := { dissolve 30 with partner := some 2 }, start := 5, pair := .pending, hard := hard }
  let s := withContext k (withCues [{ cue (.transition (dissolve 30)) with state := .active }] player)
  s.setPeers (s.peers.set 2 { s.peers[2] with tag := 7, updates := if came then 1 else 0 })

/-- The hypotheses of the advance: no timed cue, the check due, passed and failed. -/
theorem test_witness_partner_check :
    NoTimedCue (pairing true true) ∧ CheckDue { context 7 30 0 with pair := .pending }
      ∧ PairAfter (context 7 30 1) player .paired
      ∧ PartnerConfirms { context 7 30 0 with params := { dissolve 30 with partner := some 2 } } (pairing true true)
      ∧ ¬PartnerConfirms { context 7 30 0 with params := { dissolve 30 with partner := some 2 } } (pairing true false) := by
  refine ⟨by unfold NoTimedCue; decide, by unfold CheckDue; decide, Or.inl ⟨by unfold CheckDue; decide, rfl⟩, ?_, ?_⟩
  · intro st h; cases h; decide
  · intro h; exact absurd (h 2 rfl) (by decide)

/-- R160's example, and a WIPE each way at p = 512: level, share, invert and cells. -/
theorem test_context_values :
    let fade : Context := { context 7 30 10 with params := { dissolve 30 with target := 0 }, fromLevel := 1000 }
    let wipe (d : Direction) : Context :=
      { context 7 30 15 with
        params := { dissolve 30 with kind := .wipe, direction := d, target := 1000, pattern := .sparkle, softness := 9 }
        fromLevel := 600 }
    fade.position = 265 ∧ fade.level = 742 ∧ fade.share = 742 ∧ fade.windowClass = .full ∧ fade.shape = .full
      ∧ (wipe .inward).position = 512 ∧ (wipe .inward).level = 1000 ∧ (wipe .inward).share = 500
      ∧ (wipe .outward).level = 600 ∧ (wipe .outward).share = 300 ∧ (wipe .outward).invert = true
      ∧ (wipe .inward).shape = .cells 1 512 ∧ (wipe .inward).softness = 9
      ∧ audioGain .cut 511 = 0 ∧ audioGain .cut 512 = 1024 := by decide

theorem test_boundary_advances_fader :
    ((boundary (dissolving 3)).fader.context.map (·.k)) = some 4
      ∧ (boundaryLate (dissolving 29)).fader.level = 1024
      ∧ ((boundaryLate (dissolving 29)).cues.list.map (·.state)) = [.done]
      ∧ ((boundary (withContext { context 7 30 3 with start := 1 } player)).fader.context.map (·.k)) = some 3
      ∧ ((boundary (pairing true true)).fader.context.map (·.pair)) = some .paired
      ∧ ((boundaryLate (pairing false false)).fader.context.map (·.pair)) = some .unpaired
      ∧ hasFlag (boundaryLate (pairing false false)) .unpaired = true
      ∧ ((boundary (pairing true false)).cues.list.map fun c => (c.state, c.unpaired)) = [(.done, true)] := by
  decide +kernel

/-- A recorder whose ACTIVE RECORD cue stands at counts. -/
def courseAt (hard : Bool) (remaining notReady : Nat) : State :=
  withCues [{ cue (.record 3 10) with hard := hard, state := .active, remaining := remaining, notReady := notReady }]
    recording

theorem test_witness_record_limits :
    (activeRecord (courseAt true 0 0)).isSome = true
      ∧ ((after .recordLengthEnd (courseAt true 0 0)).cues.list.map (·.state)) = [.done]
      ∧ after .recordLengthEnd (courseAt true 1 0) = courseAt true 1 0
      ∧ ((after .notReadyLimit (courseAt true 5 3)).cues.list.map (·.state)) = [.aborted]
      ∧ ((after .notReadyLimit (courseAt false 5 3)).cues.list.map (·.slipped)) = [true]
      ∧ after .notReadyLimit (courseAt true 5 2) = courseAt true 5 2 := by decide

/-- The RECORD cue at a boundary: its end, and each answer to its third record without readiness. -/
theorem test_boundary_runs_record :
    NoTimedCue (courseAt true 1 2) ∧ ((boundary (courseAt true 1 2)).cues.list.map (·.state)) = [.done]
      ∧ ((boundaryLate (courseAt true 2 2)).cues.list.map fun c => (c.state, c.remaining)) = [(.aborted, 1)]
      ∧ ((boundary (courseAt false 2 2)).cues.list.map fun c => (c.state, c.slipped)) = [(.active, true)]
      ∧ (boundary (courseAt false 2 2)).tr.punch.isSome = true
      ∧ ((boundary (courseAt true 2 1)).cues.list.map (·.notReady)) = [2] := by
  refine ⟨by unfold NoTimedCue; decide, ?_⟩
  decide +kernel

/-- The evaluation of a boundary that the internal timebase makes. -/
def evaluated (s : State) : State := chaseBoundary (positionBoundary (openBoundary none (completePeriod s)))

/-- A recorder that records while LOCKED to a lead at frame 100, its own position so far behind. -/
def lockedCourse (behind : Nat) : State :=
  let s := present (chasing .locked (at_ (51200 - behind) 256 (courseAt true 5 2)))
  let t := s.setPins { s.pins with servo := true }
  ledBy 51200 256 .play 0 (t.setTime { t.time with refState := .present })

/-- LOCKED and in the window the record goes on and is ready; far away the servo winds, and the record is broken. -/
theorem test_boundary_runs_locked_record :
    let near := lockedCourse 0
    let far := ledBy 1000000 256 .play 0 near
    MakesBoundary (.referencePulse 240000 true) near ∧ NoTimedCue near ∧ near.tr.locate = none
      ∧ activeRecord (evaluated near) = activeRecord near
      ∧ (evaluated near).tr.command = .speed 288
      ∧ ((boundary near).cues.list.map fun c => (c.state, c.remaining, c.notReady)) = [(.active, 4, 0)]
      ∧ ((boundaryLate near).cues.list.map fun c => (c.state, c.remaining, c.notReady)) = [(.active, 4, 0)]
      ∧ activeRecord (evaluated far) = none
      ∧ ((boundary far).cues.list.map (·.state)) = [.aborted] ∧ (boundary far).tr.punch = none := by
  refine ⟨Or.inr (Or.inr ⟨240000, true, rfl, by decide, by decide⟩), by unfold NoTimedCue; decide, ?_⟩
  decide +kernel

/-- A cue at frame 100, its own clock before the point at the last record and at a position now. -/
def crossingAt (x : Nat) : State :=
  let s := at_ x 256 (withCues [{ cue .mark with trigger := .own 100 }] player)
  s.setCues { s.cues with ownSample := some 51100 }

theorem test_boundary_fires_timed_cue :
    CueListSound (crossingAt 51200) ∧ ((boundary (crossingAt 51200)).cues.list.map (·.state)) = [.done]
      ∧ ((boundaryLate (crossingAt 51199)).cues.list.map (·.state)) = [.waiting]
      ∧ (boundaryLate (crossingAt 51199)).cues.ownSample = some 51199 := by
  refine ⟨⟨by decide, by decide, by decide, List.pairwise_singleton _ _⟩, ?_⟩
  decide +kernel

/-! ### The transport and the link at a boundary -/

/-- A recorder whose tally timer and servo timer stand before their limits. -/
def timing (tally servo : Nat) : State :=
  recording.setTr
    { recording.tr with punch := some { tracks := 1, tally := .running tally }, servoTimer := servo }

theorem test_boundary_runs_transport :
    TransportRests (timing 3 119) ∧ hasFlag (boundary (timing 3 119)) .recordFault = true
      ∧ hasFlag (boundaryLate (timing 3 119)) .transportFault = true
      ∧ (boundary (timing 2 7)).tr.servoTimer = 8 ∧ hasFlag (boundary (timing 2 7)) .recordFault = false
      ∧ editLines (boundary (timing 3 119)) = 1 ∧ (boundary (timing 3 119)).tr.speedWord = 256
      ∧ (boundary live).tr.speedSent = false := by
  refine ⟨⟨rfl, rfl, by unfold NoTimedCue; decide, ?_⟩, ?_⟩
  · intro c h
    have e : some c = some { cue (.record 3 10) with state := .active, remaining := 20 } := Eq.symm h
    cases e
    decide
  · decide +kernel

/-- The speed word and the servo timer of a chasing and of a locating station: of the drive after the evaluation or the
locate's record where that comes first, and else of the one before. -/
theorem test_boundary_runs_chasing_transport :
    let chaser := ledBy 45951276 256 .play 0 (chasing .sync (at_ 45951276 0 (timing 0 7)))
    let locator := at_ 51000 0 (locating .drive 0 0 0 0)
    NoTimedCue chaser ∧ NoTimedCue locator
      ∧ ((boundary chaser).tr.speedWord, (boundary chaser).tr.servoTimer) = (288, 8)
      ∧ ((boundaryLate chaser).tr.speedWord, (boundaryLate chaser).tr.servoTimer) = (256, 8)
      ∧ ((boundary locator).tr.speedWord, (boundary locator).tr.speedSent) = (0, true)
      ∧ ((boundaryLate locator).tr.speedWord, (boundaryLate locator).tr.servoTimer) = (256, 0) := by
  refine ⟨by unfold NoTimedCue; decide, by unfold NoTimedCue; decide, ?_⟩
  decide +kernel

/-- A player with an old POSITION and two REPORTs waiting, one of them at its 25th boundary. -/
def queued (phase : TxPhase) (quiet : Bool) : State :=
  let s := player.setTime { player.time with fieldCount := 24 }
  withLink
    { player.link with
      rx := .ignore, phase := phase, quiet := quiet, position := some (bulletin 3)
      reports := [report 0, { report 0 with joined := 9 }] } s

/-- In either order the old POSITION and the expired REPORT leave and are counted; a POSITION on the line is let go. -/
theorem test_boundary_queues_bulletin :
    (boundary (queued .jamming false)).link.txDropped = 2 ∧ (boundaryLate (queued .jamming false)).link.txDropped = 2
      ∧ ((boundaryLate (queued .idle false)).link.position.map (·.joined)) = some 25
      ∧ (boundary (queued .idle false)).link.reports = [{ report 0 with joined := 9 }]
      ∧ hasFlag (boundary (queued .idle false)) .bulletinDropped = true
      ∧ (boundary (onLine (.sending (bulletin 0) false))).link.phase = .sending (bulletin 0) true := by
  decide +kernel

/-- A new bulletin that has started when the link takes its boundary is kept; an older one is let go. -/
theorem test_new_bulletin_is_kept :
    (letOldGo (onLine (.sending (bulletin 0) false))).link.phase = .sending (bulletin 0) false
      ∧ (letOldGo (onLine (.sending { bulletin 0 with joined := 5 } false))).link.phase
          = .sending { bulletin 0 with joined := 5 } true := by decide

/-- An expired REPORT behind an old POSITION is not started when both leave at once on a quiet line. -/
theorem test_expired_report_is_not_started :
    let s := queued (.deferring 3) true
    let u := linkBoundary (s.setTime { s.time with fieldCount := 25 })
    u.link.reports.all (fun f => !f.expired 25) = true ∧ u.link.txDropped = 2 ∧ u.link.phase ≠ .sending (report 0) false := by
  decide +kernel

/-! ### Fader and mix port -/

theorem test_witness_fader :
    (after (.fader (request [4, 1, 0, 0])) player).fader.level = 1024
      ∧ (after (.fader (request [4, 1, 0, 0])) player).req.lastResult = .clamped
      ∧ ((after (.fader (request [4, 0, 3, 0xE8])) player).fader.context.map (·.params.duration)) = some 999
      ∧ (after (.fader (request [0, 0, 0, 1])) (withContext (context 0 30 5) player)).fader.level = 1024
      ∧ (after (.fader (request [0, 0, 0, 0])) (dissolving 5)).req.lastResult = .refusedState := by decide

/-- FADER with fields 0 while a FADER context exists. -/
theorem test_fader_at_once_over_a_context :
    let t := after (.fader (request [1, 0, 0, 0])) (withContext (context 0 30 5) player)
    t.fader.level = 256 ∧ t.fader.gain = 256 ∧ t.fader.context = none ∧ t.req.lastResult = .ok := by decide

theorem test_witness_transition_end :
    (after .transitionComplete (dissolving 30)).fader.level = 1024
      ∧ ((after .transitionComplete (dissolving 30)).cues.list.map (·.state)) = [.done]
      ∧ after .transitionComplete (dissolving 29) = dissolving 29
      ∧ (after .transitionComplete (withContext (context 0 30 30) player)).fader.context = none := by decide

/-- A player whose mix port sends a record, with or without one owed. -/
def mixing (due : Bool) : State :=
  player.setMix { sending := some (mixRecordNow player), due := due, started := true }

theorem test_witness_mix_record_end :
    (after .mixRecordEnd (mixing true)).mix = { sending := some (mixRecordNow player), due := false, started := true }
      ∧ (after .mixRecordEnd (mixing false)).mix.sending = none := by decide

/-- The mix port at a boundary: a first record of the new values, or one owed. -/
theorem test_boundary_sends_record :
    ((boundary (dissolving 14)).mix.sending.map fun m => (m.level, m.secondField)) = some (512, true)
      ∧ (boundaryLate (mixing true)).mix.sending = (mixing true).mix.sending
      ∧ (boundaryLate (mixing false)).mix.due = true := by decide +kernel

/-- Table 12.8: the field record of a full-level first field. -/
theorem test_field_record :
    (mixRecordNow (player.setFader { player.fader with level := 1024, gain := 955 })).bytes 288
      = [0x01, 0x00, 0x04, 0x00, 0x03, 0xBB, 0x00] := by decide +kernel

/-- A window without pixels, and the number of characters of a record with its line records. -/
theorem test_windows_and_record_lengths :
    lineWindow 288 .split 0 9 = (0, 0) ∧ lineWindow 288 .box 1 144 = (0, 0) ∧ lineWindow 243 .split 512 0 = (180, 540)
      ∧ (mixChars (mixing false)).length = 7
      ∧ (mixChars
          ((mixing false).setMix
            { sending := some { mixRecordNow player with shape := .spans .split 0 }, due := false, started := true })).length
          = 2023
      ∧ (mixChars (after .powerUp (mixing false))) = [] := by decide +kernel

/-- R163, R164 and Table 12.8: halves to even, the box of an odd height, and the line records of a line. -/
theorem test_windows_and_line_records :
    lineWindow 288 .left 32 0 = (0, 22) ∧ lineWindow 288 .left 96 0 = (0, 68) ∧ lineWindow 288 .left 300 0 = (0, 211)
      ∧ lineWindow 243 .top 512 121 = (0, 720) ∧ lineWindow 243 .top 512 122 = (0, 0)
      ∧ lineWindow 243 .box 300 86 = (254, 465) ∧ lineWindow 243 .box 300 157 = (0, 0)
      ∧ ({ mixRecordNow player with shape := .spans .box 300 } : MixRecord).lineBytes 243 156
        = [0x02, 0, 156, 0, 254, 1, 209]
      ∧ ({ mixRecordNow player with shape := .cells 646 1024 } : MixRecord).lineBytes 288 287
        = [0x03, 1, 31, 0x1F, 0xFF, 0xFF, 0xFF, 0xFF, 0xFF]
      ∧ ({ mixRecordNow player with secondField := true, invert := true, windowClass := .cells } : MixRecord).fieldBytes.take 2
        = [0x01, 11] := by decide +kernel

/-! ### GPI and marks -/

/-- A player whose input line 1 stands at a level with a binding, a run and a holdoff. -/
def input (accepted : Option Bool) (run : Nat) (binding : Binding) (holdoff : Nat) : State :=
  player.setGpi
    { player.gpi with
      inputs :=
        player.gpi.inputs.set 0
          { accepted := accepted, run := run, lastSample := some false, edge := .fall, binding := binding
            holdoff := holdoff } }

/-- The accepted level and the run count of input line 1. -/
def filterOf (s : State) : Option Bool × Nat := (s.gpi.inputs[0].accepted, s.gpi.inputs[0].run)

/-- No edge: the first level accepted; an edge: the fourth sample of the other level. -/
theorem test_witness_gpi_sample :
    sampleEdges 0 player = [] ∧ sampleEdges 0 (input none 3 .play 0) = []
      ∧ filterOf (after (.gpiSample 0) (input none 3 .play 0)) = (some false, 0)
      ∧ sampleEdges 0 (input (some true) 2 .play 0) = [] ∧ sampleEdges 0 (input (some true) 3 .play 0) = [0]
      ∧ filterOf (after (.gpiSample 0) (input (some true) 2 .play 0)) = (some true, 3)
      ∧ (after (.gpiSample 0) (input (some true) 3 .play 0)).tr.command = .speed 256 := by decide

theorem test_witness_gpi_edge :
    (after (.gpiEdge 0 false) (input (some true) 0 .play 0)).tr.command = .speed 256
      ∧ (after (.gpiEdge 0 false) (input (some true) 0 .play 0)).gpi.inputs[0].holdoff = 3
      ∧ (after (.gpiEdge 0 false) (input (some true) 0 .play 1)).tr.command = .stop
      ∧ (after (.gpiEdge 0 true) (input (some false) 0 .play 0)).tr.command = .stop
      ∧ (after (.gpiEdge 0 false) (chasing .seek (input (some true) 0 .stop 0))).chase.state = .free
      ∧ (after (.gpiEdge 0 false) (at_ 1000 0 (input (some true) 0 .mark 0))).marks
          = [{ frame := 1, phase := 488, quality := .ltc, origin := .gpi 0 }] := by decide

/-- PLAY and STOP edges in OFFLINE and in LOCAL: neither is kept, and STOP disables the chase. -/
theorem test_gpi_edges_not_kept :
    let offline (s : State) := s.setPins { s.pins with threaded := false }
    let inLocal (s : State) := s.setPins { s.pins with localOn := true }
    let edge (s : State) := after (.gpiEdge 0 false) s
    isDeck player = true ∧ deckReady (offline player) = false ∧ deckReady (inLocal player) = false
      ∧ (edge (offline (input (some true) 0 .play 0))).tr = player.tr
      ∧ (edge (inLocal (input (some true) 0 .play 0))).tr = player.tr
      ∧ (edge (inLocal (input (some true) 0 .play 0))).gpi.inputs[0].holdoff = 3
      ∧ (edge (offline (chasing .seek (input (some true) 0 .stop 0)))).chase.state = .free
      ∧ (edge (offline (chasing .seek (input (some true) 0 .stop 0)))).chase.lead = 1
      ∧ (edge (inLocal (chasing .seek (input (some true) 0 .stop 0)))).tr = player.tr := by decide

/-- The CUE and ABORT bindings, and an edge of a sample that fires a cue. -/
theorem test_witness_gpi_bindings :
    ((after (.gpiEdge 0 false)
        (withCues [cue .mark, { cue .mark with tag := 8, trigger := .gpi 0 }] (input (some true) 0 .cue 0))).cues.list.map
          (·.state)) = [.waiting, .done]
      ∧ ((after (.gpiSample 0)
        (withCues [{ cue .mark with trigger := .gpi 0 }] (input (some true) 3 .cue 0))).cues.list.map (·.state)) = [.done]
      ∧ (after (.gpiSample 0) (input (some true) 3 .cue 0)).gpi.inputs[0].holdoff = 3
      ∧ ((after (.gpiEdge 0 false)
        (withCues [{ cue .mark with state := .active }] (input (some true) 0 .abort 0))).cues.list.map (·.state)) = [.aborted]
      ∧ after (.gpiEdge 0 false) (chasing .seek (input (some true) 0 .play 0))
        = updateInput 0 (fun i => { i with accepted := some false, run := 0, holdoff := 3 })
            (chasing .seek (input (some true) 0 .play 0)) := by decide

theorem test_witness_gpi_requests :
    bindingOfCode 5 = some .none ∧ edgeOfCode 2 = some .both ∧ sourceOfCode 5 = some .fault
      ∧ tallyPatternOfCode 2 = some .fast
      ∧ (after (.gpiBind (request [4, 5, 2])) player).gpi.inputs[3].edge = .both
      ∧ (after (.gpiBind (request [5, 5, 2])) player).req.lastResult = .refusedFormat
      ∧ (after (.tallyMap (request [1, 5, 2])) player).gpi.outputs[0].source = .fault := by decide

/-- A player at a field count whose output line 1 shows a source by a pattern. -/
def showing (source : TallySource) (pattern : TallyPattern) (fc : Word16) (s : State) : State :=
  (s.setTime { s.time with fieldCount := fc }).setGpi
    { s.gpi with outputs := s.gpi.outputs.set 0 { source := source, pattern := pattern, pulse := none } }

/-- Table 11.2, and the phases of R177 at their ends. -/
theorem test_tallies :
    outputActive (showing .record .steady 0 recording) 0 = true
      ∧ outputActive (showing .record .steady 0 recorder) 0 = false
      ∧ outputActive (showing .air .steady 0 (dissolving 0)) 0 = true
      ∧ outputActive (showing .lock .steady 0 (after .chaseLock (nearLock .sync 10 0))) 0 = true
      ∧ outputActive (showing .ready .steady 0 (after .chaseLock (nearLock .sync 10 0))) 0 = true
      ∧ outputActive (showing .fault .steady 0 (setFlag .clash player)) 0 = true
      ∧ outputActive (showing .fault .steady 0 (setFlag .refLost player)) 0 = false
      ∧ ([0, 23, 24, 47, 48].map fun fc => outputActive (showing .record .slow fc recording) 0)
        = [true, true, false, false, true]
      ∧ ([0, 5, 6, 11, 12].map fun fc => outputActive (showing .record .fast fc recording) 0)
        = [true, true, false, false, true] := by decide

/-- A player whose output line 1 pulses with a count. -/
def pulsing (count : Nat) : State := startPulse 0 count player

theorem test_witness_pulse :
    outputActive (pulsing 0) 0 = true ∧ outputActive (after (.pulseEnd 0) (pulsing 0)) 0 = false
      ∧ after (.pulseEnd 0) (pulsing 1) = pulsing 1 := by decide

def someMark : Mark := { frame := 100, phase := 0, quality := .ltc, origin := .request }

theorem test_witness_marks :
    (after (.mark (request [])) player).req.lastResult = .refusedState
      ∧ (after (.mark (request [])) (reading.setMarks (List.replicate 7 someMark))).marks.length = 8
      ∧ hasFlag (after (.mark (request [])) (reading.setMarks (List.replicate 8 someMark))) .markLost = true
      ∧ (after (.markDrop (request [])) player).req.lastResult = .refusedState
      ∧ (after (.locateMark (request [])) player).req.lastResult = .refusedState
      ∧ (after (.markDrop (request [])) (player.setMarks [someMark])).marks = []
      ∧ ((after (.locateMark (request [])) (player.setMarks [someMark])).tr.locate.map (·.target)) = some 100 := by
  decide

/-- LOCATE MARK starts a locate with and without a position, retargets the running one, and breaks a record. -/
theorem test_witness_locate_mark :
    let go (s : State) := after (.locateMark (request [])) (s.setMarks [someMark])
    ((go player).tr.locate.map fun l => (l.phase, l.drive)) = some (.acquire, .speed 256)
      ∧ ((go reading).tr.locate.map fun l => (l.phase, l.drive)) = some (.drive, .stop)
      ∧ ((go (locating .settle 2 9 1 3)).tr.locate.map fun l => (l.phase, l.records, l.attempts, l.eotCount))
        = some (.drive, 9, 0, 0)
      ∧ (go recording).tr.punch = none ∧ hasFlag (go recording) .cueAborted = true := by decide

/-! ### Reports, flags and SESSION CLEAR -/

theorem test_witness_reads :
    reportsHeld player.link = 0 ∧ player.link.quiet = false
      ∧ (after (.readStatus (request [])) player).link.reports.map (·.payload.length) = [33]
      ∧ (after (.readCues (request [23])) player).link.reports.map (·.payload) = [[2, 9, 15, 0, 23]]
      ∧ (after (.readCues (request [24])) player).req.lastResult = .refusedFormat
      ∧ (after (.readMarks (request [])) (player.setMarks [someMark])).link.reports.map (·.payload)
          = [[3, 9, 15, 1, 0, 0, 100, 0x04, 0x00]]
      ∧ (after (.readMarks (request []))
            (withLink { player.link with reports := List.replicate 3 (report 0) } player)).req.lastResult
          = .refusedFull := by decide

/-- A cue's entry, the STATUS body's first bytes and its lines, and a READ on a quiet line: deferred, started at k = 0, and
kept waiting by a POSITION held back. -/
theorem test_report_bodies :
    (cuesBody 0 (withCues [{ cue (.gpiPulse 1 5) with trigger := .own 65538, state := .active, slipped := true }] player))
        = [1, 0, 7, 5, 0, 1, 0, 2, 3]
      ∧ (statusBody live).take 7 = [0x21, 2, 0, 0, 0, 0, 1] ∧ (statusBody live).drop 21 = [0, 0, 0, 0, 0, 0, 0, 0, 0]
      ∧ (statusBody (showing .fault .fast 0 player)).drop 26 = [0x25, 0, 0, 0] := by decide

theorem test_read_on_quiet_line :
    let asked (l : Link) : State := after (.readMarks (request [])) (withLink { l with quiet := true, rx := .frame } player)
    (asked { player.link with backoff := 0x5555 }).link.phase = .deferring 3
      ∧ (asked { player.link with backoff := 4 }).link.phase
        = .sending { kind := .report, payload := [3, 9, 15, 0], collisions := 0, joined := 0 } false
      ∧ (asked { player.link with position := some (bulletin 0), heldBack := true }).link.phase = .idle
      ∧ (asked { player.link with position := some (bulletin 0), backoff := 4 }).link.phase
        = .sending (bulletin 0) false := by decide

theorem test_clear_flags :
    (after (.clearFlags (request [0, 1])) player).flags = 0
      ∧ (after (.clearFlags (request [0xE0, 0])) player).flags = 1 := by
  decide

theorem test_session_clear :
    (activeRecord recording).isSome = true ∧ (after (.sessionClear (request [])) recording).cues.list = []
      ∧ (after (.sessionClear (request [])) recording).tr.command = .stop
      ∧ (after (.sessionClear (request [])) recording).flags = 0
      ∧ (after (.sessionClear (request [])) (dissolving 5)).fader.level = 0 := by decide

/-! ### The link -/

/-- Table 3.7's kind of draw: 5555h steps to 2AABh, whose low 4 bits are 11 for a frame of one collision. -/
theorem test_witness_quiet :
    driverReleased (onLine .idle).link = true ∧ (onLine .idle).link.quiet = false
      ∧ (after (.lineQuiet 100) (onLine .idle)).link.rx = .wait
      ∧ (after (.lineQuiet 100) player).link.rxBad = 1 ∧ (after (.gapError 100) player).link.rx = .wait
      ∧ headFrame { player.link with reports := [report 0] } = some (report 0)
      ∧ (after (.lineQuiet 100)
            (withLink { player.link with rx := .ignore, reports := [report 1], backoff := 0x5555 } player)).link.phase
          = .deferring 11 := by decide

theorem test_witness_deferral_end :
    (after (.deferralEnd 228480)
        (withLink { (onLine (.deferring 3)).link with position := some (bulletin 0) } player)).link.phase
        = .sending (bulletin 0) false
      ∧ (after (.deferralEnd 228481)
            (withLink { (onLine (.deferring 3)).link with position := some (bulletin 0) } player)).link.heldBack = true
      ∧ (after (.deferralEnd 239999)
            (withLink { (onLine (.deferring 3)).link with reports := [report 2] } player)).link.phase
        = .sending (report 2) false := by decide

theorem test_witness_sending :
    (after .startBitSeen (onLine (.deferring 3))).link.phase = .idle
      ∧ (after .frameSent (onLine (.sending (report 0) false))).link.phase = .idle
      ∧ (after .jamEnd (onLine .jamming)).link.phase = .idle
      ∧ (after .collision (onLine (.sending (report 6) false))).link.reports = [report 7]
      ∧ (after .collision (onLine (.sending (bulletin 6) false))).link.position = some (bulletin 7)
      ∧ hasFlag (after .collision (onLine (.sending (bulletin 7) false))) .bulletinDropped = true
      ∧ (after .collision (onLine (.sending (bulletin 0) true))).link.txDropped = 1 := by decide

/-- The eighth collision of a POSITION let go, and of a REPORT expired on the line: no LINK_ERROR (log 36). -/
theorem test_eighth_collision_of_a_frame_let_go :
    let expired := onLine (.sending (report 7) false)
    let late := expired.setTime { expired.time with fieldCount := 25 }
    hasFlag (after .collision (onLine (.sending (bulletin 7) true))) .linkError = false
      ∧ hasFlag (after .collision (onLine (.sending (bulletin 7) true))) .bulletinDropped = true
      ∧ hasFlag (after .collision late) .linkError = false ∧ (after .collision late).link.txDropped = 1
      ∧ hasFlag (after .collision expired) .linkError = true := by decide

/-- Of two waiting REPORTs the one that joined 25 boundaries ago is dropped and the one of 24 is kept. -/
theorem test_witness_report_expiry :
    let s := withLink { (onLine .jamming).link with reports := [report 0, { report 0 with joined := 1 }] } player
    (after .reportExpiry (s.setTime { s.time with fieldCount := 25 })).link.reports = [{ report 0 with joined := 1 }]
      ∧ (after .reportExpiry (s.setTime { s.time with fieldCount := 25 })).link.txDropped = 1 := by decide

/-- The head leaves: drawn anew on a quiet line, abandoned when none is left; on the line it goes on. -/
theorem test_expiry_of_the_head :
    let s (phase : TxPhase) (quiet : Bool) (rest : List TxFrame) : State :=
      withLink { (onLine phase).link with quiet := quiet, reports := report 0 :: rest, backoff := 0x5555 }
        (player.setTime { player.time with fieldCount := 25 })
    (after .reportExpiry (s (.deferring 3) true [{ report 1 with joined := 1 }])).link.phase = .deferring 11
      ∧ (after .reportExpiry (s (.deferring 3) true [])).link.phase = .idle
      ∧ (after .reportExpiry (s (.sending (report 5) false) false [])).link.phase = .sending (report 5) false
      ∧ (after .collision (s (.sending (report 5) false) false [])).link.txDropped = 1 := by decide

/-- Reading a line: a glitch, a framing error and what follows it, a character after recessive line, and the gap. -/
theorem test_read_line :
    readLine (true :: charLevels 0xD3) = [{ byte := 0xD3, framing := false }]
      ∧ readLine (List.replicate 14 false ++ [true, true] ++ charLevels 0x55)
          = [{ byte := 0, framing := true }, { byte := 0x55, framing := false }]
      ∧ readLine (charLevels 0x31 ++ List.replicate 10 true ++ charLevels 0x55) = [{ byte := 0x31, framing := false }]
      ∧ readLine (charLevels 0x31 ++ List.replicate 9 true ++ charLevels 0x55)
          = [{ byte := 0x31, framing := false }, { byte := 0x55, framing := false }]
      ∧ charLevels 0xD3 = [false, true, true, false, false, true, false, true, true, true] := by decide

theorem test_witness_frame_start :
    let w := withLink { player.link with rx := .wait, quiet := true } player
    (after (.frameStart (charLevels 0xD3) []) w).link.rx = .frame
      ∧ (after (.frameStart (charLevels 0x55) (charLevels 0xD3)) w).link.rx = .frame
      ∧ (after (.frameStart ((charLevels 0xD3).set 9 false) []) w).link.rx = .ignore
      ∧ (after (.frameStart (charLevels 0x55) []) w).link.rx = .ignore
      ∧ after (.frameStart (List.replicate 10 true) []) w = w := by decide

/-- Characters without a framing error. -/
def clean (bs : List Byte) : List LinkChar := bs.map fun b => { byte := b, framing := false }

theorem test_witness_broken_frame :
    frameBroken (clean [0x31, 0, 49]) player = true ∧ frameBroken (clean [0x31, 0, 48]) player = false
      ∧ (after (.brokenFrame ((charLevels 0x31).set 9 false)) player).link.rxBad = 1
      ∧ (after (.brokenFrame (lineLevels [0x31, 0, 48])) player).link.rxBad = 0
      ∧ (0x4F : Byte).toNat / 64 ≠ player.straps.std.toNat
      ∧ (after (.positionArrival 0x4F []) player).link.rxBad = 1 := by decide

/-- A whole frame followed by a broken character is no broken frame; a gap ends the reading (log 35). -/
theorem test_frame_ends_at_its_crc :
    frameBroken (clean [0x31, 0, 0, 0x3E, 0x09] ++ [{ byte := 0, framing := true }]) player = false
      ∧ frameBroken (clean [0x31, 0, 0, 0x3E] ++ [{ byte := 0x09, framing := true }]) player = true
      ∧ frameBroken (clean [0x31, 0, 0, 0x3E, 0x08]) player = true
      ∧ readLine (charLevels 0x55 ++ List.replicate 10 true ++ charLevels 0xD3) = clean [0x55]
      ∧ readLine (charLevels 0x55 ++ List.replicate 9 true ++ charLevels 0xD3) = clean [0x55, 0xD3] := by
  decide +kernel

/-! ### Peers and bulletins -/

/-- A player in the state of Table 4.6, but for the lists and counts that bear on nothing here. -/
def composing : State :=
  let s := present (at_ 45951276 256 (chasing .sync player))
  let c : ChaseRecord :=
    { state := .sync, target := 45952256, usable := true, error := 980, compare := .behind, ready := false }
  (s.setChase { s.chase with offset := 2159750, record := c, handed := c }).setTr { s.tr with command := .speed 288 }

/-- Table 4.6 laid out by Table 12.2: the first ten bytes. -/
theorem test_bulletin_bytes :
    (bulletinBytes composing).take 10 = [0x9A, 0x01, 0x5E, 0x94, 0x25, 0x2C, 0x01, 0x00, 0x00, 0x00]
      ∧ (bulletinBytes composing).length = 20 ∧ bulletinWellFormed .f25 (bulletinBytes composing) = true := by decide

theorem test_witness_position_arrival :
    own player = 1 ∧ hasFlag (after (.positionArrival 0x01 []) player) .clash = true
      ∧ bulletinWellFormed (std player) [] = false
      ∧ (after (.positionArrival 0x02 (bulletinBytes composing)) player).peers[2].frame = 89748
      ∧ (after (.positionArrival 0x02 (bulletinBytes composing)) player).peers[2].updates = 1 := by decide

/-- Table 4.7: classes at ages 4, 5, 8 and 9, and the clearing at 250. -/
theorem test_ages :
    let aged (n : Word16) : State := (leadHeard player).setTime { player.time with fieldCount := n }
    freshness (entry (aged 4) 0) (aged 4) = .fresh ∧ freshness (entry (aged 5) 0) (aged 5) = .coasting
      ∧ freshness (entry (aged 8) 0) (aged 8) = .coasting ∧ freshness (entry (aged 9) 0) (aged 9) = .stale
      ∧ (after (.peerSilenceClear 0) (aged 249)).peers[0].heard = true
      ∧ (after (.peerSilenceClear 0) (aged 250)).peers[0].heard = false := by decide

theorem test_own_frame_passes :
    frameBroken (readLine ((frameChars player.straps (bulletin 0)).drop 2 |>.flatMap charLevels)) player = false := by
  decide +kernel

/-- The characters of a recorder's REPORT and of a player's POSITION with an empty payload (R36, R37, Table 12.1). -/
theorem test_frame_chars :
    frameChars { station := 1, role := 1, std := 2 } { report 0 with payload := [0xAB] }
        = [0x55, 0xD3, 0x64, 0x91, 0x01, 0xAB] ++ bytesOf 2 (crcOf [0x64, 0x91, 0x01, 0xAB]).toNat
      ∧ frameChars { station := 0, role := 3, std := 0 } { bulletin 0 with payload := [] }
        = [0x55, 0xD3, 0x31, 0x00, 0x00, 0x3E, 0x09] := by decide +kernel

/-- The speed word −2, the jam and a frame's first bits. -/
theorem test_levels :
    speedWordChars (player.setTr { player.tr with speedWord := -2, speedSent := true }) = [0xFF, 0xFE]
      ∧ txLevels (onLine .jamming) = List.replicate 10 false
      ∧ (txLevels (onLine (.sending (bulletin 0) false))).take 10 = charLevels 0x55 := by decide +kernel

/-! ### Invariants: the hypotheses hold of states with something in them -/

theorem test_witness_record_sound :
    RecordSound recording := by
  refine ⟨⟨by decide, by decide, by decide, List.pairwise_singleton _ _⟩, by decide, by decide, ?_⟩
  intro p hp
  have h : some p = some { tracks := 1, tally := .running 0 } := Eq.symm hp
  cases h
  exact ⟨rfl, rfl, rfl, by decide, _, List.mem_singleton.mpr rfl, rfl, 3, 10, rfl, rfl⟩

theorem test_witness_positions_sound : PositionsSound reading := by
  unfold PositionsSound; decide

theorem test_witness_lead_and_lock : LeadSound (chasing .sync player) ∧ LockSound (nearLock .locked 0 0) := by
  unfold LeadSound LockSound; decide

theorem test_witness_link_sound : LinkSound (onLine (.sending (report 7) false)) := by
  refine ⟨by decide, by decide, ?_, ?_, ⟨by show 7 < 8; decide, rfl, rfl⟩, by decide⟩
  · intro f hf; cases hf
  · intro f hf; cases hf

theorem test_witness_fader_sound : FaderSound (dissolving 29) := by
  refine ⟨by decide, by decide, by decide, ?_, ?_⟩
  · intro c hc
    have h : some c = some (context 7 30 29) := Eq.symm hc
    cases h
    exact ⟨⟨by decide, by decide, by decide⟩, by decide, by decide⟩
  · intro c hc p hp
    have h : c = { cue (.transition (dissolve 30)) with state := .active } := List.mem_singleton.mp hc
    subst h
    cases hp
    exact ⟨by decide, by decide, by decide⟩

theorem test_witness_stores_in_range :
    MarksSound (player.setMarks [someMark]) ∧ CountersHeld player ∧ TimebaseSound (settling 15)
      ∧ PortQuiet (boundary recording) ∧ (boundary recording).tr.speedSent = true ∧ SpeedSound recording := by
  refine ⟨⟨by decide, by decide⟩, by unfold CountersHeld; decide, by unfold TimebaseSound; decide,
    fun _ => by decide +kernel, by decide +kernel, ⟨by decide, by decide⟩, ?_, by decide, by decide⟩
  intro l hl; cases hl

theorem test_witness_frames_sound : FramesSound ((leadHeard (locating .drive 0 0 0 0)).setMarks [someMark]) := by
  refine ⟨by unfold EntryFrameSound; decide, by decide, ?_, ?_, ?_⟩
  · intro c hc; cases hc
  · intro l hl
    have h : some l = (locating .drive 0 0 0 0).tr.locate := Eq.symm hl
    cases h
    decide
  · intro f hf; cases hf

theorem test_witness_bulletin_reads_back :
    PositionsSound composing ∧ CueListSound composing ∧ MarksSound composing ∧ FaderSound composing := by
  refine ⟨by unfold PositionsSound; decide, ⟨by decide, by decide, by decide, List.Pairwise.nil⟩,
    ⟨by decide, by decide⟩, by decide, by decide, by decide, ?_, ?_⟩
  · intro c hc; cases hc
  · intro c hc; cases hc

end Sys2Proof.Machine.Tests
end

/-! SUPPORT and O47. CLEAR FLAGS: a taken request runs its judgement once, and the mask is read off bit by bit. -/

namespace Sys2Proof.Machine

/-! ### A request taken in RUN -/

/-- A request that is taken while the station runs ends in the record of its judgement (R67, R70). -/
theorem inRun_takeRequest_taken {r : Request} {s : State} (h : Taken r s) (judge : State → Judged) :
    inRun (takeRequest r judge) s = .next (record r.tag (judge (received s))) := by
  rw [inRun_of_running _ h.1, takeRequest_taken h]

/-- A judgement accepted with OK records OK on top of its effect, when the effect leaves the request unit alone (R70). -/
theorem record_answer_ok {r : Request} {s : State} {effect : State → State}
    (hreq : (effect (received s)).req = s.req) :
    record r.tag (answer none .ok effect (received s)) = (effect (received s)).setReq (requestRecord r .ok s) := by
  simp only [record_fields, answer, requestRecord, hreq]

/-! ### Flags by number -/

/-- Every number of Table 5.6 has its bit in the register of thirteen flags. -/
theorem Flag.number_lt (f : Flag) : f.number < 13 := by cases f <;> decide

/-- The numbers are the places of Table 5.6. -/
theorem flagTable_getElem?_number (f : Flag) :
    [Flag.powerRestart, .clash, .refLost, .tcJump, .locateFail, .transportFault, .recordFault, .syncSlip, .unpaired,
      .cueAborted, .bulletinDropped, .linkError, .markLost][f.number]? = some f := by
  cases f <;> rfl

theorem clearFlags_touches (mask : Word16) (s : State) :
    clearFlags mask s = s.setFlags (clearFlags mask s).flags := rfl

/-- A flag stands after CLEAR FLAGS when it stood before and the mask does not select its number: the mask is cut to
thirteen bits, and a flag's number lies among them (R76). -/
theorem hasFlag_clearFlags (mask : Word16) (s : State) (f : Flag) :
    hasFlag (clearFlags mask s) f = (hasFlag s f && !mask.getLsbD f.number) := by
  have hf := f.number_lt
  simp [hasFlag, clearFlags, hf]

/-! ### CLEAR FLAGS -/

/-- The mask is the two parameter characters with the first as the high byte (Table 12.3). -/
theorem judgeClearFlags_two {r : Request} {hi lo : Byte} (hp : r.params = [hi, lo]) :
    judgeClearFlags r = answer none .ok (clearFlags (hi ++ lo)) := by
  have hmask : BitVec.ofNat 16 (wordAt r.params 0) = hi ++ lo := by
    rw [hp]; exact targetAt_cons hi lo []
  rw [judgeClearFlags, withLength_ok _ (by rw [hp]; rfl), hmask]

theorem exec_clearFlags_taken {r : Request} {hi lo : Byte} {s : State} (h : Taken r s) (hp : r.params = [hi, lo]) :
    exec (.clearFlags r) s
      = .next ((clearFlags (hi ++ lo) (received s)).setReq (requestRecord r .ok s)) :=
  calc exec (.clearFlags r) s
      _ = inRun (takeRequest r (judgeClearFlags r)) s := rfl
      _ = .next (record r.tag (answer none .ok (clearFlags (hi ++ lo)) (received s))) := by
        rw [inRun_takeRequest_taken h, judgeClearFlags_two hp]
      _ = .next ((clearFlags (hi ++ lo) (received s)).setReq (requestRecord r .ok s)) := by
        rw [record_answer_ok rfl]

/-- Settles O47: the taken request is `clearFlags` of its mask with OK recorded, and each flag is read off its bit. -/
theorem clearFlagsRequest : Obligations.ClearFlagsRequest := by
  intro r hi lo s h hp
  refine ⟨_, exec_clearFlags_taken h hp, ?frame, fun f => ⟨?selected, rfl, flagTable_getElem?_number f⟩⟩
  case frame => rw [State.setReq_flags, ← clearFlags_touches]
  case selected => exact hasFlag_clearFlags (hi ++ lo) (received s) f

end Sys2Proof.Machine

/-! SUPPORT and O16. TACH_PULSE: its command runs `tachPulse` in RUN alone, and the role decides whether it acts (R100). -/

namespace Sys2Proof.Machine

theorem exec_tachPulse (forward : Bool) (s : State) : exec (.tachPulse forward) s = inRun (tachPulse forward) s := rfl

/-- On a deck the held position moves by the modular sum and the field pulse count stays within its range (R12, R100). -/
theorem tachPulse_of_deck (forward : Bool) {s : State} (h : isDeck s = true) :
    tachPulse forward s
      = s.setPos
          { s.pos with
            held := modSum (std s) s.pos.held (if forward then 32 else -32)
            pulses := clampInt (-32768) 32767 (s.pos.pulses + (if forward then 1 else -1)) } := by
  rw [tachPulse, if_pos h, holdPulses]

/-- On a LIVE station TACH and TDIR have no effect (R100, R109). -/
theorem tachPulse_of_live (forward : Bool) {s : State} (h : isDeck s = false) : tachPulse forward s = s := by
  simp [tachPulse, h]

/-- Settles O16: HOLD does not take the pulse; in RUN the command is `tachPulse`, read off for a deck and for LIVE. -/
theorem tachPulseMovesHeldPosition : Obligations.TachPulseMovesHeldPosition := by
  refine ⟨fun forward s hhold => ?hold, fun forward s hrun => ⟨fun hdeck => ?deck, fun hlive => ?live⟩⟩
  case hold => rw [exec_tachPulse, inRun_of_hold _ hhold]
  case deck => rw [exec_tachPulse, inRun_of_running _ hrun, tachPulse_of_deck forward hdeck]
  case live => rw [exec_tachPulse, inRun_of_running _ hrun, tachPulse_of_live forward hlive]

end Sys2Proof.Machine

/-! SUPPORT and O34. CUE DROP, CUE CLEAR: the outcome of the checks, one equation for each state of the named cue, and
the judgement that each outcome gives. -/

namespace Sys2Proof.Machine

/-! ### The checks of CUE DROP -/

/-- The checks read the cue list, which the receiver does not touch. -/
@[simp] theorem received_dropRefusal (tag : Byte) (s : State) :
    dropRefusal tag (received s) = dropRefusal tag s := rfl

/-- A WAITING or finished cue passes the checks (R137). -/
theorem dropRefusal_of_not_active {tag : Byte} {c : Cue} {s : State} (hc : findCue tag s = some c)
    (ha : c.state ≠ .active) : dropRefusal tag s = none := by simp [dropRefusal, hc, ha]

/-- An ACTIVE cue fails the STATE check (R137). -/
theorem dropRefusal_of_active {tag : Byte} {c : Cue} {s : State} (hc : findCue tag s = some c)
    (ha : c.state = .active) : dropRefusal tag s = some .refusedState := by simp [dropRefusal, hc, ha]

/-- A tag that no cue holds fails the TAG check (R137). -/
theorem dropRefusal_of_absent {tag : Byte} {s : State} (hc : findCue tag s = none) :
    dropRefusal tag s = some .refusedTag := by simp [dropRefusal, hc]

/-! ### The judgements -/

/-- The one parameter character of CUE DROP is its tag (Table 12.4). -/
theorem judgeCueDrop_one {r : Request} {tag : Byte} (hp : r.params = [tag]) (s : State) :
    judgeCueDrop r s = answer (dropRefusal tag s) .ok (fun t => setList (removeTag tag t.cues.list) t) s := by
  have htag : tagParam r = tag := by rw [tagParam, hp]; rfl
  rw [judgeCueDrop, withLength_ok _ (by rw [hp]; rfl), htag]

theorem judgeCueClear_empty {r : Request} (hp : r.params = []) : judgeCueClear r = answer none .ok clearCues := by
  rw [judgeCueClear, withLength_ok _ (by rw [hp]; rfl)]

/-- A refused judgement changes the request record alone (R67, R70). -/
theorem record_answer_refused {r : Request} {x result : ReqResult} {effect : State → State} {s : State} :
    record r.tag (answer (some x) result effect (received s)) = (received s).setReq (requestRecord r x s) := rfl

/-! ### The requests -/

/-- CUE DROP that passes its checks removes the cue of its tag and nothing else. -/
theorem exec_cueDrop_accepted {r : Request} {tag : Byte} {s : State} (h : Taken r s) (hp : r.params = [tag])
    (hd : dropRefusal tag s = none) :
    exec (.cueDrop r) s
      = .next ((setList (removeTag tag s.cues.list) (received s)).setReq (requestRecord r .ok s)) :=
  calc exec (.cueDrop r) s
      _ = inRun (takeRequest r (judgeCueDrop r)) s := rfl
      _ = .next (record r.tag (answer none .ok (fun t => setList (removeTag tag t.cues.list) t) (received s))) := by
        rw [inRun_takeRequest_taken h, judgeCueDrop_one hp, received_dropRefusal, hd]
      _ = .next ((setList (removeTag tag s.cues.list) (received s)).setReq (requestRecord r .ok s)) := by
        rw [record_answer_ok rfl, received_cues]

/-- CUE DROP that fails a check is recorded with that check's result. -/
theorem exec_cueDrop_refused {r : Request} {tag : Byte} {x : ReqResult} {s : State} (h : Taken r s)
    (hp : r.params = [tag]) (hd : dropRefusal tag s = some x) :
    exec (.cueDrop r) s = .next ((received s).setReq (requestRecord r x s)) :=
  calc exec (.cueDrop r) s
      _ = inRun (takeRequest r (judgeCueDrop r)) s := rfl
      _ = .next ((received s).setReq (requestRecord r x s)) := by
        rw [inRun_takeRequest_taken h, judgeCueDrop_one hp, received_dropRefusal, hd, record_answer_refused]

theorem exec_cueClear_taken {r : Request} {s : State} (h : Taken r s) (hp : r.params = []) :
    exec (.cueClear r) s = .next ((clearCues (received s)).setReq (requestRecord r .ok s)) :=
  calc exec (.cueClear r) s
      _ = inRun (takeRequest r (judgeCueClear r)) s := rfl
      _ = .next ((clearCues (received s)).setReq (requestRecord r .ok s)) := by
        rw [inRun_takeRequest_taken h, judgeCueClear_empty hp, record_answer_ok rfl]

/-- Settles O34: the named cue is WAITING or finished, ACTIVE, or absent, and each case has its outcome of the checks;
`removeTag` and `clearCues` are the two filters. -/
theorem cueDropAndClearRequests : Obligations.CueDropAndClearRequests := by
  intro r s h
  refine ⟨fun tag c hp hc => ⟨fun ha => ?removable, fun ha => ?active⟩, fun tag hp hc => ?absent, fun hp => ?clear⟩
  case removable => exact exec_cueDrop_accepted h hp (dropRefusal_of_not_active hc ha)
  case active => exact exec_cueDrop_refused h hp (dropRefusal_of_active hc ha)
  case absent => exact exec_cueDrop_refused h hp (dropRefusal_of_absent hc)
  case clear => exact exec_cueClear_taken h hp

end Sys2Proof.Machine

/-! SUPPORT. The changes of `Move` sorted by the part of the station they write, so that an invariant looks only at the
parts it reads; and what a step keeps when every change keeps it. -/

namespace Sys2Proof.Machine

-- Here and below: one theorem after another, since the threads of many at once pass the check's limit of memory.
set_option Elab.async false

/-! ### Frames -/

/-- The parts of the station. `transport` is the Transport Controller but for the record lines, `lines` those; `cues` is the
list, `samples` the clock samples; `inputs` and `outputs` are the GPI Unit's. -/
inductive Part
  | power | straps | pins | time | pos | peers | req | link | transport | lines | chase | cues | samples | fader | mix
  | inputs | outputs | marks | flags | choices | pending
  deriving DecidableEq

/-- A part is the same in two states. -/
def Part.Same (s t : State) : Part → Prop
  | .power => t.power = s.power
  | .straps => t.straps = s.straps
  | .pins => t.pins = s.pins
  | .time => t.time = s.time
  | .pos => t.pos = s.pos
  | .peers => t.peers = s.peers
  | .req => t.req = s.req
  | .link => t.link = s.link
  | .transport => t.tr = { s.tr with punch := t.tr.punch }
  | .lines => t.tr.punch = s.tr.punch
  | .chase => t.chase = s.chase
  | .cues => t.cues.list = s.cues.list
  | .samples => t.cues.ownSample = s.cues.ownSample ∧ t.cues.leadSample = s.cues.leadSample
  | .fader => t.fader = s.fader
  | .mix => t.mix = s.mix
  | .inputs => t.gpi.inputs = s.gpi.inputs
  | .outputs => t.gpi.outputs = s.gpi.outputs
  | .marks => t.marks = s.marks
  | .flags => t.flags = s.flags
  | .choices => t.choices = s.choices
  | .pending => t.pending = s.pending

/-- Every part but the written ones is the same. -/
def Frame (written : List Part) (s t : State) : Prop := ∀ p, p ∉ written → Part.Same s t p

theorem Frame.same {written : List Part} {s t : State} (h : Frame written s t) (p : Part)
    (hp : p ∉ written := by simp) : Part.Same s t p := h p hp

theorem Part.Same.trans {s t u : State} {p : Part} (h : Part.Same s t p) (k : Part.Same t u p) : Part.Same s u p := by
  cases p
  case transport => unfold Part.Same at *; rw [k, h]
  case samples => exact ⟨k.1.trans h.1, k.2.trans h.2⟩
  all_goals exact Eq.trans k h

theorem Frame.refl {written : List Part} (s : State) : Frame written s s := by
  intro p _; cases p
  case samples => exact ⟨rfl, rfl⟩
  all_goals rfl

theorem Frame.trans {w x : List Part} {s t u : State} (h : Frame w s t) (k : Frame x t u) : Frame (w ++ x) s u :=
  fun p hp => (h p fun q => hp (List.mem_append_left x q)).trans (k p fun q => hp (List.mem_append_right w q))

theorem Frame.mono {w x : List Part} {s t : State} (h : Frame w s t) (sub : w ⊆ x := by simp) : Frame x s t :=
  fun p hp => h p fun q => hp (sub q)

/-- The whole Transport Controller is the same when its lines and the rest of it are. -/
theorem Frame.tr {w : List Part} {s t : State} (h : Frame w s t) (ht : Part.transport ∉ w := by simp)
    (hl : Part.lines ∉ w := by simp) : t.tr = s.tr := by
  have a : t.tr = { s.tr with punch := t.tr.punch } := h _ ht
  have b : t.tr.punch = s.tr.punch := h _ hl
  rw [a, b]

theorem Frame.std {w : List Part} {s t : State} (h : Frame w s t) (hw : Part.straps ∉ w := by simp) :
    Machine.std t = Machine.std s := by unfold Machine.std; rw [show t.straps = s.straps from h _ hw]

theorem Frame.role {w : List Part} {s t : State} (h : Frame w s t) (hw : Part.straps ∉ w := by simp) :
    Machine.role t = Machine.role s := by unfold Machine.role; rw [show t.straps = s.straps from h _ hw]

theorem setPower_frame (s : State) (x : Power) : Frame [.power] s (s.setPower x) := by
  intro p hp; cases p <;> simp [Part.Same] at hp ⊢

theorem setPins_frame (s : State) (x : Pins) : Frame [.pins] s (s.setPins x) := by
  intro p hp; cases p <;> simp [Part.Same] at hp ⊢

theorem setTime_frame (s : State) (x : Timebase) : Frame [.time] s (s.setTime x) := by
  intro p hp; cases p <;> simp [Part.Same] at hp ⊢

theorem setPos_frame (s : State) (x : Position) : Frame [.pos] s (s.setPos x) := by
  intro p hp; cases p <;> simp [Part.Same] at hp ⊢

theorem setPeers_frame (s : State) (x : Vector PeerEntry 16) : Frame [.peers] s (s.setPeers x) := by
  intro p hp; cases p <;> simp [Part.Same] at hp ⊢

theorem setReq_frame (s : State) (x : RequestUnit) : Frame [.req] s (s.setReq x) := by
  intro p hp; cases p <;> simp [Part.Same] at hp ⊢

theorem setLink_frame (s : State) (x : Link) : Frame [.link] s (s.setLink x) := by
  intro p hp; cases p <;> simp [Part.Same] at hp ⊢

theorem setChase_frame (s : State) (x : Chase) : Frame [.chase] s (s.setChase x) := by
  intro p hp; cases p <;> simp [Part.Same] at hp ⊢

theorem setFader_frame (s : State) (x : Fader) : Frame [.fader] s (s.setFader x) := by
  intro p hp; cases p <;> simp [Part.Same] at hp ⊢

theorem setMix_frame (s : State) (x : Mix) : Frame [.mix] s (s.setMix x) := by
  intro p hp; cases p <;> simp [Part.Same] at hp ⊢

theorem setMarks_frame (s : State) (x : List Mark) : Frame [.marks] s (s.setMarks x) := by
  intro p hp; cases p <;> simp [Part.Same] at hp ⊢

theorem setFlags_frame (s : State) (x : BitVec 13) : Frame [.flags] s (s.setFlags x) := by
  intro p hp; cases p <;> simp [Part.Same] at hp ⊢

theorem setChoices_frame (s : State) (x : Nat) : Frame [.choices] s (s.setChoices x) := by
  intro p hp; cases p <;> simp [Part.Same] at hp ⊢

theorem setPending_frame (s : State) (x : List Instr) : Frame [.pending] s (s.setPending x) := by
  intro p hp; cases p <;> simp [Part.Same] at hp ⊢

theorem setTr_frame (s : State) (x : Transport) : Frame [.transport, .lines] s (s.setTr x) := by
  intro p hp; cases p <;> simp [Part.Same] at hp ⊢

theorem setPunch_frame (s : State) (x : Option Punch) : Frame [.lines] s (s.setTr { s.tr with punch := x }) := by
  intro p hp; cases p <;> simp [Part.Same] at hp ⊢

theorem setTransport_frame (s : State) (x : Transport) (h : x.punch = s.tr.punch) :
    Frame [.transport] s (s.setTr x) := by
  intro p hp; cases p <;> simp [Part.Same, h] at hp ⊢

theorem setCues_frame (s : State) (x : CueEngine) : Frame [.cues, .samples] s (s.setCues x) := by
  intro p hp; cases p <;> simp [Part.Same] at hp ⊢

theorem setCueList_frame (s : State) (x : List Cue) : Frame [.cues] s (s.setCues { s.cues with list := x }) := by
  intro p hp; cases p <;> simp [Part.Same] at hp ⊢

theorem setSamples_frame (s : State) (a b : Option Nat) :
    Frame [.samples] s (s.setCues { s.cues with ownSample := a, leadSample := b }) := by
  intro p hp; cases p <;> simp [Part.Same] at hp ⊢

theorem setGpi_frame (s : State) (x : Gpi) : Frame [.inputs, .outputs] s (s.setGpi x) := by
  intro p hp; cases p <;> simp [Part.Same] at hp ⊢

theorem setFlag_frame (f : Flag) (s : State) : Frame [.flags] s (setFlag f s) := setFlags_frame s _

theorem updateCues_frame (pick : Cue → Bool) (f : Cue → Cue) (s : State) : Frame [.cues] s (updateCues pick f s) :=
  setCueList_frame s _

theorem abortActiveRecord_frame (s : State) : Frame [.cues, .flags] s (abortActiveRecord s) := by
  unfold abortActiveRecord; split
  · exact (updateCues_frame _ _ s).trans (setFlag_frame _ _)
  · exact Frame.refl s

/-! ### The groups -/

/-- The changes of the Position Unit. -/
inductive PosMove : State → State → Prop
  | tach (s : State) (forward : Bool) : PosMove s (tachPulse forward s)
  | word (s : State) (label : Label) (backward : Bool) : PosMove s (timecodeWord label backward s)
  | candidate (s : State) : PosMove s (expireCandidate s)
  | silence (s : State) : PosMove s (expireSilence s)
  | publish (s : State) : PosMove s (positionBoundary s)
  | virtual (s : State) : PosMove s (setVirtual s)

/-- The changes of the Transport Controller that leave the chase as it is. -/
inductive TransportMove : State → State → Prop
  | command (s : State) (c : Command) (h : CommandSound c) : TransportMove s (takeCommand c s)
  | locate (s : State) (skips : Option Word16) (target : Nat) (h : FrameKnown s target) :
      TransportMove s (giveLocate skips target s)
  | locateGoesOn (s : State) (l m : Locate) (h : s.tr.locate = some l) (ht : m.target = l.target)
      (hd : CommandSound l.drive → CommandSound m.drive) : TransportMove s (s.setTr { s.tr with locate := some m })
  | countServo (s : State) : TransportMove s (countServo s)
  | countTally (s : State) : TransportMove s (countTally s)
  | tallyExpiry (s : State) : TransportMove s (tallyExpiry s)
  | speedWord (s : State) : TransportMove s (sendSpeedWord s)
  | arm (s : State) (x : Tracks) (h : activeRecord s = none) : TransportMove s (setArmed x s)

/-- The ends of a locate. -/
inductive LocateEnd : State → State → Prop
  | success (s : State) (l : Locate) (h : s.tr.locate = some l) : LocateEnd s (locateSucceed l s)
  | failure (s : State) (l : Locate) (h : s.tr.locate = some l) : LocateEnd s (locateFail l s)

/-- The changes of the cue list and of the record lines with it. -/
inductive CueMove : State → State → Prop
  | fireRecord (s : State) (tag : Byte) (tracks : Tracks) (length : Nat) (hr : Running s)
      (h : ∃ c ∈ s.cues.list, c.tag = tag ∧ c.state = .waiting ∧ c.action = .record tracks length) :
      CueMove s (fireRecord tag tracks length s)
  | activate (s : State) (tag : Byte)
      (h : ∃ c ∈ s.cues.list, c.tag = tag ∧ c.state = .waiting ∧ c.isTransition = true) : CueMove s (activate tag 0 s)
  | finishWaiting (s : State) (tag : Byte) (state : CueState) (h : state = .done ∨ state = .aborted) :
      CueMove s (finishWaiting tag state s)
  | touchCues (s : State) (pick : Cue → Bool) (f : Cue → Cue) (h : ∀ c, SameCue c (f c)) :
      CueMove s (updateCues pick f s)
  | recordLengthEnd (s : State) : CueMove s (recordLengthEnd s)
  | notReadyLimit (s : State) : CueMove s (notReadyLimit s)
  | loadCue (s : State) (bs : List Byte) (c : Coerced Cue) (hc : readCue (std s) bs = some c)
      (h : loadRefusal c.value s = none) : CueMove s (loadCue c.value s)
  | dropCue (s : State) (tag : Byte) (c : Cue) (hc : findCue tag s = some c) (ha : c.state ≠ .active) :
      CueMove s (setList (removeTag tag s.cues.list) s)
  | keepCues (s : State) (keep : Cue → Bool) (h : ∀ c ∈ s.cues.list, c.state = .active → keep c = true) :
      CueMove s (setList (s.cues.list.filter keep) s)

/-- The changes of the Source Fader. -/
inductive FaderMove : State → State → Prop
  | boundary (s : State) : FaderMove s (faderBoundary s)
  | startContext (s : State) (tag : Byte) (hard : Bool) (p : TransParams)
      (h : ParamsSound p ∨ ∃ c ∈ s.cues.list, c.action = .transition p) : FaderMove s (startContext tag hard p s)
  | completeContext (s : State) : FaderMove s (completeContext s)
  | cutContext (s : State) : FaderMove s (cutContext s)
  | zeroFader (s : State) : FaderMove s (s.setFader { s.fader with level := 0, gain := audioGain s.fader.law 0 })

/-- The changes of the Chase Servo. -/
inductive ChaseMove : State → State → Prop
  | servo (s : State) (x : Chase) (h : ChaseStep s x) : ChaseMove s (s.setChase x)
  | loseLock (s : State) : ChaseMove s (loseLock s)
  | freeChase (s : State) : ChaseMove s (freeChase s)
  | startChase (s : State) (lead : Station) (offset : Nat) (hl : lead ≠ own s) (ho : offset < (std s).fpd) :
      ChaseMove s (startChase lead offset s)

/-- The changes of the Mark Stack. -/
inductive MarkMove : State → State → Prop
  | push (s : State) (origin : Origin) : MarkMove s (pushMark origin s)
  | pop (s : State) : MarkMove s (popMark s)
  | clear (s : State) : MarkMove s (s.setMarks [])

/-- The groups of the changes. -/
inductive Sorted : State → State → Prop
  | side {s t : State} (h : Frame [.choices, .mix, .req, .inputs, .outputs, .flags, .samples] s t) : Sorted s t
  | peers (s : State) (x : Vector PeerEntry 16)
      (h : ∀ st : Station, EntryFrameSound (std s) s.peers[st] → EntryFrameSound (std s) x[st]) :
      Sorted s (s.setPeers x)
  | time (s : State) (x : Timebase)
      (h : s.chase.state = .locked → s.time.refState = .present → x.refState = .present)
      (hs : TimebaseSound s → TimebaseSound (s.setTime x)) : Sorted s (s.setTime x)
  | link {s t : State} (h : LinkOnly s t) : Sorted s t
  | power {c : Instr} {s t : State} (hc : isPowerCommand c = true) (h : exec c s = .next t) : Sorted s t
  | deckLine {c : Instr} {s t : State} (hc : isDeckLine c = true) (h : exec c s = .next t) : Sorted s t
  | pos {s t : State} (h : PosMove s t) : Sorted s t
  | transport {s t : State} (h : TransportMove s t) : Sorted s t
  | locateEnd {s t : State} (h : LocateEnd s t) : Sorted s t
  | locateMark (s : State) (m : Mark) (rest : List Mark) (h : s.marks = m :: rest) :
      Sorted s (takeLocate m.frame (popMark s))
  | cue {s t : State} (h : CueMove s t) : Sorted s t
  | abort (s : State) : Sorted s (abortActive s)
  | fader {s t : State} (h : FaderMove s t) : Sorted s t
  | chase {s t : State} (h : ChaseMove s t) : Sorted s t
  | marks {s t : State} (h : MarkMove s t) : Sorted s t

theorem Move.sorted {s t : State} (m : Move s t) : Sorted s t := by
  cases m with
  | choices => exact .side (setChoices_frame s _).mono
  | mix => exact .side (setMix_frame s _).mono
  | req => exact .side (setReq_frame s _).mono
  | gpi => exact .side (setGpi_frame s _).mono
  | flags => exact .side (setFlags_frame s _).mono
  | samples => exact .side (setSamples_frame s _ _).mono
  | peers _ x h => exact .peers s x h
  | time _ x h hs => exact .time s x h hs
  | link h => exact .link h
  | power hc h => exact .power hc h
  | deckLine hc h => exact .deckLine hc h
  | tach _ forward => exact .pos (.tach s forward)
  | word _ label backward => exact .pos (.word s label backward)
  | candidate => exact .pos (.candidate s)
  | silence => exact .pos (.silence s)
  | publish => exact .pos (.publish s)
  | virtual => exact .pos (.virtual s)
  | command _ c h => exact .transport (.command s c h)
  | locate _ skips target h => exact .transport (.locate s skips target h)
  | locateMark _ m rest h => exact .locateMark s m rest h
  | locateSucceed _ l h => exact .locateEnd (.success s l h)
  | locateFail _ l h => exact .locateEnd (.failure s l h)
  | locateGoesOn _ l m h ht hd => exact .transport (.locateGoesOn s l m h ht hd)
  | countServo => exact .transport (.countServo s)
  | countTally => exact .transport (.countTally s)
  | tallyExpiry => exact .transport (.tallyExpiry s)
  | speedWord => exact .transport (.speedWord s)
  | arm _ x h => exact .transport (.arm s x h)
  | chase _ x h => exact .chase (.servo s x h)
  | loseLock => exact .chase (.loseLock s)
  | freeChase => exact .chase (.freeChase s)
  | startChase _ lead offset hl ho => exact .chase (.startChase s lead offset hl ho)
  | pushMark _ origin => exact .marks (.push s origin)
  | popMark => exact .marks (.pop s)
  | clearMarks => exact .marks (.clear s)
  | fader => exact .fader (.boundary s)
  | startContext _ tag hard p h => exact .fader (.startContext s tag hard p h)
  | completeContext => exact .fader (.completeContext s)
  | cutContext => exact .fader (.cutContext s)
  | zeroFader => exact .fader (.zeroFader s)
  | fireRecord _ tag tracks length hr h => exact .cue (.fireRecord s tag tracks length hr h)
  | activate _ tag h => exact .cue (.activate s tag h)
  | finishWaiting _ tag state h => exact .cue (.finishWaiting s tag state h)
  | touchCues _ pick f h => exact .cue (.touchCues s pick f h)
  | recordLengthEnd => exact .cue (.recordLengthEnd s)
  | notReadyLimit => exact .cue (.notReadyLimit s)
  | abortActive => exact .abort s
  | loadCue _ bs c hc h => exact .cue (.loadCue s bs c hc h)
  | dropCue _ tag c hc ha => exact .cue (.dropCue s tag c hc ha)
  | keepCues _ keep h => exact .cue (.keepCues s keep h)

/-! ### What each group can write -/

theorem judgeWord_frame (c : Nat) (backward : Bool) (s : State) : Frame [.pos, .flags] s (judgeWord c backward s) := by
  unfold judgeWord; dsimp only; split
  · exact (setPos_frame s _).mono
  · exact (setPos_frame s _).mono

theorem jamTo_frame (x : Nat) (s : State) : Frame [.pos, .flags] s (jamTo x s) := by
  unfold jamTo jumpFlag; split
  · exact (setPos_frame s _).trans (setFlag_frame _ _)
  · exact (setPos_frame s _).mono

theorem takeWord_frame (c : Nat) (backward : Bool) (s : State) : Frame [.pos, .flags] s (takeWord c backward s) := by
  unfold takeWord
  split
  · exact judgeWord_frame c backward s
  · split
    · exact jamTo_frame _ s
    · exact (((setPos_frame s _).trans (setPos_frame _ _)).trans (judgeWord_frame c backward _)).mono

theorem PosMove.frame {s t : State} (m : PosMove s t) : Frame [.pos, .flags] s t := by
  cases m with
  | tach forward =>
    unfold tachPulse; split
    · exact (setPos_frame s _).mono
    · exact Frame.refl s
  | word label backward =>
    unfold timecodeWord
    split
    · split
      · exact takeWord_frame _ _ s
      · exact (setPos_frame s _).mono
    · exact Frame.refl s
  | candidate =>
    unfold expireCandidate
    split
    · split
      · exact ((setPos_frame s _).trans (setPos_frame _ _)).mono
      · exact Frame.refl s
    · exact Frame.refl s
  | silence =>
    unfold expireSilence; split
    · exact (setPos_frame s _).mono
    · exact Frame.refl s
  | publish => obtain ⟨a, h⟩ := positionBoundary_touches s; rw [h]; exact (setPos_frame s _).mono
  | virtual => obtain ⟨a, h⟩ := setVirtual_touches s; rw [h]; exact (setPos_frame s _).mono

theorem breakRecord_frame (s : State) : Frame [.lines, .cues, .flags] s (breakRecord s) := by
  unfold breakRecord
  split
  · exact ((setPunch_frame s _).trans (abortActiveRecord_frame _)).mono
  · exact Frame.refl s

theorem takeCommand_frame (c : Command) (s : State) :
    Frame [.transport, .lines, .cues, .flags] s (takeCommand c s) := by
  unfold takeCommand
  split
  · exact ((setTr_frame s _).trans (breakRecord_frame _)).mono
  · exact Frame.refl s

theorem giveLocate_frame (skips : Option Word16) (target : Nat) (s : State) :
    Frame [.transport, .lines, .cues, .flags] s (giveLocate skips target s) := by
  unfold giveLocate
  split
  · split
    · exact (setTr_frame s _).mono
    · exact ((setTr_frame s _).trans (breakRecord_frame _)).mono
  · exact Frame.refl s

theorem tallyExpiry_frame (s : State) : Frame [.transport, .lines, .flags] s (tallyExpiry s) := by
  unfold tallyExpiry
  split
  · split
    · exact (setTr_frame s _).trans (setFlag_frame _ _)
    · exact Frame.refl s
  · exact Frame.refl s

theorem sendSpeedWord_frame (s : State) : Frame [.transport, .lines] s (sendSpeedWord s) := by
  unfold sendSpeedWord; split
  · exact setTr_frame s _
  · exact setTr_frame s _

theorem TransportMove.frame {s t : State} (m : TransportMove s t) :
    Frame [.transport, .lines, .cues, .flags] s t := by
  cases m with
  | command c h => exact takeCommand_frame c s
  | locate skips target h => exact giveLocate_frame skips target s
  | tallyExpiry => exact (tallyExpiry_frame s).mono
  | speedWord => exact (sendSpeedWord_frame s).mono
  | locateGoesOn | countServo | countTally | arm => exact (setTr_frame s _).mono

theorem noteParkEnd_frame (target : Nat) (s : State) : Frame [.chase] s (noteParkEnd target s) := by
  unfold noteParkEnd; split
  · exact setChase_frame s _
  · exact Frame.refl s

theorem locateSucceed_frame (l : Locate) (s : State) : Frame [.transport, .chase] s (locateSucceed l s) :=
  (setTransport_frame s { s.tr with command := .stop, locate := none, parkedMark := true } rfl).trans
    (noteParkEnd_frame _ _)

theorem locateFail_frame (l : Locate) (s : State) : Frame [.transport, .chase, .flags] s (locateFail l s) :=
  ((setTransport_frame s { s.tr with command := .stop, locate := none, parkedMark := false } rfl).trans
    (noteParkEnd_frame _ _)).trans (setFlag_frame _ _)

theorem LocateEnd.frame {s t : State} (m : LocateEnd s t) : Frame [.transport, .chase, .flags] s t := by
  cases m with
  | success l => exact (locateSucceed_frame l s).mono
  | failure l => exact locateFail_frame l s

theorem FaderMove.frame {s t : State} (m : FaderMove s t) : Frame [.fader, .cues, .flags, .mix] s t := by
  cases m with
  | boundary =>
    obtain ⟨a, cs, b, m, h, -⟩ := faderBoundary_touches s
    rw [h]
    exact (((setFader_frame s _).trans (setCueList_frame _ _)).trans (setFlags_frame _ _)).trans (setMix_frame _ _)
  | startContext tag hard p =>
    obtain ⟨a, cs, m, h⟩ := startContext_touches tag hard p s
    rw [h]
    exact (((setFader_frame s _).trans (setCueList_frame _ _)).trans (setMix_frame _ _)).mono
  | completeContext =>
    obtain ⟨a, cs, h⟩ := completeContext_touches s
    rw [h]; exact ((setFader_frame s _).trans (setCueList_frame _ _)).mono
  | cutContext => obtain ⟨a, h⟩ := cutContext_touches s; rw [h]; exact (setFader_frame s _).mono
  | zeroFader => exact (setFader_frame s _).mono

theorem loseLock_frame (s : State) : Frame [.chase] s (loseLock s) := by
  unfold loseLock; split
  · exact setChase_frame s _
  · exact Frame.refl s

theorem ChaseMove.frame {s t : State} (m : ChaseMove s t) : Frame [.chase] s t := by
  cases m with
  | loseLock => exact loseLock_frame s
  | servo | startChase => exact setChase_frame s _
  | freeChase => exact ((setChase_frame s (s.chase.freed (own s))).trans (setChase_frame _ _)).mono

theorem MarkMove.frame {s t : State} (m : MarkMove s t) : Frame [.marks, .flags] s t := by
  cases m with
  | push origin =>
    obtain ⟨a, b, h⟩ := pushMark_touches origin s
    rw [h]; exact (setMarks_frame s _).trans (setFlags_frame _ _)
  | pop | clear => exact (setMarks_frame s _).mono

theorem punchIn_frame (tracks : Tracks) (s : State) : Frame [.lines] s (punchIn tracks s) := by
  unfold punchIn; split
  · exact setPunch_frame s _
  · exact setPunch_frame s _
  · exact Frame.refl s

theorem answerPunch_frame (tag : Byte) (a : PunchAnswer) (s : State) :
    Frame [.cues, .flags] s (answerPunch tag a s) := by
  unfold answerPunch; split
  · exact Frame.refl s
  · exact (updateCues_frame _ _ s).mono
  · exact (updateCues_frame _ _ s).trans (setFlag_frame _ _)

theorem fireRecord_frame (tag : Byte) (tracks : Tracks) (length : Nat) (s : State) :
    Frame [.lines, .cues, .flags] s (fireRecord tag tracks length s) :=
  ((((updateCues_frame _ _ s).trans (updateCues_frame _ _ _)).trans (punchIn_frame _ _)).trans
    (answerPunch_frame _ _ _)).mono

theorem recordLengthEnd_frame (s : State) : Frame [.lines, .cues] s (recordLengthEnd s) := by
  unfold recordLengthEnd
  split
  · split
    · exact ((updateCues_frame _ _ s).trans (setPunch_frame _ _)).mono
    · exact Frame.refl s
  · exact Frame.refl s

theorem notReadyLimit_frame (s : State) : Frame [.lines, .cues, .flags] s (notReadyLimit s) := by
  unfold notReadyLimit
  split
  · split
    · split
      · exact ((abortActiveRecord_frame s).trans (setPunch_frame _ _)).mono
      · exact ((updateCues_frame _ _ s).trans (setFlag_frame _ _)).mono
    · exact Frame.refl s
  · exact Frame.refl s

theorem CueMove.frame {s t : State} (m : CueMove s t) : Frame [.lines, .cues, .flags] s t := by
  cases m with
  | fireRecord tag tracks length => exact fireRecord_frame tag tracks length s
  | recordLengthEnd => exact (recordLengthEnd_frame s).mono
  | notReadyLimit => exact notReadyLimit_frame s
  | activate | finishWaiting | touchCues => exact (updateCues_frame _ _ s).mono
  | loadCue | dropCue | keepCues => exact (setCueList_frame s _).mono

theorem cutContext_frame (s : State) : Frame [.fader] s (cutContext s) := by
  obtain ⟨a, h⟩ := cutContext_touches s; rw [h]; exact setFader_frame s _

/-- ABORT cuts the fader beside what it does to the record lines and the cues (R139). -/
theorem abortActive_frame (s : State) : Frame [.fader, .lines, .cues, .flags] s (abortActive s) := by
  unfold abortActive
  split
  · dsimp only
    split
    · exact (((cutContext_frame s).trans (setPunch_frame _ _)).trans (updateCues_frame _ _ _)).trans
        (setFlag_frame _ _)
    · exact (((setPunch_frame s _).trans (updateCues_frame _ _ _)).trans (setFlag_frame _ _)).mono
  · exact Frame.refl s

theorem LinkOnly.frame {s t : State} (h : LinkOnly s t) : Frame [.link, .flags] s t := by
  rw [h.same]; exact (setLink_frame s _).trans (setFlags_frame _ _)

/-! ### The supply -/

/-- The full reset of every block with some straps. -/
def BlocksReset (s t : State) : Prop := ∃ straps x, t = (resetBlocks straps s).setPower x

/-- A command of the supply moves its timers and the pin alone, or resets every block (R19 to R21). -/
theorem power_cases {c : Instr} {s t : State} (hc : isPowerCommand c = true) (h : exec c s = .next t) :
    (∃ x : Power, t = s.setPower x ∧ x.supervisor = s.power.supervisor) ∨ BlocksReset s t := by
  cases c <;> try cases hc
  case powerUp => cases h; exact .inr ⟨_, _, rfl⟩
  case brownout =>
    cases h; unfold brownout; split
    · exact .inr ⟨_, _, rfl⟩
    · exact .inl ⟨_, rfl, rfl⟩
  case resetPinLow =>
    cases h; unfold resetPinLow; split
    · exact .inr ⟨_, _, rfl⟩
    · exact .inl ⟨_, rfl, rfl⟩
  case supplyRecovery straps =>
    cases h
    cases straps with
    | none =>
      unfold supplyRecovery supplySags; dsimp only; split
      · exact .inl ⟨_, rfl, rfl⟩
      · exact .inl ⟨_, rfl, rfl⟩
    | some p =>
      unfold supplyRecovery supplyRecovers; dsimp only; split
      · exact .inl ⟨_, rfl, rfl⟩
      · split
        · exact .inr ⟨p, _, rfl⟩
        · exact .inl ⟨_, rfl, rfl⟩
  case resetPinRelease straps =>
    cases h; unfold resetPinRelease; split
    · exact .inr ⟨straps, _, rfl⟩
    · exact .inl ⟨_, rfl, rfl⟩

/-! ### Steps -/

/-- What every change keeps, and the queue does not bear on, every step keeps. -/
theorem step_keeps {P : State → Prop} (hq : ∀ s q, P s → P (s.setPending q)) (hm : ∀ s t, P s → Move s t → P t)
    {s t : State} (hs : P s) (h : step s = .next t) : P t := by
  unfold step at h
  split at h
  · cases h; exact hs
  · exact Moves.keeps hm (hq s _ hs) (exec_moves h)

end Sys2Proof.Machine

/-! SUPPORT. What a change leaves of each field: the straps, the timebase, the chase, the marks and the position. -/

namespace Sys2Proof.Machine

set_option Elab.async false

/-! ### The deck's lines -/

theorem dropDeck_frame (s : State) : Frame [.transport, .lines, .cues, .flags] s (dropDeck s) :=
  ((setTr_frame s { s.tr with command := .stop, parkedMark := false, locate := none }).trans (breakRecord_frame _)).mono

theorem failLocate_frame (s : State) : Frame [.transport, .chase, .flags] s (failLocate s) := by
  unfold failLocate; split
  · exact locateFail_frame _ s
  · exact Frame.refl s

theorem quietPort_frame (s : State) : Frame [.transport] s (quietPort s) := by
  unfold quietPort; split
  · exact Frame.refl s
  · exact setTransport_frame s _ rfl

/-- What the controller and the Position Unit write at a deck line, beside its level. -/
abbrev deckParts : List Part := [.transport, .lines, .chase, .cues, .flags, .pos]

theorem threadedTaken_frame (level : Bool) (s : State) : Frame deckParts s (threadedTaken level s) := by
  unfold threadedTaken; split
  · exact ((setTransport_frame s { s.tr with command := .stop } rfl).trans (quietPort_frame _)).mono
  · exact (((failLocate_frame s).trans (dropDeck_frame _)).trans (setPos_frame _ _)).mono

theorem localTaken_frame (level : Bool) (s : State) : Frame deckParts s (localTaken level s) := by
  unfold localTaken; split
  · exact ((dropDeck_frame s).trans (quietPort_frame _)).mono
  · exact (setTransport_frame s { s.tr with command := .stop } rfl).mono

theorem threadedChange_frame (level : Bool) (s : State) : Frame (.pins :: deckParts) s (threadedChange level s) := by
  unfold threadedChange; dsimp only; split
  · exact ((setPins_frame s _).trans (threadedTaken_frame level _)).mono
  · exact (setPins_frame s _).mono

theorem threadedChange_pins (level : Bool) (s : State) :
    (threadedChange level s).pins = { s.pins with threaded := level } := by
  unfold threadedChange; dsimp only; split
  · exact (threadedTaken_frame level _).same .pins
  · rfl

theorem localChange_frame (level : Bool) (s : State) : Frame (.pins :: deckParts) s (localChange level s) := by
  unfold localChange; dsimp only; split
  · exact ((setPins_frame s _).trans (localTaken_frame level _)).mono
  · exact (setPins_frame s _).mono

theorem localChange_pins (level : Bool) (s : State) :
    (localChange level s).pins = { s.pins with localOn := level } := by
  unfold localChange; dsimp only; split
  · exact (localTaken_frame level _).same .pins
  · rfl

theorem eotChange_frame (level : Bool) (s : State) : Frame [.pins, .lines, .cues, .flags] s (eotChange level s) := by
  unfold eotChange; dsimp only; split
  · exact (setPins_frame s _).trans (breakRecord_frame _)
  · exact (setPins_frame s _).mono

theorem eotChange_pins (level : Bool) (s : State) : (eotChange level s).pins = { s.pins with eot := level } := by
  unfold eotChange; dsimp only; split
  · exact (breakRecord_frame _).same .pins
  · rfl

theorem servoChange_frame (level : Bool) (s : State) : Frame [.pins, .chase] s (servoChange level s) := by
  unfold servoChange; dsimp only; split
  · exact (setPins_frame s _).trans (loseLock_frame _)
  · exact (setPins_frame s _).mono

theorem servoChange_pins (level : Bool) (s : State) :
    (servoChange level s).pins = { s.pins with servo := level } := by
  unfold servoChange; dsimp only; split
  · exact (loseLock_frame _).same .pins
  · rfl

theorem rectallyChange_frame (level : Bool) (s : State) : Frame [.pins, .lines] s (rectallyChange level s) := by
  unfold rectallyChange; dsimp only; split
  · exact (setPins_frame s _).trans (setPunch_frame _ _)
  · exact (setPins_frame s _).mono

theorem rectallyChange_pins (level : Bool) (s : State) :
    (rectallyChange level s).pins = { s.pins with rectally := level } := by
  unfold rectallyChange; dsimp only; split <;> rfl

/-- The five commands of the deck's lines. -/
theorem deckLine_cases {c : Instr} {s t : State} (hc : isDeckLine c = true) (h : exec c s = .next t) :
    ∃ level, t = threadedChange level s ∨ t = localChange level s ∨ t = eotChange level s ∨ t = servoChange level s
      ∨ t = rectallyChange level s := by
  cases c <;> try cases hc
  case threadedChange level => cases h; exact ⟨level, .inl rfl⟩
  case localChange level => cases h; exact ⟨level, .inr (.inl rfl)⟩
  case eotChange level => cases h; exact ⟨level, .inr (.inr (.inl rfl))⟩
  case servoFall level => cases h; exact ⟨level, .inr (.inr (.inr (.inl rfl)))⟩
  case rectallyRise level => cases h; exact ⟨level, .inr (.inr (.inr (.inr rfl)))⟩

theorem deckLine_frame {c : Instr} {s t : State} (hc : isDeckLine c = true) (h : exec c s = .next t) :
    Frame (.pins :: deckParts) s t := by
  obtain ⟨level, rfl | rfl | rfl | rfl | rfl⟩ := deckLine_cases hc h
  · exact threadedChange_frame level s
  · exact localChange_frame level s
  · exact (eotChange_frame level s).mono
  · exact (servoChange_frame level s).mono
  · exact (rectallyChange_frame level s).mono

/-! ### One part at a time -/

/-- A change that is no change of the supply writes within these parts; each group its own. -/
theorem Sorted.frame {s t : State} (m : Sorted s t) :
    BlocksReset s t ∨ (∃ x : Power, t = s.setPower x ∧ x.supervisor = s.power.supervisor)
      ∨ Frame [.time, .peers, .link, .pins, .transport, .lines, .chase, .cues, .flags, .pos, .marks, .fader, .choices,
          .mix, .req, .inputs, .outputs, .samples] s t := by
  cases m with
  | side h => exact .inr (.inr h.mono)
  | peers => exact .inr (.inr (setPeers_frame s _).mono)
  | time => exact .inr (.inr (setTime_frame s _).mono)
  | link h => exact .inr (.inr h.frame.mono)
  | power hc h =>
    obtain hx | hr := power_cases hc h
    · exact .inr (.inl hx)
    · exact .inl hr
  | deckLine hc h => exact .inr (.inr (deckLine_frame hc h).mono)
  | pos h => exact .inr (.inr h.frame.mono)
  | transport h => exact .inr (.inr h.frame.mono)
  | locateEnd h => exact .inr (.inr h.frame.mono)
  | locateMark _ m => exact .inr (.inr ((setMarks_frame s _).trans (giveLocate_frame _ m.frame (popMark s))).mono)
  | cue h => exact .inr (.inr h.frame.mono)
  | abort => exact .inr (.inr (abortActive_frame s).mono)
  | fader h => exact .inr (.inr h.frame.mono)
  | chase h => exact .inr (.inr h.frame.mono)
  | marks h => exact .inr (.inr h.frame.mono)

/-- The straps change in a full reset alone (R18). -/
theorem Sorted.straps {s t : State} (m : Sorted s t) : BlocksReset s t ∨ t.straps = s.straps := by
  obtain hr | ⟨x, rfl, -⟩ | h := m.frame
  · exact .inl hr
  · exact .inr rfl
  · exact .inr (h.same .straps)

/-- The supervisor's state changes in a full reset alone (R19). -/
theorem Sorted.supervisor {s t : State} (m : Sorted s t) :
    BlocksReset s t ∨ t.power.supervisor = s.power.supervisor := by
  obtain hr | ⟨x, rfl, hx⟩ | h := m.frame
  · exact .inl hr
  · exact .inr hx
  · exact .inr (congrArg Power.supervisor (h.same .power))

theorem Sorted.pending {s t : State} (m : Sorted s t) : t.pending = s.pending := by
  obtain ⟨p, x, rfl⟩ | ⟨x, rfl, -⟩ | h := m.frame
  · rfl
  · rfl
  · exact h.same .pending

/-- The lines take levels by their own commands alone (log 11). -/
theorem Sorted.pins {s t : State} (m : Sorted s t) :
    (∃ c, isDeckLine c = true ∧ exec c s = .next t) ∨ t.pins = s.pins := by
  cases m with
  | deckLine hc h => exact .inl ⟨_, hc, h⟩
  | side h => exact .inr (h.same .pins)
  | power hc h =>
    obtain ⟨x, rfl, -⟩ | ⟨p, x, rfl⟩ := power_cases hc h
    · exact .inr rfl
    · exact .inr rfl
  | peers | time => exact .inr rfl
  | link h => exact .inr (h.frame.same .pins)
  | pos h => exact .inr (h.frame.same .pins)
  | transport h => exact .inr (h.frame.same .pins)
  | locateEnd h => exact .inr (h.frame.same .pins)
  | locateMark _ m => exact .inr ((giveLocate_frame _ m.frame (popMark s)).same .pins)
  | cue h => exact .inr (h.frame.same .pins)
  | abort => exact .inr ((abortActive_frame s).same .pins)
  | fader h => exact .inr (h.frame.same .pins)
  | chase h => exact .inr (h.frame.same .pins)
  | marks h => exact .inr (h.frame.same .pins)

theorem Sorted.timebase {s t : State} (m : Sorted s t) :
    BlocksReset s t ∨ t.time = s.time
      ∨ ∃ x, (s.chase.state = .locked → s.time.refState = .present → x.refState = .present)
          ∧ (TimebaseSound s → TimebaseSound (s.setTime x)) ∧ t = s.setTime x := by
  cases m with
  | power hc h =>
    obtain ⟨x, rfl, -⟩ | hr := power_cases hc h
    · exact .inr (.inl rfl)
    · exact .inl hr
  | time _ x h hs => exact .inr (.inr ⟨x, h, hs, rfl⟩)
  | side h => exact .inr (.inl (h.same .time))
  | deckLine hc h => exact .inr (.inl ((deckLine_frame hc h).same .time))
  | peers => exact .inr (.inl rfl)
  | link h => exact .inr (.inl (h.frame.same .time))
  | pos h => exact .inr (.inl (h.frame.same .time))
  | transport h => exact .inr (.inl (h.frame.same .time))
  | locateEnd h => exact .inr (.inl (h.frame.same .time))
  | locateMark _ m => exact .inr (.inl ((giveLocate_frame _ m.frame (popMark s)).same .time))
  | cue h => exact .inr (.inl (h.frame.same .time))
  | abort => exact .inr (.inl ((abortActive_frame s).same .time))
  | fader h => exact .inr (.inl (h.frame.same .time))
  | chase h => exact .inr (.inl (h.frame.same .time))
  | marks h => exact .inr (.inl (h.frame.same .time))

/-! ### Chase -/

/-- The chase is as before, but for the note that the locate to the park frame has ended (R120). -/
def ParkNoted (x y : Chase) : Prop := y = x ∨ y = { x with parkDone := true }

theorem LocateEnd.parkNoted {s t : State} (m : LocateEnd s t) : ParkNoted s.chase t.chase := by
  unfold ParkNoted
  cases m with
  | success l => rw [locateSucceed_touches]; dsimp; split <;> simp
  | failure l => rw [locateFail_touches]; dsimp; split <;> simp

theorem failLocate_parkNoted (s : State) : ParkNoted s.chase (failLocate s).chase := by
  unfold failLocate; split
  · rename_i l h; exact LocateEnd.parkNoted (.failure s l h)
  · exact .inl rfl

theorem threadedChange_parkNoted (level : Bool) (s : State) : ParkNoted s.chase (threadedChange level s).chase := by
  unfold threadedChange; dsimp only; split
  · unfold threadedTaken; split
    · exact .inl ((quietPort_frame _).same .chase)
    · have h := failLocate_parkNoted (s.setPins { s.pins with threaded := level })
      have e := (dropDeck_frame (failLocate (s.setPins { s.pins with threaded := level }))).same .chase
      exact h.imp (Eq.trans e) (Eq.trans e)
  · exact .inl rfl

theorem localChange_chase (level : Bool) (s : State) : (localChange level s).chase = s.chase := by
  unfold localChange; dsimp only; split
  · unfold localTaken; split
    · exact ((dropDeck_frame _).trans (quietPort_frame _)).same .chase
    · rfl
  · rfl

/-- A lock ends by what the chase holds alone. -/
theorem loseLock_chase_congr {s u : State} (h : u.chase = s.chase) : (loseLock u).chase = (loseLock s).chase := by
  by_cases hl : s.chase.state = .locked
  · simp [loseLock, h, hl]
  · simp [loseLock, h, hl]

theorem servoChange_chase (level : Bool) (s : State) :
    (servoChange level s).chase = s.chase ∨ (servoChange level s).chase = (loseLock s).chase := by
  unfold servoChange; dsimp only; split
  · exact .inr (loseLock_chase_congr rfl)
  · exact .inl rfl

/-- A deck line leaves the chase as it was, notes the end of a locate, or ends a lock. -/
theorem deckLine_chase {c : Instr} {s t : State} (hc : isDeckLine c = true) (h : exec c s = .next t) :
    ParkNoted s.chase t.chase ∨ t.chase = (loseLock s).chase := by
  obtain ⟨level, rfl | rfl | rfl | rfl | rfl⟩ := deckLine_cases hc h
  · exact .inl (threadedChange_parkNoted level s)
  · exact .inl (.inl (localChange_chase level s))
  · exact .inl (.inl ((eotChange_frame level s).same .chase))
  · exact (servoChange_chase level s).imp .inl id
  · exact .inl (.inl ((rectallyChange_frame level s).same .chase))

theorem Sorted.chase_cases {s t : State} (m : Sorted s t) :
    BlocksReset s t ∨ ParkNoted s.chase t.chase ∨ t.chase = (loseLock s).chase ∨ ChaseMove s t := by
  cases m with
  | power hc h =>
    obtain ⟨x, rfl, -⟩ | hr := power_cases hc h
    · exact .inr (.inl (.inl rfl))
    · exact .inl hr
  | deckLine hc h => exact .inr ((deckLine_chase hc h).imp id .inl)
  | locateEnd h => exact .inr (.inl h.parkNoted)
  | chase h => exact .inr (.inr (.inr h))
  | side h => exact .inr (.inl (.inl (h.same .chase)))
  | peers | time => exact .inr (.inl (.inl rfl))
  | link h => exact .inr (.inl (.inl (h.frame.same .chase)))
  | pos h => exact .inr (.inl (.inl (h.frame.same .chase)))
  | transport h => exact .inr (.inl (.inl (h.frame.same .chase)))
  | locateMark _ m => exact .inr (.inl (.inl ((giveLocate_frame _ m.frame (popMark s)).same .chase)))
  | cue h => exact .inr (.inl (.inl (h.frame.same .chase)))
  | abort => exact .inr (.inl (.inl ((abortActive_frame s).same .chase)))
  | fader h => exact .inr (.inl (.inl (h.frame.same .chase)))
  | marks h => exact .inr (.inl (.inl (h.frame.same .chase)))

/-! ### Marks -/

theorem Sorted.marks_cases {s t : State} (m : Sorted s t) :
    t.marks = s.marks ∨ t.marks = [] ∨ t.marks = s.marks.tail ∨ ∃ o, t = pushMark o s := by
  cases m with
  | power hc h =>
    obtain ⟨x, rfl, -⟩ | ⟨p, x, rfl⟩ := power_cases hc h
    · exact .inl rfl
    · exact .inr (.inl rfl)
  | locateMark _ m => exact .inr (.inr (.inl ((giveLocate_frame _ m.frame (popMark s)).same .marks)))
  | marks h =>
    cases h with
    | push o => exact .inr (.inr (.inr ⟨o, rfl⟩))
    | pop => exact .inr (.inr (.inl rfl))
    | clear => exact .inr (.inl rfl)
  | side h => exact .inl (h.same .marks)
  | deckLine hc h => exact .inl ((deckLine_frame hc h).same .marks)
  | peers | time => exact .inl rfl
  | link h => exact .inl (h.frame.same .marks)
  | pos h => exact .inl (h.frame.same .marks)
  | transport h => exact .inl (h.frame.same .marks)
  | locateEnd h => exact .inl (h.frame.same .marks)
  | cue h => exact .inl (h.frame.same .marks)
  | abort => exact .inl ((abortActive_frame s).same .marks)
  | fader h => exact .inl (h.frame.same .marks)
  | chase h => exact .inl (h.frame.same .marks)

/-! ### Position -/

theorem threadedChange_pos (level : Bool) (s : State) :
    (threadedChange level s).pos = s.pos
      ∨ (threadedChange level s).pos = { s.pos with quality := .none, candidate := none } ∧ isDeck s = true := by
  unfold threadedChange; dsimp only; split
  · rename_i h
    unfold threadedTaken; split
    · exact .inl ((quietPort_frame _).same .pos)
    · right
      refine ⟨?_, h.2.1⟩
      have e : (dropDeck (failLocate (s.setPins { s.pins with threaded := level }))).pos = s.pos :=
        ((failLocate_frame _).trans (dropDeck_frame _)).same .pos
      unfold loseTape
      rw [State.setPos_pos, e]
  · exact .inl rfl

/-- A deck line leaves the Position Unit, but for the fall of THREADED on a deck (R107). -/
theorem deckLine_pos {c : Instr} {s t : State} (hc : isDeckLine c = true) (h : exec c s = .next t) :
    t.pos = s.pos ∨ t.pos = { s.pos with quality := .none, candidate := none } ∧ isDeck s = true := by
  obtain ⟨level, rfl | rfl | rfl | rfl | rfl⟩ := deckLine_cases hc h
  · exact threadedChange_pos level s
  · left; unfold localChange; dsimp only; split
    · unfold localTaken; split
      · exact ((dropDeck_frame _).trans (quietPort_frame _)).same .pos
      · rfl
    · rfl
  · exact .inl ((eotChange_frame level s).same .pos)
  · exact .inl ((servoChange_frame level s).same .pos)
  · exact .inl ((rectallyChange_frame level s).same .pos)

theorem Sorted.pos_cases {s t : State} (m : Sorted s t) :
    BlocksReset s t ∨ t.pos = s.pos ∨ (t.pos = { s.pos with quality := .none, candidate := none } ∧ isDeck s = true)
      ∨ PosMove s t := by
  cases m with
  | power hc h =>
    obtain ⟨x, rfl, -⟩ | hr := power_cases hc h
    · exact .inr (.inl rfl)
    · exact .inl hr
  | deckLine hc h => exact .inr ((deckLine_pos hc h).imp id .inl)
  | pos h => exact .inr (.inr (.inr h))
  | side h => exact .inr (.inl (h.same .pos))
  | peers | time => exact .inr (.inl rfl)
  | link h => exact .inr (.inl (h.frame.same .pos))
  | transport h => exact .inr (.inl (h.frame.same .pos))
  | locateEnd h => exact .inr (.inl (h.frame.same .pos))
  | locateMark _ m => exact .inr (.inl ((giveLocate_frame _ m.frame (popMark s)).same .pos))
  | cue h => exact .inr (.inl (h.frame.same .pos))
  | abort => exact .inr (.inl ((abortActive_frame s).same .pos))
  | fader h => exact .inr (.inl (h.frame.same .pos))
  | chase h => exact .inr (.inl (h.frame.same .pos))
  | marks h => exact .inr (.inl (h.frame.same .pos))

end Sys2Proof.Machine

/-! SUPPORT and O56. A lock needs the reference and the servo, and the lead is the own station exactly while FREE: the
chase changes by its own moves, and each keeps both. -/

namespace Sys2Proof.Machine

set_option Elab.async false

theorem ParkNoted.state {x y : Chase} (h : ParkNoted x y) : y.state = x.state := by
  obtain rfl | rfl := h <;> rfl

theorem ParkNoted.lead {x y : Chase} (h : ParkNoted x y) : y.lead = x.lead := by
  obtain rfl | rfl := h <;> rfl

theorem ParkNoted.offset {x y : Chase} (h : ParkNoted x y) : y.offset = x.offset := by
  obtain rfl | rfl := h <;> rfl

theorem loseLock_chase (s : State) :
    (loseLock s).chase.lead = s.chase.lead ∧ (loseLock s).chase.offset = s.chase.offset
      ∧ ((loseLock s).chase.state = .free ↔ s.chase.state = .free) := by
  by_cases h : s.chase.state = .locked
  · simp [loseLock, h]
  · simp [loseLock, h]

/-! ### Lock -/

/-- After a change a lock is one that was there before, or one that the servo has just taken with its conditions holding. -/
theorem Sorted.locked {s t : State} (m : Sorted s t) (h : t.chase.state = .locked) :
    s.chase.state = .locked ∨ (Running s ∧ s.time.refState = .present ∧ (role s = .live ∨ s.pins.servo = true)) := by
  obtain ⟨p, x, rfl⟩ | hp | hl | hm := m.chase_cases
  · cases h
  · exact .inl (hp.state ▸ h)
  · exact absurd (hl ▸ h) (loseLock_not_locked s)
  · cases hm with
    | servo x hx => exact hx.locked h
    | loseLock => exact absurd h (loseLock_not_locked s)
    | freeChase | startChase => cases h

/-- The fall of SERVO takes a lock with it, but on LIVE (R125). -/
theorem servoChange_lock {level : Bool} {s : State} (hs : LockSound s) : LockSound (servoChange level s) := by
  unfold servoChange; dsimp only; split
  · exact fun h => absurd h (loseLock_not_locked _)
  · rename_i hn
    intro h
    obtain ⟨hr, hp, hd⟩ := hs h
    refine ⟨hr, hp, ?_⟩
    by_cases hl : role s = .live
    · exact .inl hl
    · right
      have hv : s.pins.servo = true := hd.resolve_left hl
      have hd : isDeck s = true := by simp [isDeck, hl]
      by_contra hf
      exact hn ⟨hr, hd, hv, by simpa using hf⟩

theorem deckLine_servo {c : Instr} {s t : State} (hc : isDeckLine c = true) (h : exec c s = .next t)
    (hs : LockSound s) : LockSound t ∨ t.pins.servo = s.pins.servo := by
  obtain ⟨level, rfl | rfl | rfl | rfl | rfl⟩ := deckLine_cases hc h
  · right; rw [threadedChange_pins]
  · right; rw [localChange_pins]
  · right; rw [eotChange_pins]
  · exact .inl (servoChange_lock hs)
  · right; rw [rectallyChange_pins]

theorem lockSound_move {s t : State} (hs : LockSound s) (m : Move s t) : LockSound t := by
  obtain hd | hv : LockSound t ∨ t.pins.servo = s.pins.servo := by
    obtain ⟨c, hc, h⟩ | hp := m.sorted.pins
    · exact deckLine_servo hc h hs
    · exact .inr (congrArg Pins.servo hp)
  · exact hd
  · intro h
    obtain ⟨hr, hp, hl⟩ := (m.sorted.locked h).elim hs id
    obtain ⟨p, x, rfl⟩ | hq := m.sorted.supervisor
    · cases h
    obtain ⟨p, x, rfl⟩ | hz := m.sorted.straps
    · cases h
    refine ⟨hq.trans hr, ?_, ?_⟩
    · obtain ⟨p, x, rfl⟩ | ht | ⟨x, hx, -, rfl⟩ := m.sorted.timebase
      · cases h
      · rw [ht]; exact hp
      · exact hx h hp
    · unfold role at hl ⊢; rw [hz, hv]; exact hl

/-! ### Lead -/

theorem fpd_pos (x : Standard) : 0 < x.fpd := by cases x <;> decide

theorem leadSound_of {s t : State} (hs : LeadSound s) (hz : t.straps = s.straps) (hl : t.chase.lead = s.chase.lead)
    (ho : t.chase.offset = s.chase.offset ∨ t.chase.offset = 0)
    (hf : t.chase.state = .free ↔ s.chase.state = .free) : LeadSound t := by
  unfold LeadSound own Machine.std at *
  rw [hz, hl, hf]
  refine ⟨hs.1, ?_⟩
  obtain h | h := ho
  · rw [h]; exact hs.2
  · rw [h]; exact fpd_pos _

theorem leadSound_move {s t : State} (hs : LeadSound s) (m : Move s t) : LeadSound t := by
  obtain ⟨p, x, rfl⟩ | hz := m.sorted.straps
  · exact ⟨by simp [resetBlocks, State.atReset, Chase.atReset, own], fpd_pos _⟩
  obtain ⟨p, x, rfl⟩ | hp | hl | hm := m.sorted.chase_cases
  · exact ⟨by simp [resetBlocks, State.atReset, Chase.atReset, own], fpd_pos _⟩
  · exact leadSound_of hs hz hp.lead (.inl hp.offset) (by rw [hp.state])
  · obtain ⟨h1, h2, h3⟩ := loseLock_chase s
    exact leadSound_of hs hz (hl ▸ h1) (.inl (hl ▸ h2)) (hl ▸ h3)
  · cases hm with
    | servo x hx => exact leadSound_of hs hz hx.lead hx.offset hx.free
    | loseLock =>
      obtain ⟨h1, h2, h3⟩ := loseLock_chase s
      exact leadSound_of hs hz h1 (.inl h2) h3
    | freeChase => exact ⟨by simp [freeChase, rewriteFree, Chase.freed, own], hs.2⟩
    | startChase lead offset hl ho => exact ⟨iff_of_false hl (by simp [startChase]), ho⟩

/-- Settles O56: every change keeps a lock's conditions, and the lead with its offset. -/
theorem lockAndLeadStaySound : Obligations.LockAndLeadStaySound :=
  ⟨fun _ _ hs h => step_keeps (P := LockSound) (fun _ _ k => k) (fun _ _ k m => lockSound_move k m) hs h,
    fun _ _ hs h => step_keeps (P := LeadSound) (fun _ _ k => k) (fun _ _ k m => leadSound_move k m) hs h⟩

end Sys2Proof.Machine

/-! SUPPORT. What each request's judgement can write; every one leaves the request record to `record`. -/

namespace Sys2Proof.Machine

set_option Elab.async false

/-- The parts a fire, an edge or an abort can write. -/
abbrev editParts : List Part := [.transport, .lines, .chase, .cues, .fader, .mix, .outputs, .marks, .flags]

theorem EditOnly.frame {s t : State} (h : EditOnly s t) : Frame editParts s t := by
  intro p hp
  cases p
  case power => exact h.power
  case straps => exact h.straps
  case pins => exact h.pins
  case time => exact h.time
  case pos => exact h.pos
  case peers => exact h.peers
  case req => exact h.req
  case link => exact h.link
  case choices => exact h.choices
  case pending => exact h.pending
  case samples => exact ⟨h.ownSample, h.leadSample⟩
  case inputs => exact h.inputs
  all_goals exact absurd (by simp) hp

/-- The parts a request other than a READ can write beside its record. -/
abbrev requestParts : List Part := .inputs :: .choices :: editParts

theorem EditOnly.request {s t : State} (h : EditOnly s t) : Frame requestParts s t := h.frame.mono

theorem withLength_frame {n : Nat} {w : List Part} {r : Request} {judge : State → Judged} {s : State}
    (h : Frame w s (judge s).2) : Frame w s (withLength n r judge s).2 := by
  unfold withLength; split
  · exact h
  · exact Frame.refl s

theorem answer_frame {w : List Part} {x : Option ReqResult} {result : ReqResult} {effect : State → State} {s : State}
    (h : Frame w s (effect s)) : Frame w s (answer x result effect s).2 := by
  cases x with
  | none => exact h
  | some x => exact Frame.refl s

theorem updateInput_frame (line : GpiLine) (f : GpiInput → GpiInput) (s : State) :
    Frame [.inputs] s (updateInput line f s) := by
  intro p hp; cases p <;> simp [Part.Same, updateInput] at hp ⊢

theorem updateOutput_frame (line : GpiLine) (f : GpiOutput → GpiOutput) (s : State) :
    Frame [.outputs] s (updateOutput line f s) := by
  intro p hp; cases p <;> simp [Part.Same, updateOutput] at hp ⊢

theorem setList_frame (cs : List Cue) (s : State) : Frame [.cues] s (setList cs s) := setCueList_frame s cs

theorem disableChase_frame (s : State) : Frame [.chase] s (disableChase s) := by
  obtain ⟨a, h⟩ := disableChase_touches s
  rw [h]; exact setChase_frame s a

theorem freeChase_frame (s : State) : Frame [.chase] s (freeChase s) := by
  obtain ⟨a, h⟩ := freeChase_touches s
  rw [h]; exact setChase_frame s a

theorem commandStop_frame (s : State) : Frame [.chase, .transport, .lines, .cues, .flags] s (commandStop s) :=
  (disableChase_frame s).trans (takeCommand_frame _ _)

theorem pushMark_frame (origin : Origin) (s : State) : Frame [.marks, .flags] s (pushMark origin s) :=
  MarkMove.frame (.push s origin)

theorem sendMix_frame (s : State) : Frame [.mix] s (sendMix s) := by
  obtain ⟨a, h⟩ := sendMix_touches s
  rw [h]; exact setMix_frame s a

theorem startContext_frame (tag : Byte) (hard : Bool) (p : TransParams) (s : State) :
    Frame [.fader, .cues, .mix] s (startContext tag hard p s) := by
  obtain ⟨a, cs, m, h⟩ := startContext_touches tag hard p s
  rw [h]; exact ((setFader_frame s _).trans (setCueList_frame _ _)).trans (setMix_frame _ _)

theorem completeContext_frame (s : State) : Frame [.fader, .cues] s (completeContext s) := by
  obtain ⟨a, cs, h⟩ := completeContext_touches s
  rw [h]; exact (setFader_frame s _).trans (setCueList_frame _ _)

theorem unchase_frame (s : State) : Frame [.chase, .transport, .lines, .cues, .flags] s (unchase s) := by
  unfold unchase; split
  · exact Frame.refl s
  · exact (freeChase_frame s).trans (takeCommand_frame _ _)

theorem chaseLead_frame (lead : Station) (offset : Nat) (s : State) : Frame [.chase] s (chaseLead lead offset s) := by
  unfold chaseLead; split
  · exact Frame.refl s
  · exact setChase_frame s _

theorem clearFader_frame (s : State) : Frame [.fader] s (clearFader s) := by
  unfold clearFader
  exact ((cutContext_frame s).trans (setFader_frame _ _)).mono

theorem clearChase_frame (s : State) : Frame [.chase] s (clearChase s) := by
  unfold clearChase
  exact ((setChase_frame s _).trans (freeChase_frame _)).mono

theorem setArmed_frame (x : Tracks) (s : State) : Frame [.transport] s (setArmed x s) :=
  setTransport_frame s { s.tr with armed := x } rfl

theorem clearGpi_frame (s : State) : Frame [.inputs, .outputs] s (clearGpi s) := setGpi_frame s _

theorem sessionClear_frame (s : State) : Frame requestParts s (sessionClear s) := by
  unfold sessionClear
  dsimp only
  exact ((((((((((abortActive_frame s).trans (clearFader_frame _)).trans (setList_frame _ _)).trans
    (clearChase_frame _)).trans (takeCommand_frame _ _)).trans (setArmed_frame _ _)).trans
    (clearGpi_frame _)).trans (setMarks_frame _ _)).trans (setFlags_frame _ _)).trans (sendMix_frame _)).mono

/-! ### The judgements -/

theorem judgeStop_frame (r : Request) (s : State) : Frame requestParts s (judgeStop r s).2 :=
  withLength_frame (answer_frame (commandStop_frame _).mono)

theorem judgePlay_frame (r : Request) (s : State) : Frame requestParts s (judgePlay r s).2 :=
  withLength_frame (answer_frame (takeCommand_frame _ _).mono)

theorem judgeShuttle_frame (r : Request) (s : State) : Frame requestParts s (judgeShuttle r s).2 :=
  withLength_frame (answer_frame (takeCommand_frame _ _).mono)

theorem judgeLocate_frame (r : Request) (s : State) : Frame requestParts s (judgeLocate r s).2 := by
  refine withLength_frame ?_
  split
  · exact Frame.refl s
  · exact answer_frame (giveLocate_frame _ _ _).mono

theorem judgeArm_frame (r : Request) (s : State) : Frame requestParts s (judgeArm r s).2 :=
  withLength_frame (answer_frame (setArmed_frame _ s).mono)

theorem judgeChase_frame (r : Request) (s : State) : Frame requestParts s (judgeChase r s).2 := by
  refine withLength_frame ?_
  split
  · split
    · unfold judgeChaseWith; split
      · exact answer_frame (unchase_frame _).mono
      · exact answer_frame (chaseLead_frame _ _ _).mono
    · exact Frame.refl s
  · exact Frame.refl s

theorem judgeUnchase_frame (r : Request) (s : State) : Frame requestParts s (judgeUnchase r s).2 :=
  withLength_frame (answer_frame (unchase_frame _).mono)

theorem judgeCueLoad_frame (r : Request) (s : State) : Frame requestParts s (judgeCueLoad r s).2 := by
  unfold judgeCueLoad; split
  · exact Frame.refl s
  · exact answer_frame (setList_frame _ _).mono

theorem judgeCueDrop_frame (r : Request) (s : State) : Frame requestParts s (judgeCueDrop r s).2 :=
  withLength_frame (answer_frame (setList_frame _ _).mono)

theorem judgeCueClear_frame (r : Request) (s : State) : Frame requestParts s (judgeCueClear r s).2 :=
  withLength_frame (answer_frame (setList_frame _ _).mono)

theorem judgeFire_frame (r : Request) (s : State) : Frame requestParts s (judgeFire r s).2 := by
  refine withLength_frame ?_
  split
  · exact (fireCue_edit _ _ _).request
  · exact Frame.refl s

theorem judgeAbort_frame (r : Request) (s : State) : Frame requestParts s (judgeAbort r s).2 :=
  withLength_frame (answer_frame (abortCues_edit _).request)

theorem judgeFader_frame (r : Request) (s : State) : Frame requestParts s (judgeFader r s).2 :=
  withLength_frame (answer_frame ((setChoices_frame s _).trans (startContext_frame _ _ _ _)).mono)

theorem judgeMark_frame (r : Request) (s : State) : Frame requestParts s (judgeMark r s).2 :=
  withLength_frame (answer_frame (pushMark_frame _ _).mono)

theorem judgeMarkDrop_frame (r : Request) (s : State) : Frame requestParts s (judgeMarkDrop r s).2 :=
  withLength_frame (answer_frame (setMarks_frame _ _).mono)

theorem judgeLocateMark_frame (r : Request) (s : State) : Frame requestParts s (judgeLocateMark r s).2 := by
  refine withLength_frame ?_
  split
  · exact Frame.refl s
  · exact Frame.refl s
  · exact ((setMarks_frame s _).trans (giveLocate_frame _ _ (popMark s))).mono

theorem judgeGpiBind_frame (r : Request) (s : State) : Frame requestParts s (judgeGpiBind r s).2 := by
  refine withLength_frame ?_
  split
  · exact (updateInput_frame _ _ s).mono
  · exact Frame.refl s

theorem judgeTallyMap_frame (r : Request) (s : State) : Frame requestParts s (judgeTallyMap r s).2 := by
  refine withLength_frame ?_
  split
  · exact (updateOutput_frame _ _ s).mono
  · exact Frame.refl s

theorem judgeClearFlags_frame (r : Request) (s : State) : Frame requestParts s (judgeClearFlags r s).2 :=
  withLength_frame (answer_frame (setFlags_frame _ _).mono)

theorem judgeSessionClear_frame (r : Request) (s : State) : Frame requestParts s (judgeSessionClear r s).2 :=
  withLength_frame (answer_frame (sessionClear_frame _))

theorem joinReport_frame (payload : List Byte) (s : State) : Frame [.link, .flags] s (joinReport payload s) :=
  (joinReport_only payload s).frame

theorem judgeReadStatus_frame (r : Request) (s : State) : Frame [.link, .flags] s (judgeReadStatus r s).2 :=
  withLength_frame (answer_frame (joinReport_frame _ _))

theorem judgeReadCues_frame (r : Request) (s : State) : Frame [.link, .flags] s (judgeReadCues r s).2 := by
  refine withLength_frame ?_
  split
  · exact answer_frame (joinReport_frame _ _)
  · exact Frame.refl s

theorem judgeReadMarks_frame (r : Request) (s : State) : Frame [.link, .flags] s (judgeReadMarks r s).2 :=
  withLength_frame (answer_frame (joinReport_frame _ _))

/-! ### The takers of a boundary -/

theorem gpiBoundary_frame (s : State) : Frame [.inputs, .outputs] s (gpiBoundary s) := setGpi_frame s _

theorem positionBoundary_frame (s : State) : Frame [.pos] s (positionBoundary s) := by
  obtain ⟨a, h⟩ := positionBoundary_touches s; rw [h]; exact setPos_frame s a

theorem setVirtual_frame (s : State) : Frame [.pos] s (setVirtual s) := by
  obtain ⟨a, h⟩ := setVirtual_touches s; rw [h]; exact setPos_frame s a

theorem chaseBoundary_frame (s : State) : Frame editParts s (chaseBoundary s) := (chaseBoundary_edit s).frame

theorem cueBoundary_frame (s : State) : Frame (.samples :: editParts) s (cueBoundary s) := by
  obtain ⟨t, h, e⟩ := cueBoundary_edit s
  rw [e]; exact (h.frame.trans (setSamples_frame t _ _)).mono

theorem locateBoundary_frame (s : State) : Frame editParts s (locateBoundary s) := (locateBoundary_edit s).frame

theorem faderBoundary_frame (s : State) : Frame [.fader, .cues, .flags, .mix] s (faderBoundary s) :=
  FaderMove.frame (.boundary s)

theorem countServo_frame (s : State) : Frame [.transport] s (countServo s) := setTransport_frame s _ rfl

theorem servoExpiry_frame (s : State) : Frame [.flags] s (servoExpiry s) := by
  unfold servoExpiry; split
  · exact setFlag_frame _ s
  · exact Frame.refl s

theorem transportBoundary_frame (s : State) : Frame [.transport, .lines, .flags] s (transportBoundary s) := by
  unfold transportBoundary
  exact (((((countServo_frame s).trans (servoExpiry_frame _)).trans (setTr_frame _ _)).trans
    (tallyExpiry_frame _)).trans (sendSpeedWord_frame _)).mono

theorem linkBoundary_frame (s : State) : Frame [.link, .flags] s (linkBoundary s) := (linkBoundary_only s).frame

theorem composeBulletin_frame (s : State) : Frame [.link, .flags] s (composeBulletin s) := (composeBulletin_only s).frame

theorem peersBoundary_frame (s : State) : Frame [.peers] s (peersBoundary s) := setPeers_frame s _

end Sys2Proof.Machine

/-! SUPPORT. The link apart from the rest: what every operation of the Suite Link Interface keeps, every command keeps. -/

namespace Sys2Proof.Machine

set_option Elab.async false

/-! ### What the commands beside the link can write -/

theorem missingLimitSettling_frame (s : State) : Frame [.time] s (missingLimitSettling s) := by
  unfold missingLimitSettling; split
  · exact ((setTime_frame s _).trans (setTime_frame _ _)).mono
  · exact Frame.refl s

theorem transitionComplete_frame (s : State) : Frame [.fader, .cues, .mix] s (transitionComplete s) := by
  unfold transitionComplete; split
  · exact Frame.refl s
  · split
    · exact (completeContext_frame s).trans (sendMix_frame _)
    · exact Frame.refl s

theorem endMixRecord_frame (s : State) : Frame [.mix] s (endMixRecord s) := by
  obtain ⟨a, h⟩ := endMixRecord_touches s
  rw [h]; exact setMix_frame s a

theorem freewheelStop_frame (s : State) : Frame [.transport, .lines, .cues, .flags] s (freewheelStop s) := by
  unfold freewheelStop; split
  · exact takeCommand_frame _ s
  · exact Frame.refl s

theorem refreshRecord_frame (before s : State) : Frame [.chase] s (refreshRecord before s) := by
  unfold refreshRecord; split
  · exact Frame.refl s
  · exact setChase_frame s _

theorem chaseLock_frame (s : State) : Frame [.chase] s (chaseLock s) := by
  unfold chaseLock lockIfDue; split
  · split
    · exact ((setChase_frame s _).trans (refreshRecord_frame _ _)).mono
    · exact refreshRecord_frame s s
  · exact Frame.refl s

theorem outWindowExpiry_frame (s : State) : Frame [.chase] s (outWindowExpiry s) := by
  unfold outWindowExpiry unlockIfOut unlock; split
  · split
    · exact ((setChase_frame s _).trans (refreshRecord_frame _ _)).mono
    · exact refreshRecord_frame s s
  · exact Frame.refl s

theorem meetEdge_frame (rise : Bool) (line : GpiLine) (s : State) :
    Frame (.inputs :: editParts) s (meetEdge rise s line) := by
  unfold meetEdge; dsimp only; split
  · exact ((updateInput_frame _ _ s).trans (performBinding_edit _ _ _).frame).mono
  · exact Frame.refl s

theorem gpiEdge_frame (line : GpiLine) (rise : Bool) (s : State) :
    Frame (.inputs :: editParts) s (gpiEdge line rise s) := by
  unfold gpiEdge; split
  · split
    · exact Frame.refl s
    · exact ((updateInput_frame _ _ s).trans (meetEdge_frame _ _ _)).mono
  · exact (updateInput_frame _ _ s).mono

theorem meetEdges_frame (levels : BitVec 4) (edges : List GpiLine) (s : State) :
    Frame (.inputs :: editParts) s (edges.foldl (fun u line => meetEdge (levelOf levels line) u line) s) := by
  induction edges generalizing s with
  | nil => exact Frame.refl s
  | cons e es ih => exact ((meetEdge_frame _ e s).trans (ih _)).mono

theorem gpiSample_frame (levels : BitVec 4) (s : State) : Frame requestParts s (gpiSample levels s) := by
  unfold gpiSample sampleInputs
  exact (((setGpi_frame s _).trans (setChoices_frame _ _)).trans (meetEdges_frame _ _ _)).mono

theorem takeBulletin_frame (source : Byte) (payload : List Byte) (s : State) :
    Frame [.peers, .flags] s (takeBulletin source payload s) := by
  unfold takeBulletin; split
  · exact (setFlag_frame _ s).mono
  · split
    · exact (setPeers_frame s _).mono
    · exact Frame.refl s

/-! ### What every operation of the link keeps -/

/-- What the station at rest and every operation of the Suite Link Interface keep, read from the link alone. -/
structure LinkKept (P : Link → Prop) : Prop where
  reset (p : Straps) : P (Link.atReset p)
  received (s : State) : s.link.rx = .frame → P s.link → P (received s).link
  discard (s : State) : s.link.rx = .frame → P s.link → P (discardFrame .ignore s).link
  quiet (s : State) : driverReleased s.link = true → P s.link → P (quietNow s).link
  startBit (s : State) : P s.link → P (startBit s).link
  judgeStart (first : LinkChar) (second : Option LinkChar) (s : State) : P s.link → P (judgeStart first second s).link
  deferralEnd (s : State) (k : Nat) : s.link.phase = .deferring k → P s.link → P (startHead s).link
  sent (s : State) : P s.link → P (frameSent s).link
  collide (s : State) : P s.link → P (collide s).link
  jamEnd (s : State) : P s.link → P (jamEnd s).link
  expire (s : State) : P s.link → P (expireReports s).link
  boundary (s : State) : P s.link → P (linkBoundary s).link
  joinPosition (payload : List Byte) (s : State) : P s.link → P (joinPosition payload s).link
  joinReport (payload : List Byte) (s : State) : reportsHeld s.link < 3 → P s.link → P (joinReport payload s).link

section
variable {P : Link → Prop} (hP : LinkKept P)
include hP

theorem LinkKept.takeBoundary (t : Taker) {s : State} (h : P s.link) : P (takeBoundary t s).link := by
  cases t
  case publish => exact ((positionBoundary_frame s).same .link).symm ▸ h
  case evaluate => exact ((chaseBoundary_frame s).same .link).symm ▸ h
  case setVirtual => exact ((setVirtual_frame s).same .link).symm ▸ h
  case cues => exact ((cueBoundary_frame s).same .link).symm ▸ h
  case locate => exact ((locateBoundary_frame s).same .link).symm ▸ h
  case fader => exact ((faderBoundary_frame s).same .link).symm ▸ h
  case gpi => exact h
  case peers => exact h
  case transport => exact ((transportBoundary_frame s).same .link).symm ▸ h
  case link => exact hP.boundary s h
  case compose => exact hP.joinPosition _ s h

theorem LinkKept.fieldBoundary (identity : Option Bool) {s : State} (h : P s.link) :
    P (fieldBoundary identity s).link :=
  fieldBoundary_keeps (P := fun u => P u.link) identity h fun t _ hu => hP.takeBoundary t hu

theorem LinkKept.arrive (source : Byte) {take : State → State} {s : State}
    (ht : P (Machine.received s).link → P (take (Machine.received s)).link) (h : P s.link) : P (arrive source take s).link := by
  by_cases hx : s.link.rx = .frame
  · cases hf : foreignStandard source s with
    | true => rw [arrive_foreign hx hf]; exact hP.discard s hx h
    | false => rw [arrive_taken hx hf]; exact ht (hP.received s hx h)
  · rw [arrive_idle hx]; exact h

theorem LinkKept.takeRequest (r : Request) {judge : State → Judged} {s : State}
    (hj : P (Machine.received s).link → P (judge (Machine.received s)).2.link) (h : P s.link) : P (takeRequest r judge s).link := by
  refine hP.arrive r.source (fun hr => ?_) h
  unfold takeIfAddressed; split
  · exact hj hr
  · exact hr

theorem LinkKept.answerReport {result : ReqResult} (payload : State → List Byte) {s : State} (h : P s.link) :
    P (answer (readRefusal s) result (fun u => Machine.joinReport (payload u) u) s).2.link := by
  unfold readRefusal; split
  · exact h
  · rename_i hn; exact hP.joinReport _ s (by omega) h

theorem LinkKept.lineQuiet (time : Nat) {s : State} (h : P s.link) : P (lineQuiet time s).link := by
  unfold Machine.lineQuiet; split
  · rename_i hq; exact hP.quiet (atTime time s) hq.1 h
  · exact h

theorem LinkKept.gapError (time : Nat) {s : State} (h : P s.link) : P (gapError time s).link := by
  unfold Machine.gapError; split
  · rename_i hq; exact hP.quiet (atTime time s) hq.2 h
  · exact h

theorem LinkKept.deferral (time : Nat) {s : State} (h : P s.link) : P (Machine.deferralEnd time s).link := by
  unfold Machine.deferralEnd
  dsimp only
  split
  · rename_i k hk; exact hP.deferralEnd (atTime time s) k hk h
  all_goals exact h

theorem LinkKept.frameStart (line : List Bool) {s : State} (h : P s.link) : P (frameStart line s).link := by
  unfold Machine.frameStart; split
  · exact h
  · exact hP.judgeStart _ _ s h

theorem LinkKept.brokenFrame (line : List Bool) {s : State} (h : P s.link) : P (brokenFrame line s).link := by
  unfold Machine.brokenFrame; split
  · rename_i hx; exact hP.discard s hx.1 h
  · exact h

theorem LinkKept.referencePulse (time : Nat) (first : Bool) {s : State} (h : P s.link) :
    P (referencePulse time first s).link := by
  unfold Machine.referencePulse pulseNow
  split
  · split
    · exact hP.fieldBoundary _ h
    · exact h
  · exact h
  · unfold settlingPulse; split
    · split
      · unfold warmPulse; split <;> exact h
      · exact h
    · exact h

theorem LinkKept.missingLimitPresent {s : State} (h : P s.link) : P (missingLimitPresent s).link := by
  unfold Machine.missingLimitPresent; split
  · unfold missPresent
    dsimp only
    refine hP.fieldBoundary _ ?_
    exact ((loseLock_frame _).same .link).symm ▸ h
  · exact h

theorem LinkKept.internalBoundary {s : State} (h : P s.link) : P (internalBoundary s).link := by
  unfold Machine.internalBoundary; split
  · exact h
  · refine hP.fieldBoundary _ ?_
    unfold completePeriod; split <;> exact h

omit hP in
theorem link_inRun {f : State → State} {s t : State} (hf : P (f s).link) (h : P s.link)
    (e : inRun f s = .next t) : P t.link := by
  obtain ⟨u, hu, rfl | rfl⟩ := inRun_answers_next f s
  · rw [hu] at e; cases e; exact h
  · rw [hu] at e; cases e; exact hf

/-- A request that writes none of the link. -/
theorem LinkKept.requestBeside {r : Request} {judge : State → Judged} {s t : State} {w : List Part}
    (hj : Frame w (Machine.received s) (judge (Machine.received s)).2) (h : P s.link)
    (e : inRun (Machine.takeRequest r judge) s = .next t) (hw : Part.link ∉ w := by simp) : P t.link :=
  link_inRun (hP.takeRequest r (fun hr => (hj.same .link hw).symm ▸ hr) h) h e

omit hP in
/-- A command that writes none of the link. -/
theorem link_beside {f : State → State} {s t : State} {w : List Part} (hf : Frame w s (f s)) (h : P s.link)
    (e : inRun f s = .next t) (hw : Part.link ∉ w := by simp) : P t.link :=
  link_inRun ((hf.same .link hw).symm ▸ h) h e

/-- The commands of the supply reset the link or leave it. -/
theorem LinkKept.power {c : Instr} {s t : State} (hc : isPowerCommand c = true) (e : exec c s = .next t)
    (h : P s.link) : P t.link := by
  obtain ⟨x, rfl, -⟩ | ⟨p, x, rfl⟩ := power_cases hc e
  · exact h
  · exact hP.reset p

omit hP in
/-- The deck's lines leave the link. -/
theorem link_deckLine {c : Instr} {s t : State} (hc : isDeckLine c = true) (e : exec c s = .next t)
    (h : P s.link) : P t.link := ((deckLine_frame hc e).same .link).symm ▸ h

/-- Every command keeps what the operations of the link keep. -/
theorem LinkKept.exec {c : Instr} {s t : State} (h : P s.link) (e : Machine.exec c s = .next t) : P t.link := by
  cases c
  case powerUp => exact hP.power rfl e h
  case brownout => exact hP.power rfl e h
  case resetPinLow => exact hP.power rfl e h
  case supplyRecovery => exact hP.power rfl e h
  case resetPinRelease => exact hP.power rfl e h
  case threadedChange => exact link_deckLine rfl e h
  case localChange => exact link_deckLine rfl e h
  case eotChange => exact link_deckLine rfl e h
  case servoFall => exact link_deckLine rfl e h
  case rectallyRise => exact link_deckLine rfl e h
  case referencePulse time first => exact link_inRun (hP.referencePulse time first h) h e
  case missingLimitPresent => exact link_inRun (hP.missingLimitPresent h) h e
  case missingLimitSettling => exact link_beside (missingLimitSettling_frame s) h e
  case internalBoundary => exact link_inRun (hP.internalBoundary h) h e
  case transitionComplete => exact link_beside (transitionComplete_frame s) h e
  case mixRecordEnd => exact link_beside (endMixRecord_frame s) h e
  case peerSilenceClear st => exact link_beside (setPeers_frame s _) h e
  case reportExpiry => exact link_inRun (hP.expire s h) h e
  case candidateExpiry => exact link_beside (PosMove.candidate s).frame h e
  case silentCountExpiry => exact link_beside (PosMove.silence s).frame h e
  case servoTimerExpiry => exact link_beside (servoExpiry_frame s) h e
  case tallyTimerExpiry => exact link_beside (tallyExpiry_frame s) h e
  case pulseEnd line => exact link_beside (updateOutput_frame line _ s) h e
  case recordLengthEnd => exact link_beside (recordLengthEnd_frame s) h e
  case notReadyLimit => exact link_beside (notReadyLimit_frame s) h e
  case freewheelExpiry => exact link_beside (freewheelStop_frame s) h e
  case chaseLock => exact link_beside (chaseLock_frame s) h e
  case outWindowExpiry => exact link_beside (outWindowExpiry_frame s) h e
  case locateSettle => exact link_beside (locateSettle_edit s).frame h e
  case locateAcquireLimit => exact link_beside (locateAcquireLimit_edit s).frame h e
  case locateRecordLimit => exact link_beside (locateRecordLimit_edit s).frame h e
  case locateEotLimit => exact link_beside (locateEotLimit_edit s).frame h e
  case tachPulse forward => exact link_beside (PosMove.tach s forward).frame h e
  case timecodeWord label backward => exact link_beside (PosMove.word s label backward).frame h e
  case gpiEdge line rise => exact link_beside (gpiEdge_frame line rise s) h e
  case gpiSample levels => exact link_beside (gpiSample_frame levels s) h e
  case lineQuiet time => exact link_inRun (hP.lineQuiet time h) h e
  case deferralEnd time => exact link_inRun (hP.deferral time h) h e
  case startBitSeen => exact link_inRun (hP.startBit s h) h e
  case frameSent => exact link_inRun (hP.sent s h) h e
  case collision => exact link_inRun (hP.collide s h) h e
  case jamEnd => exact link_inRun (hP.jamEnd s h) h e
  case gapError time => exact link_inRun (hP.gapError time h) h e
  case positionArrival source payload =>
    exact link_inRun (hP.arrive source (fun hr => ((takeBulletin_frame source payload _).same .link).symm ▸ hr) h) h e
  case reportArrival source payload => exact link_inRun (hP.arrive source id h) h e
  case unknownKindArrival kind source payload => exact link_inRun (hP.arrive source id h) h e
  case requestNotAddressed source payload =>
    refine link_inRun ?_ h e
    unfold requestNotAddressed; split
    · exact hP.arrive source id h
    · exact h
  case refusedUnknown code r =>
    refine link_inRun ?_ h e
    unfold refusedUnknown; split
    · exact h
    · exact hP.takeRequest r id h
  case frameStart start next => exact link_inRun (hP.frameStart _ h) h e
  case brokenFrame line => exact link_inRun (hP.brokenFrame line h) h e
  case stop r => exact hP.requestBeside (judgeStop_frame r _) h e
  case play r => exact hP.requestBeside (judgePlay_frame r _) h e
  case shuttle r => exact hP.requestBeside (judgeShuttle_frame r _) h e
  case locate r => exact hP.requestBeside (judgeLocate_frame r _) h e
  case arm r => exact hP.requestBeside (judgeArm_frame r _) h e
  case chase r => exact hP.requestBeside (judgeChase_frame r _) h e
  case unchase r => exact hP.requestBeside (judgeUnchase_frame r _) h e
  case cueLoad r => exact hP.requestBeside (judgeCueLoad_frame r _) h e
  case cueDrop r => exact hP.requestBeside (judgeCueDrop_frame r _) h e
  case cueClear r => exact hP.requestBeside (judgeCueClear_frame r _) h e
  case fire r => exact hP.requestBeside (judgeFire_frame r _) h e
  case abort r => exact hP.requestBeside (judgeAbort_frame r _) h e
  case fader r => exact hP.requestBeside (judgeFader_frame r _) h e
  case mark r => exact hP.requestBeside (judgeMark_frame r _) h e
  case markDrop r => exact hP.requestBeside (judgeMarkDrop_frame r _) h e
  case locateMark r => exact hP.requestBeside (judgeLocateMark_frame r _) h e
  case gpiBind r => exact hP.requestBeside (judgeGpiBind_frame r _) h e
  case tallyMap r => exact hP.requestBeside (judgeTallyMap_frame r _) h e
  case clearFlags r => exact hP.requestBeside (judgeClearFlags_frame r _) h e
  case sessionClear r => exact hP.requestBeside (judgeSessionClear_frame r _) h e
  case readStatus r =>
    refine link_inRun (hP.takeRequest r (fun hr => ?_) h) h e
    unfold judgeReadStatus withLength; split
    · exact hP.answerReport (fun u => reportHeader 1 r ++ statusBody u) hr
    · exact hr
  case readCues r =>
    refine link_inRun (hP.takeRequest r (fun hr => ?_) h) h e
    unfold judgeReadCues withLength; split
    · split
      · exact hP.answerReport (fun u => reportHeader 2 r ++ cuesBody (byteAt r.params 0) u) hr
      · exact hr
    · exact hr
  case readMarks r =>
    refine link_inRun (hP.takeRequest r (fun hr => ?_) h) h e
    unfold judgeReadMarks withLength; split
    · exact hP.answerReport (fun u => reportHeader 3 r ++ marksBody u) hr
    · exact hr

end

end Sys2Proof.Machine

/-! SUPPORT and O59. The link's queue, register and receiver: each operation of the Suite Link Interface keeps them sound,
hence every command. -/

namespace Sys2Proof.Machine

set_option Elab.async false

/-! ### The register (R41) -/

theorem stepRegister_getLsbD_zero (r : BitVec 15) :
    (stepRegister r).getLsbD 0 = (r.getLsbD 14 ^^ r.getLsbD 13) := by
  simp [stepRegister]

theorem stepRegister_getLsbD_succ (r : BitVec 15) {i : Nat} (h : i < 14) :
    (stepRegister r).getLsbD (i + 1) = r.getLsbD i := by
  have h1 : i + 1 < 15 := by omega
  simp [stepRegister, h1, BitVec.getLsbD_eq_getElem (show i < 15 by omega)]

/-- Only zero leads to zero: fourteen bits move up, and the last two decide the new one. -/
theorem stepRegister_ne_zero {r : BitVec 15} (h : r ≠ 0) : stepRegister r ≠ 0 := by
  intro e
  have low (i : Nat) (hi : i < 14) : r.getLsbD i = false := by
    rw [← stepRegister_getLsbD_succ r hi, e]; simp
  have top : r.getLsbD 14 = false := by
    have h0 := stepRegister_getLsbD_zero r
    rw [e, low 13 (by omega)] at h0
    simpa using h0.symm
  refine h (BitVec.eq_of_getLsbD_eq fun i hi => ?_)
  obtain rfl | hi : i = 14 ∨ i < 14 := by omega
  · simpa using top
  · simpa using low i hi

/-! ### Soundness of a link -/

/-- `LinkSound` of the link alone. -/
def SoundLink (l : Link) : Prop :=
  l.backoff ≠ 0 ∧ reportsHeld l ≤ 3 ∧ (∀ f ∈ l.reports, FrameSound f ∧ f.kind = .report)
    ∧ (∀ f ∈ l.position, FrameSound f ∧ f.kind = .position) ∧ PhaseSound l ∧ (l.rx = .frame → l.quiet = false)

theorem linkSound_iff (s : State) : LinkSound s ↔ SoundLink s.link := Iff.rfl

theorem soundLink_stepBackoff {s : State} (h : SoundLink s.link) : SoundLink (stepBackoff s).link :=
  ⟨stepRegister_ne_zero h.1, h.2⟩

/-- The seed of any station fits the register (R41). -/
theorem backoffSeed_toNat (own : Station) : (backoffSeed own).toNat = own.val * 1999 + 1 := by
  have h := own.isLt
  rw [backoffSeed, BitVec.toNat_ofNat]
  exact Nat.mod_eq_of_lt (by omega)

theorem soundLink_reset (p : Straps) : SoundLink (Link.atReset p) := by
  refine ⟨?_, by simp [reportsHeld, Link.atReset], by simp [Link.atReset], by simp [Link.atReset],
    by simp [PhaseSound, Link.atReset], by simp [Link.atReset]⟩
  intro e
  have he : (backoffSeed p.station).toNat = 0 := congrArg BitVec.toNat e
  rw [backoffSeed_toNat] at he
  omega

/-- Taking a report from the head to the line leaves as many held. -/
theorem soundLink_startHead {s : State} (h : SoundLink s.link) : SoundLink (startHead s).link := by
  obtain ⟨hb, hr, hs, hp, hph, hq⟩ := h
  unfold startHead
  split
  · rename_i f hf
    have ⟨ff, fk⟩ := hp f (by simp [hf])
    split
    · refine ⟨hb, ?_, hs, by simp, ⟨ff, rfl, rfl⟩, by simp⟩
      have : reportsHeld s.link = s.link.reports.length + _ := rfl
      simp only [reportsHeld, State.setLink_link, fk]; simp; omega
    · refine ⟨hb, ?_, hs, hp, trivial, hq⟩
      simp only [reportsHeld, State.setLink_link] at hr ⊢; omega
  · unfold startReport
    split
    · exact ⟨hb, hr, hs, hp, hph, hq⟩
    · rename_i f rest hf
      have ⟨ff, fk⟩ := hs f (by simp [hf])
      refine ⟨hb, ?_, fun g hg => hs g (by simp [hf, show g ∈ rest from hg]), hp, ⟨ff, rfl, rfl⟩, by simp⟩
      simp only [reportsHeld, State.setLink_link, fk, hf, List.length_cons] at hr ⊢; simp; omega

theorem windowOf_le (n : Nat) : windowOf n ≤ 64 := by
  have h : drawBits n ≤ 6 := Nat.min_le_left _ _
  exact Nat.pow_le_pow_right Nat.two_pos h

theorem drawSlots_lt (r : BitVec 15) (n : Nat) : drawSlots r n < 64 :=
  Nat.lt_of_lt_of_le (Nat.mod_lt _ (Nat.two_pow_pos _)) (windowOf_le n)

theorem reportsHeld_idle {l : Link} (h : ∀ f g, l.phase ≠ .sending f g) : reportsHeld l = l.reports.length := by
  unfold reportsHeld
  split
  · rename_i f g e; exact absurd e (h f g)
  all_goals rfl

theorem soundLink_beginDeferral {s : State} (h : SoundLink s.link) : SoundLink (beginDeferral s).link := by
  unfold beginDeferral
  split
  · rename_i hc
    split
    · rename_i f hf
      unfold deferFor
      dsimp only
      have h' := soundLink_stepBackoff h
      split
      · exact soundLink_startHead h'
      · rename_i hk
        obtain ⟨hb, hr, hs, hp, hph, hq⟩ := h'
        refine ⟨hb, ?_, hs, hp, ⟨Nat.pos_of_ne_zero hk, drawSlots_lt _ _, hc.1⟩, hq⟩
        have hi : (stepBackoff s).link.phase = .idle := hc.2.1
        rw [reportsHeld_idle (by simp [hi])] at hr
        rw [reportsHeld_idle (by simp)]
        exact hr
    · exact h
  · exact h

theorem soundLink_abandonDeferral {s : State} (h : SoundLink s.link) : SoundLink (abandonDeferral s).link := by
  unfold abandonDeferral
  split
  · rename_i k hk
    obtain ⟨hb, hr, hs, hp, hph, hq⟩ := h
    refine ⟨hb, ?_, hs, hp, trivial, hq⟩
    rw [reportsHeld_idle (by simp [hk])] at hr
    rw [reportsHeld_idle (by simp)]
    exact hr
  all_goals exact h

theorem soundLink_headChanged {s : State} (h : SoundLink s.link) : SoundLink (headChanged s).link :=
  soundLink_beginDeferral (soundLink_abandonDeferral h)

theorem soundLink_restart {before s : State} (h : SoundLink s.link) : SoundLink (restartIfChanged before s).link := by
  unfold restartIfChanged; split
  · exact h
  · exact soundLink_headChanged h

/-- The place of the POSITION holds a sound frame or none. -/
theorem soundLink_setPosition {l : Link} (h : SoundLink l) (x : Option TxFrame) (held : Bool)
    (hx : ∀ f ∈ x, FrameSound f ∧ f.kind = .position) : SoundLink { l with position := x, heldBack := held } :=
  ⟨h.1, h.2.1, h.2.2.1, hx, h.2.2.2.2⟩

theorem soundLink_dropFrames {s : State} (n : Nat) (h : SoundLink s.link) : SoundLink (dropFrames n s).link := h

theorem soundLink_dropPosition {s : State} (h : SoundLink s.link) : SoundLink (dropPosition s).link :=
  soundLink_setPosition h none false (by simp)

theorem soundLink_letGo {s : State} (h : SoundLink s.link) : SoundLink (letGo s).link := by
  unfold letGo
  split
  · rename_i f g hf
    split
    · obtain ⟨hb, hr, hs, hp, hph, hq⟩ := h
      simp only [PhaseSound, hf] at hph
      refine ⟨hb, ?_, hs, hp, hph, hq⟩
      simp only [reportsHeld, hf] at hr
      exact hr
    · exact h
  all_goals exact h

theorem soundLink_joinPosition (payload : List Byte) {s : State} (h : SoundLink s.link) :
    SoundLink (joinPosition payload s).link := by
  unfold joinPosition
  refine soundLink_headChanged (soundLink_setPosition ?_ _ _ (by simp [FrameSound]))
  split
  · exact soundLink_dropPosition h
  · exact soundLink_letGo h

theorem soundLink_joinReport (payload : List Byte) {s : State} (hn : reportsHeld s.link < 3) (h : SoundLink s.link) :
    SoundLink (joinReport payload s).link := by
  unfold joinReport
  refine soundLink_beginDeferral ?_
  obtain ⟨hb, hr, hs, hp, hph, hq⟩ := h
  refine ⟨hb, ?_, ?_, hp, hph, hq⟩
  · simp only [reportsHeld, State.setLink_link, List.length_append, List.length_cons, List.length_nil] at hn ⊢
    omega
  · intro f hf
    simp only [State.setLink_link, List.mem_append, List.mem_singleton] at hf
    obtain hf | rfl := hf
    · exact hs f hf
    · simp [FrameSound]

theorem soundLink_dropExpired {s : State} (h : SoundLink s.link) : SoundLink (dropExpired s).link := by
  obtain ⟨hb, hr, hs, hp, hph, hq⟩ := h
  refine ⟨hb, ?_, fun f hf => hs f (List.mem_of_mem_filter hf), hp, hph, hq⟩
  have hl := List.length_filter_le (fun f => !TxFrame.expired f s.time.fieldCount) s.link.reports
  simp only [reportsHeld, dropExpired, dropFrames, State.setLink_link] at hr ⊢
  omega

theorem soundLink_settlePosition {s : State} (h : SoundLink s.link) : SoundLink (settlePosition s).link := by
  unfold settlePosition letOldGo
  split
  · split
    · exact h
    · exact soundLink_dropPosition h
  · split
    · split
      · exact h
      · exact soundLink_letGo h
    all_goals exact h

/-- A receiver that is set to another state than FRAME, the line being as it was. -/
theorem soundLink_receive {l : Link} {x : RxState} (h : SoundLink l) (hx : x = .ignore ∨ (x = .wait ∧ driverReleased l = true))
    (n : Nat) : SoundLink { l with rx := x, rxBad := n } := by
  obtain ⟨hb, hr, hs, hp, hph, hq⟩ := h
  refine ⟨hb, hr, hs, hp, ?_, ?_⟩
  · unfold PhaseSound driverReleased at *
    split at hph <;> rename_i e <;> simp only [e] at * <;> simp_all
  · obtain rfl | ⟨rfl, -⟩ := hx <;> simp

/-- A line that becomes quiet, or ceases to be so with no deferral running, while the station drives nothing. -/
theorem soundLink_setQuiet {l : Link} (h : SoundLink l) (x : RxState) (q : Bool) (hd : driverReleased l = true)
    (hk : q = false → ∀ k, l.phase ≠ .deferring k) (hx : x = .frame → q = false) :
    SoundLink { l with quiet := q, rx := x } := by
  obtain ⟨hb, hr, hs, hp, hph, hq⟩ := h
  refine ⟨hb, hr, hs, hp, ?_, hx⟩
  unfold PhaseSound driverReleased at *
  split at hph
  · rename_i e; simp only [e]
  · rename_i k e
    simp only [e]
    refine ⟨hph.1, hph.2.1, ?_⟩
    by_contra hf
    exact hk (by simpa using hf) k e
  · rename_i e; simp [e] at hd
  · rename_i e; simp [e] at hd

theorem soundLink_quietNow {s : State} (hd : driverReleased s.link = true) (h : SoundLink s.link) :
    SoundLink (quietNow s).link := by
  unfold quietNow
  refine soundLink_beginDeferral ?_
  split
  · exact soundLink_setQuiet (soundLink_receive h (.inr ⟨rfl, hd⟩) _) .wait true hd (by simp) (by simp)
  · exact soundLink_setQuiet h .wait true hd (by simp) (by simp)

theorem abandonDeferral_not_deferring (s : State) (k : Nat) : (abandonDeferral s).link.phase ≠ .deferring k := by
  unfold abandonDeferral
  split
  · simp
  all_goals (rename_i e; simp [e])

theorem driverReleased_abandon {s : State} (h : driverReleased s.link = true) :
    driverReleased (abandonDeferral s).link = true := by
  unfold abandonDeferral
  split
  · rfl
  all_goals exact h

theorem soundLink_startBit {s : State} (h : SoundLink s.link) : SoundLink (startBit s).link := by
  unfold startBit
  split
  · rename_i hd
    exact soundLink_setQuiet (soundLink_abandonDeferral h) _ false (driverReleased_abandon hd)
      (fun _ => abandonDeferral_not_deferring s) (fun _ => rfl)
  · exact h

theorem startBit_released {s : State} (h : driverReleased s.link = true) :
    driverReleased (startBit s).link = true ∧ (startBit s).link.quiet = false
      ∧ ∀ k, (startBit s).link.phase ≠ .deferring k := by
  unfold startBit
  rw [if_pos h]
  exact ⟨driverReleased_abandon h, rfl, abandonDeferral_not_deferring s⟩

theorem soundLink_judgeStart (first : LinkChar) (second : Option LinkChar) {s : State} (h : SoundLink s.link) :
    SoundLink (judgeStart first second s).link := by
  unfold judgeStart
  split
  · rename_i hc
    obtain ⟨hd, hq, hk⟩ := startBit_released hc.2
    have hs := soundLink_setQuiet (soundLink_startBit h)
      (if startRecognised first second then .frame else .ignore) false hd (fun _ => hk) (fun _ => rfl)
    rw [← hq] at hs
    exact hs
  · exact h

theorem soundLink_setIdle {l : Link} (h : SoundLink l) : SoundLink { l with phase := .idle } := by
  obtain ⟨hb, hr, hs, hp, hph, hq⟩ := h
  refine ⟨hb, ?_, hs, hp, trivial, hq⟩
  simp only [reportsHeld] at hr ⊢; omega

theorem soundLink_frameSent {s : State} (h : SoundLink s.link) : SoundLink (frameSent s).link := by
  unfold frameSent
  split
  · exact soundLink_setIdle h
  all_goals exact h

theorem soundLink_jamEnd {s : State} (h : SoundLink s.link) : SoundLink (jamEnd s).link := by
  unfold jamEnd
  split
  · exact soundLink_setIdle h
  all_goals exact h

/-- A collided frame goes back to the place it came from with fewer than 8 collisions, or is dropped (R45). -/
theorem soundLink_collide {s : State} (h : SoundLink s.link) : SoundLink (collide s).link := by
  unfold collide
  split
  · rename_i f gone hf
    obtain ⟨hb, hr, hs, hp, hph, hq⟩ := h
    simp only [PhaseSound, hf] at hph
    obtain ⟨ff, hx, hquiet⟩ := hph
    simp only [reportsHeld, hf] at hr
    have jam : SoundLink { s.link with phase := .jamming, collisions := bumpCounter s.link.collisions } :=
      ⟨hb, by simp only [reportsHeld]; omega, hs, hp, ⟨hx, hquiet⟩, hq⟩
    unfold settleCollided
    split
    · unfold flagDropped; split <;> exact jam
    · split
      · unfold flagDropped; split <;> exact jam
      · rename_i hn
        have hg : FrameSound { f with collisions := f.collisions + 1 } := by unfold FrameSound; simp only; omega
        unfold returnFrame
        split
        · rename_i hk
          refine soundLink_setPosition jam _ false fun g hgm => ?_
          obtain rfl := Option.mem_some.mp hgm
          exact ⟨hg, hk⟩
        · rename_i hk
          refine ⟨hb, ?_, ?_, hp, ⟨hx, hquiet⟩, hq⟩
          · simp only [reportsHeld, State.setLink_link, hk, List.length_cons, if_true] at hr ⊢; omega
          · intro g hgm
            simp only [State.setLink_link, List.mem_cons] at hgm
            obtain rfl | hgm := hgm
            · exact ⟨hg, hk⟩
            · exact hs g hgm
  all_goals exact h

theorem linkKept_sound : LinkKept SoundLink where
  reset := soundLink_reset
  received s _ h := soundLink_receive h (.inl rfl) s.link.rxBad
  discard _ _ h := soundLink_receive h (.inl rfl) _
  quiet _ hd h := soundLink_quietNow hd h
  startBit _ h := soundLink_startBit h
  judgeStart first second _ h := soundLink_judgeStart first second h
  deferralEnd _ _ _ h := soundLink_startHead h
  sent _ h := soundLink_frameSent h
  collide _ h := soundLink_collide h
  jamEnd _ h := soundLink_jamEnd h
  expire _ h := soundLink_restart (soundLink_dropExpired h)
  boundary _ h := soundLink_restart (soundLink_dropExpired (soundLink_settlePosition (soundLink_stepBackoff h)))
  joinPosition payload _ h := soundLink_joinPosition payload h
  joinReport payload _ hn h := soundLink_joinReport payload hn h

/-- What the operations of the link keep, every step keeps. -/
theorem LinkKept.step {P : Link → Prop} (hP : LinkKept P) {s t : State} (h : P s.link)
    (e : Machine.step s = .next t) : P t.link := by
  unfold Machine.step at e
  split at e
  · cases e; exact h
  · exact hP.exec (by exact h) e

/-- Settles O59: the operations of the link keep it sound one by one, hence every step. -/
theorem linkStaysSound : Obligations.LinkStaysSound := fun _ _ hs h => linkKept_sound.step hs h

/-! ### The link's counters -/

/-- No counter of the link passes 65,535 (R49). -/
def LinkCounters (l : Link) : Prop := l.rxBad ≤ 65535 ∧ l.collisions ≤ 65535 ∧ l.txDropped ≤ 65535

theorem startHead_counters (s : State) : LinkCounters s.link → LinkCounters (startHead s).link := by
  unfold startHead startReport
  intro h
  split
  · split <;> exact h
  · split <;> exact h

theorem beginDeferral_counters {s : State} (h : LinkCounters s.link) : LinkCounters (beginDeferral s).link := by
  unfold beginDeferral
  split
  · split
    · unfold deferFor
      dsimp only
      split
      · exact startHead_counters _ h
      · exact h
    · exact h
  · exact h

theorem abandonDeferral_counters {s : State} (h : LinkCounters s.link) : LinkCounters (abandonDeferral s).link := by
  unfold abandonDeferral
  split <;> exact h

theorem restart_counters {before s : State} (h : LinkCounters s.link) :
    LinkCounters (restartIfChanged before s).link := by
  unfold restartIfChanged; split
  · exact h
  · exact beginDeferral_counters (abandonDeferral_counters h)

theorem dropFrames_counters {s : State} (n : Nat) (h : LinkCounters s.link) : LinkCounters (dropFrames n s).link :=
  ⟨h.1, h.2.1, bumpCounterBy_le n h.2.2⟩

theorem letGo_counters {s : State} (h : LinkCounters s.link) : LinkCounters (letGo s).link := by
  unfold letGo
  split
  · split <;> exact h
  all_goals exact h

theorem dropPosition_counters {s : State} (h : LinkCounters s.link) : LinkCounters (dropPosition s).link := by
  unfold dropPosition
  exact dropFrames_counters 1 (s := s.setLink { s.link with position := none, heldBack := false }) h

theorem settlePosition_counters {s : State} (h : LinkCounters s.link) : LinkCounters (settlePosition s).link := by
  unfold settlePosition letOldGo
  split
  · split
    · exact h
    · exact dropPosition_counters h
  · split
    · split
      · exact h
      · exact letGo_counters h
    all_goals exact h

theorem dropExpired_counters {s : State} (h : LinkCounters s.link) : LinkCounters (dropExpired s).link :=
  ⟨h.1, h.2.1, bumpCounterBy_le _ h.2.2⟩

theorem startBit_counters {s : State} (h : LinkCounters s.link) : LinkCounters (startBit s).link := by
  unfold startBit; split
  · exact abandonDeferral_counters h
  · exact h

theorem collide_counters {s : State} (h : LinkCounters s.link) : LinkCounters (collide s).link := by
  unfold collide
  split
  · have k : LinkCounters { s.link with phase := .jamming, collisions := bumpCounter s.link.collisions } :=
      ⟨h.1, bumpCounter_le h.2.1, h.2.2⟩
    have d : LinkCounters (dropFrames 1 (s.setLink
        { s.link with phase := .jamming, collisions := bumpCounter s.link.collisions })).link :=
      ⟨k.1, k.2.1, bumpCounterBy_le 1 k.2.2⟩
    unfold settleCollided flagDropped returnFrame
    split
    · split <;> exact d
    · split
      · split <;> exact d
      · split <;> exact k
  all_goals exact h

theorem linkKept_counters : LinkKept LinkCounters where
  reset p := by simp [LinkCounters, Link.atReset]
  received _ _ h := h
  discard _ _ h := ⟨bumpCounter_le h.1, h.2⟩
  quiet _ _ h := by
    unfold quietNow
    refine beginDeferral_counters ?_
    split
    · exact ⟨bumpCounter_le h.1, h.2⟩
    · exact h
  startBit _ h := startBit_counters h
  judgeStart first second s h := by
    unfold judgeStart; split
    · exact startBit_counters h
    · exact h
  deferralEnd s _ _ h := startHead_counters s h
  sent s h := by unfold frameSent; split <;> exact h
  collide _ h := collide_counters h
  jamEnd s h := by unfold jamEnd; split <;> exact h
  expire _ h := restart_counters (dropExpired_counters h)
  boundary s h := restart_counters (dropExpired_counters (settlePosition_counters (s := stepBackoff s) h))
  joinPosition payload s h := by
    unfold joinPosition headChanged
    refine beginDeferral_counters (abandonDeferral_counters ?_)
    split
    · exact dropPosition_counters h
    · exact letGo_counters h
  joinReport payload s _ h := by
    unfold joinReport
    exact beginDeferral_counters h

end Sys2Proof.Machine

/-! SUPPORT and O60. Marks, counters, speeds, the port and the timebase: each is shown by the changes that write it. -/

namespace Sys2Proof.Machine

set_option Elab.async false

/-! ### Marks -/

theorem marksSound_move {s t : State} (hs : MarksSound s) (m : Move s t) : MarksSound t := by
  obtain h | h | h | ⟨o, rfl⟩ := m.sorted.marks_cases
  · unfold MarksSound; rw [h]; exact hs
  · unfold MarksSound; rw [h]; simp
  · unfold MarksSound; rw [h]
    exact ⟨by rw [List.length_tail]; exact (Nat.sub_le _ _).trans hs.1, fun k hk => hs.2 k (List.mem_of_mem_tail hk)⟩
  · exact pushMark_sound o hs.1 hs.2

/-! ### Counters of the Position Unit -/

/-- The two counters of the Position Unit stay within 65,535 (R110). -/
def PosCounters (p : Position) : Prop := p.tcRejects ≤ 65535 ∧ p.jams ≤ 65535

theorem judgeWord_counters (c : Nat) (backward : Bool) {s : State} (h : PosCounters s.pos) :
    PosCounters (judgeWord c backward s).pos := by
  unfold judgeWord; dsimp only; split <;> exact h

theorem jumpFlag_pos (q : Quality) (s : State) : (jumpFlag q s).pos = s.pos := by
  unfold jumpFlag; split <;> rfl

theorem jamTo_counters (x : Nat) {s : State} (h : PosCounters s.pos) : PosCounters (jamTo x s).pos := by
  unfold jamTo
  rw [jumpFlag_pos]
  exact ⟨h.1, bumpCounter_le h.2⟩

theorem bumpRejects_counters {s : State} (h : PosCounters s.pos) : PosCounters (bumpRejects s).pos :=
  ⟨bumpCounter_le h.1, h.2⟩

theorem discardCandidate_counters {s : State} (h : PosCounters s.pos) : PosCounters (discardCandidate s).pos :=
  ⟨bumpCounter_le h.1, h.2⟩

theorem takeWord_counters (c : Nat) (backward : Bool) {s : State} (h : PosCounters s.pos) :
    PosCounters (takeWord c backward s).pos := by
  unfold takeWord
  split
  · exact judgeWord_counters c backward h
  · split
    · exact jamTo_counters _ h
    · exact judgeWord_counters c backward (discardCandidate_counters h)

theorem expireCandidate_counters {s : State} (h : PosCounters s.pos) : PosCounters (expireCandidate s).pos := by
  unfold expireCandidate
  split
  · split
    · exact discardCandidate_counters h
    · exact h
  · exact h

theorem expireSilence_counters {s : State} (h : PosCounters s.pos) : PosCounters (expireSilence s).pos := by
  unfold expireSilence; split <;> exact h

theorem positionBoundary_counters {s : State} (h : PosCounters s.pos) : PosCounters (positionBoundary s).pos := by
  unfold positionBoundary
  split
  · unfold publishDeck countSilence
    have k := expireCandidate_counters h
    dsimp only
    split
    · exact expireSilence_counters (s := (expireCandidate s).setPos _) k
    · exact expireSilence_counters k
  · exact h

theorem PosMove.counters {s t : State} (m : PosMove s t) (h : PosCounters s.pos) : PosCounters t.pos := by
  cases m with
  | tach forward => unfold tachPulse; split <;> exact h
  | word label backward =>
    unfold timecodeWord
    split
    · split
      · exact takeWord_counters _ _ h
      · exact bumpRejects_counters h
    · exact h
  | candidate => exact expireCandidate_counters h
  | silence => exact expireSilence_counters h
  | publish => exact positionBoundary_counters h
  | virtual => unfold setVirtual; split <;> exact h

theorem posCounters_move {s t : State} (hs : PosCounters s.pos) (m : Move s t) : PosCounters t.pos := by
  obtain ⟨p, x, rfl⟩ | h | ⟨h, -⟩ | h := m.sorted.pos_cases
  · exact ⟨Nat.zero_le _, Nat.zero_le _⟩
  · rw [h]; exact hs
  · rw [h]; exact hs
  · exact h.counters hs

/-! ### Speeds -/

/-- Speeds of the Transport Controller alone. -/
def SpeedsHeld (t : Transport) : Prop :=
  CommandSound t.command ∧ (∀ l ∈ t.locate, CommandSound l.drive) ∧ -12800 ≤ t.speedWord ∧ t.speedWord ≤ 12800

theorem speedsHeld_punch {t : Transport} (h : SpeedsHeld t) (p : Option Punch) : SpeedsHeld { t with punch := p } := h

/-- Only the record lines may have changed. -/
theorem speedsHeld_lines {w : List Part} {s t : State} (f : Frame w s t) (h : SpeedsHeld s.tr)
    (hw : Part.transport ∉ w := by simp) : SpeedsHeld t.tr := by
  have e : t.tr = { s.tr with punch := t.tr.punch } := f.same .transport hw
  rw [e]; exact h

theorem takeCommand_speeds {c : Command} (hc : CommandSound c) {s : State} (h : SpeedsHeld s.tr) :
    SpeedsHeld (takeCommand c s).tr := by
  unfold takeCommand; split
  · exact speedsHeld_lines (breakRecord_frame _) ⟨hc, by simp, h.2.2⟩
  · exact h

theorem giveLocate_speeds (skips : Option Word16) (target : Nat) {s : State} (h : SpeedsHeld s.tr) :
    SpeedsHeld (giveLocate skips target s).tr := by
  unfold giveLocate
  split
  · split
    · rename_i l hl
      exact ⟨h.1, by simpa [Locate.retarget] using h.2.1 l hl, h.2.2⟩
    · refine speedsHeld_lines (breakRecord_frame _) ⟨h.1, ?_, h.2.2⟩
      intro l hl
      obtain rfl := Option.mem_some.mp hl
      unfold Locate.start; dsimp only
      split
      · exact playSound
      · exact h.1
  · exact h

theorem wantedDrive_sound {t : Transport} (h : SpeedsHeld t) : CommandSound (wantedDrive t) := by
  unfold wantedDrive
  split
  · rename_i l hl; exact h.2.1 l hl
  · exact h.1

theorem eotDrive_sound (eot : Bool) {c : Command} (h : CommandSound c) : CommandSound (eotDrive eot c) := by
  unfold eotDrive; split
  · exact stopSound
  · exact h

/-- The drive on the port is within the command range. -/
theorem drive_sound {s : State} (h : SpeedsHeld s.tr) {c : Command} (hc : drive s = some c) : CommandSound c := by
  unfold drive at hc
  split at hc
  · cases hc
  · split at hc
    · cases hc
    · split at hc
      · cases hc; exact stopSound
      · split at hc
        · cases hc
        · cases hc
          exact eotDrive_sound _ (wantedDrive_sound h)

theorem sendSpeedWord_speeds {s : State} (h : SpeedsHeld s.tr) : SpeedsHeld (sendSpeedWord s).tr := by
  unfold sendSpeedWord
  split
  · rename_i c hc
    have k := drive_sound h hc
    refine ⟨h.1, h.2.1, ?_⟩
    cases c with
    | stop => simp [Command.word]
    | speed v => exact k
  · exact ⟨h.1, h.2.1, by simp [stopSpeedWord]⟩

theorem tallyExpiry_speeds {s : State} (h : SpeedsHeld s.tr) : SpeedsHeld (tallyExpiry s).tr := by
  unfold tallyExpiry
  split
  · split <;> exact h
  · exact h

theorem TransportMove.speeds {s t : State} (m : TransportMove s t) (h : SpeedsHeld s.tr) : SpeedsHeld t.tr := by
  cases m with
  | command c hc => exact takeCommand_speeds hc h
  | locate skips target => exact giveLocate_speeds skips target h
  | locateGoesOn l m hl _ hd => exact ⟨h.1, by simpa using hd (h.2.1 l hl), h.2.2⟩
  | tallyExpiry => exact tallyExpiry_speeds h
  | speedWord => exact sendSpeedWord_speeds h
  | countServo | countTally | arm => exact h

/-- Without a locate and with STOP for the command only the speed word is left to be sound. -/
theorem speedsHeld_stopped {s : State} (h : SpeedsHeld s.tr) (parked : Bool) :
    SpeedsHeld { s.tr with command := .stop, locate := none, parkedMark := parked } := ⟨stopSound, by simp, h.2.2⟩

theorem LocateEnd.speeds {s t : State} (m : LocateEnd s t) (h : SpeedsHeld s.tr) : SpeedsHeld t.tr := by
  cases m with
  | success l => rw [locateSucceed_touches]; exact speedsHeld_stopped h true
  | failure l => rw [locateFail_touches]; exact speedsHeld_stopped h false

theorem quietPort_speeds {s : State} (h : SpeedsHeld s.tr) : SpeedsHeld (quietPort s).tr := by
  unfold quietPort; split
  · exact h
  · exact ⟨h.1, h.2.1, by simp [stopSpeedWord]⟩

theorem dropDeck_speeds {s : State} (h : SpeedsHeld s.tr) : SpeedsHeld (dropDeck s).tr :=
  speedsHeld_lines (breakRecord_frame _) ⟨stopSound, by simp, h.2.2⟩

theorem failLocate_speeds {s : State} (h : SpeedsHeld s.tr) : SpeedsHeld (failLocate s).tr := by
  unfold failLocate; split
  · rename_i l hl; exact LocateEnd.speeds (.failure s l hl) h
  · exact h

theorem deckLine_speeds {c : Instr} {s t : State} (hc : isDeckLine c = true) (e : exec c s = .next t)
    (h : SpeedsHeld s.tr) : SpeedsHeld t.tr := by
  obtain ⟨level, rfl | rfl | rfl | rfl | rfl⟩ := deckLine_cases hc e
  · unfold threadedChange threadedTaken loseTape; dsimp only
    split
    · split
      · exact quietPort_speeds ⟨stopSound, h.2⟩
      · exact dropDeck_speeds (failLocate_speeds h)
    · exact h
  · unfold localChange localTaken; dsimp only
    split
    · split
      · exact quietPort_speeds (dropDeck_speeds h)
      · exact ⟨stopSound, h.2⟩
    · exact h
  · exact speedsHeld_lines (eotChange_frame level s) h
  · exact speedsHeld_lines (servoChange_frame level s) h
  · exact speedsHeld_lines (rectallyChange_frame level s) h

theorem speedSound_move {s t : State} (hs : SpeedSound s) (m : Move s t) : SpeedSound t := by
  change SpeedsHeld t.tr
  have h : SpeedsHeld s.tr := hs
  cases m.sorted with
  | power hc e =>
    obtain ⟨x, rfl, -⟩ | ⟨p, x, rfl⟩ := power_cases hc e
    · exact h
    · exact ⟨trivial, by simp [resetBlocks, State.atReset, Transport.atReset],
        by simp [resetBlocks, State.atReset, Transport.atReset]⟩
  | deckLine hc e => exact deckLine_speeds hc e h
  | transport m => exact m.speeds h
  | locateEnd m => exact m.speeds h
  | locateMark _ k => exact giveLocate_speeds _ k.frame (s := popMark s) h
  | side f => exact speedsHeld_lines f h
  | peers | time => exact h
  | link f => exact speedsHeld_lines f.frame h
  | pos m => exact speedsHeld_lines m.frame h
  | cue m => exact speedsHeld_lines m.frame h
  | abort => exact speedsHeld_lines (abortActive_frame s) h
  | fader m => exact speedsHeld_lines m.frame h
  | chase m => exact speedsHeld_lines m.frame h
  | marks m => exact speedsHeld_lines m.frame h

/-! ### The port -/

/-- Whether the port is driven does not depend on the Transport Controller (R79). -/
theorem drive_isSome_congr {s t : State} (hp : t.power.supervisor = s.power.supervisor) (hz : t.straps = s.straps)
    (hd : t.pins.threaded = s.pins.threaded ∧ t.pins.localOn = s.pins.localOn) :
    (drive t).isSome = true ↔ (drive s).isSome = true := by
  rw [drive_isSome, drive_isSome, hp, hd.1, hd.2]
  have e : isDeck t = isDeck s := by unfold isDeck role; rw [hz]
  rw [e]

theorem portQuiet_of {s t : State} (hs : PortQuiet s) (hsent : t.tr.speedSent = s.tr.speedSent)
    (hp : t.power.supervisor = s.power.supervisor) (hz : t.straps = s.straps)
    (hd : t.pins.threaded = s.pins.threaded ∧ t.pins.localOn = s.pins.localOn) : PortQuiet t :=
  fun h => (drive_isSome_congr hp hz hd).mpr (hs (hsent ▸ h))

theorem Frame.speedSent {w : List Part} {s t : State} (f : Frame w s t) (hw : Part.transport ∉ w := by simp) :
    t.tr.speedSent = s.tr.speedSent := by
  have e : t.tr = { s.tr with punch := t.tr.punch } := f.same .transport hw
  rw [e]

theorem takeCommand_speedSent (c : Command) (s : State) : (takeCommand c s).tr.speedSent = s.tr.speedSent := by
  unfold takeCommand; split
  · exact (breakRecord_frame _).speedSent
  · rfl

theorem giveLocate_speedSent (skips : Option Word16) (target : Nat) (s : State) :
    (giveLocate skips target s).tr.speedSent = s.tr.speedSent := by
  unfold giveLocate
  split
  · split
    · rfl
    · exact (breakRecord_frame _).speedSent
  · rfl

/-- The speed word is sent while the port is driven (R79, R81). -/
theorem sendSpeedWord_portQuiet (s : State) : PortQuiet (sendSpeedWord s) := by
  intro h
  rw [drive_isSome_congr (s := s) (congrArg Power.supervisor ((sendSpeedWord_frame s).same .power))
    ((sendSpeedWord_frame s).same .straps) (by rw [(sendSpeedWord_frame s).same .pins]; simp)]
  unfold sendSpeedWord at h
  split at h
  · rename_i c hc; rw [hc]; rfl
  · cases h

theorem TransportMove.portQuiet {s t : State} (m : TransportMove s t) (hs : PortQuiet s) : PortQuiet t := by
  have sent (h : t.tr.speedSent = s.tr.speedSent) : PortQuiet t :=
    portQuiet_of hs h (congrArg Power.supervisor (m.frame.same .power)) (m.frame.same .straps)
      (by rw [m.frame.same .pins]; simp)
  cases m with
  | command c => exact sent (takeCommand_speedSent c s)
  | locate skips target => exact sent (giveLocate_speedSent skips target s)
  | tallyExpiry =>
    refine sent ?_
    unfold Machine.tallyExpiry
    split
    · split <;> rfl
    · rfl
  | speedWord => exact sendSpeedWord_portQuiet s
  | locateGoesOn | countServo | countTally | arm => exact sent rfl

theorem quietPort_portQuiet (s : State) : PortQuiet (quietPort s) := by
  unfold quietPort; split
  · rename_i h; exact fun _ => h
  · exact fun h => by cases h

/-- While a speed word is sent the port is driven, so the station is a deck in RUN. -/
theorem portQuiet_sent {s : State} (hs : PortQuiet s) (h : s.tr.speedSent = true) :
    s.power.supervisor = .run ∧ isDeck s = true ∧ (s.pins.threaded = false ∨ s.pins.localOn = false) :=
  (drive_isSome s).mp (hs h)

/-- A station whose drive is formed anew with its lines: a deck in RUN drives its port when it is unthreaded or not in
LOCAL. -/
theorem portQuiet_driven {s t : State} (hs : PortQuiet s) (hsent : t.tr.speedSent = s.tr.speedSent)
    (hp : t.power.supervisor = s.power.supervisor) (hz : t.straps = s.straps)
    (hd : t.pins.threaded = false ∨ t.pins.localOn = false) : PortQuiet t := by
  intro h
  obtain ⟨hr, hk, -⟩ := portQuiet_sent hs (hsent ▸ h)
  refine (drive_isSome t).mpr ⟨hp.trans hr, ?_, hd⟩
  unfold isDeck role at hk ⊢; rw [hz]; exact hk

theorem dropDeck_speedSent (s : State) : (dropDeck s).tr.speedSent = s.tr.speedSent := (breakRecord_frame _).speedSent

theorem failLocate_speedSent (s : State) : (failLocate s).tr.speedSent = s.tr.speedSent := by
  unfold failLocate; split
  · rw [locateFail_touches]; rfl
  · rfl

theorem threadedChange_portQuiet (level : Bool) {s : State} (hs : PortQuiet s) : PortQuiet (threadedChange level s) := by
  have f := threadedChange_frame level s
  have p := threadedChange_pins level s
  by_cases h : s.power.supervisor = .run ∧ isDeck s = true ∧ s.pins.threaded ≠ level
  · rw [threadedChange, if_pos h, threadedTaken] at *
    cases level with
    | true => exact quietPort_portQuiet _
    | false =>
      refine portQuiet_driven hs ?_ (congrArg Power.supervisor (f.same .power)) (f.same .straps) (.inl (by rw [p]))
      exact (dropDeck_speedSent _).trans (failLocate_speedSent _)
  · rw [threadedChange, if_neg h] at *
    intro hsent
    obtain ⟨hr, hk, hd⟩ := portQuiet_sent hs hsent
    have e : s.pins.threaded = level := by
      by_contra hne; exact h ⟨hr, hk, hne⟩
    exact (drive_isSome _).mpr ⟨hr, hk, by rw [← e]; exact hd⟩

theorem localChange_portQuiet (level : Bool) {s : State} (hs : PortQuiet s) : PortQuiet (localChange level s) := by
  by_cases h : s.power.supervisor = .run ∧ isDeck s = true ∧ s.pins.threaded = true ∧ s.pins.localOn ≠ level
  · rw [localChange, if_pos h, localTaken]
    cases level with
    | true => exact quietPort_portQuiet _
    | false =>
      exact portQuiet_driven
        (t := (s.setPins { s.pins with localOn := false }).setTr { s.tr with command := .stop }) hs rfl rfl rfl (.inr rfl)
  · rw [localChange, if_neg h]
    intro hsent
    obtain ⟨hr, hk, hd⟩ := portQuiet_sent hs hsent
    refine (drive_isSome _).mpr ⟨hr, hk, ?_⟩
    cases ht : s.pins.threaded with
    | false => exact .inl ht
    | true =>
      have e : s.pins.localOn = level := by
        by_contra hne; exact h ⟨hr, hk, ht, hne⟩
      exact .inr (e ▸ hd.resolve_left (by simp [ht]))

theorem portQuiet_move {s t : State} (hs : PortQuiet s) (m : Move s t) : PortQuiet t := by
  have still {w : List Part} (f : Frame w s t) (ht : Part.transport ∉ w := by simp)
      (hp : Part.power ∉ w := by simp) (hz : Part.straps ∉ w := by simp) (hd : Part.pins ∉ w := by simp) :
      PortQuiet t :=
    portQuiet_of hs (f.speedSent ht) (congrArg Power.supervisor (f.same .power hp)) (f.same .straps hz)
      (by rw [f.same .pins hd]; simp)
  cases m.sorted with
  | power hc e =>
    obtain ⟨x, rfl, hx⟩ | ⟨p, x, rfl⟩ := power_cases hc e
    · exact portQuiet_of hs rfl hx rfl ⟨rfl, rfl⟩
    · exact fun h => by cases h
  | deckLine hc e =>
    obtain ⟨level, rfl | rfl | rfl | rfl | rfl⟩ := deckLine_cases hc e
    · exact threadedChange_portQuiet level hs
    · exact localChange_portQuiet level hs
    · have f := eotChange_frame level s
      exact portQuiet_of hs f.speedSent (congrArg Power.supervisor (f.same .power)) (f.same .straps)
        (by rw [eotChange_pins]; simp)
    · have f := servoChange_frame level s
      exact portQuiet_of hs f.speedSent (congrArg Power.supervisor (f.same .power)) (f.same .straps)
        (by rw [servoChange_pins]; simp)
    · have f := rectallyChange_frame level s
      exact portQuiet_of hs f.speedSent (congrArg Power.supervisor (f.same .power)) (f.same .straps)
        (by rw [rectallyChange_pins]; simp)
  | transport k => exact k.portQuiet hs
  | locateEnd k =>
    refine portQuiet_of hs ?_ (congrArg Power.supervisor (k.frame.same .power)) (k.frame.same .straps)
      (by rw [k.frame.same .pins]; simp)
    cases k with
    | success l => rw [locateSucceed_touches]; rfl
    | failure l => rw [locateFail_touches]; rfl
  | locateMark _ k =>
    have f := giveLocate_frame (some s.time.fieldCount) k.frame (popMark s)
    exact portQuiet_of hs (giveLocate_speedSent _ _ _) (congrArg Power.supervisor (f.same .power)) (f.same .straps)
      ⟨congrArg Pins.threaded (f.same .pins), congrArg Pins.localOn (f.same .pins)⟩
  | side f => exact still f
  | peers => exact still (setPeers_frame s _)
  | time => exact still (setTime_frame s _)
  | link f => exact still f.frame
  | pos k => exact still k.frame
  | cue k => exact still k.frame
  | abort => exact still (abortActive_frame s)
  | fader k => exact still k.frame
  | chase k => exact still k.frame
  | marks k => exact still k.frame

/-! ### Timebase -/

theorem timebaseSound_reset {s t : State} (h : BlocksReset s t) : TimebaseSound t := by
  obtain ⟨p, x, rfl⟩ := h
  exact ⟨period_pos _, fun h => absurd h lostNotPresent, Nat.zero_le _⟩

theorem timebaseSound_move {s t : State} (hs : TimebaseSound s) (m : Move s t) : TimebaseSound t := by
  obtain hr | h | ⟨x, -, hx, rfl⟩ := m.sorted.timebase
  · exact timebaseSound_reset hr
  · obtain hr | hz := m.sorted.straps
    · exact timebaseSound_reset hr
    · unfold TimebaseSound Machine.std at *; rw [h, hz]; exact hs
  · exact hx hs

/-- Settles O60: each store is kept by every change that writes it. -/
theorem storesStayInRange : Obligations.StoresStayInRange := by
  intro s t hm hc hv hp hb h
  have link : LinkCounters t.link := linkKept_counters.step ⟨hc.1, hc.2.1, hc.2.2.1⟩ h
  have pos : PosCounters t.pos :=
    step_keeps (P := fun u => PosCounters u.pos) (fun _ _ k => k) (fun _ _ => posCounters_move) hc.2.2.2 h
  refine ⟨?marks, ⟨link.1, link.2.1, link.2.2, pos⟩, ?speeds, ?port, ?timebase⟩
  case marks => exact step_keeps (fun _ _ k => k) (fun _ _ => marksSound_move) hm h
  case speeds => exact step_keeps (fun _ _ k => k) (fun _ _ => speedSound_move) hv h
  case port => exact step_keeps (fun _ _ k => k) (fun _ _ => portQuiet_move) hp h
  case timebase => exact step_keeps (fun _ _ k => k) (fun _ _ => timebaseSound_move) hb h

end Sys2Proof.Machine

/-! SUPPORT. What each change makes of the cue list: most pass over it cue by cue and keep what was loaded. -/

namespace Sys2Proof.Machine

set_option Elab.async false

/-! ### Lists changed cue by cue -/

/-- What was loaded of a cue stays: tag, trigger, action (R132). -/
structure SameKey (c d : Cue) : Prop where
  tag : d.tag = c.tag
  trigger : d.trigger = c.trigger
  action : d.action = c.action

/-- And a RECORD cue is ACTIVE as before. -/
structure SameRecord (c d : Cue) : Prop extends SameKey c d where
  recording : d.recording = c.recording

theorem SameKey.refl (c : Cue) : SameKey c c := ⟨rfl, rfl, rfl⟩

theorem SameKey.trans {c d e : Cue} (h : SameKey c d) (k : SameKey d e) : SameKey c e :=
  ⟨k.tag.trans h.tag, k.trigger.trans h.trigger, k.action.trans h.action⟩

theorem SameRecord.refl (c : Cue) : SameRecord c c := ⟨SameKey.refl c, rfl⟩

theorem SameRecord.trans {c d e : Cue} (h : SameRecord c d) (k : SameRecord d e) : SameRecord c e :=
  ⟨h.toSameKey.trans k.toSameKey, k.recording.trans h.recording⟩

theorem SameKey.isRecord {c d : Cue} (h : SameKey c d) : d.isRecord = c.isRecord := by
  unfold Cue.isRecord; rw [h.action]

theorem SameKey.frame? {c d : Cue} (h : SameKey c d) : d.frame? = c.frame? := by
  unfold Cue.frame?; rw [h.trigger]

theorem finishAs_sameKey (c : Cue) (state : CueState) (fc : Word16) : SameKey c (c.finishAs state fc) := ⟨rfl, rfl, rfl⟩

/-- The list of t is that of s changed cue by cue, each cue in a relation to what becomes of it. -/
def MapsCues (R : Cue → Cue → Prop) (s t : State) : Prop :=
  ∃ f : Cue → Cue, t.cues.list = s.cues.list.map f ∧ ∀ c ∈ s.cues.list, R c (f c)

theorem mapsCues_of_eq {R : Cue → Cue → Prop} (hR : ∀ c, R c c) {s t : State} (h : t.cues.list = s.cues.list) :
    MapsCues R s t := ⟨id, by rw [h, List.map_id], fun c _ => hR c⟩

theorem MapsCues.trans {R : Cue → Cue → Prop} (hR : ∀ c d e, R c d → R d e → R c e) {s t u : State}
    (h : MapsCues R s t) (k : MapsCues R t u) : MapsCues R s u := by
  obtain ⟨f, hf, hr⟩ := h
  obtain ⟨g, hg, kr⟩ := k
  refine ⟨g ∘ f, by rw [hg, hf, List.map_map], fun c hc => hR _ _ _ (hr c hc) (kr _ ?_)⟩
  rw [hf]; exact List.mem_map_of_mem hc

theorem MapsCues.weaken {R Q : Cue → Cue → Prop} (hR : ∀ c d, R c d → Q c d) {s t : State} (h : MapsCues R s t) :
    MapsCues Q s t := by
  obtain ⟨f, hf, hr⟩ := h
  exact ⟨f, hf, fun c hc => hR _ _ (hr c hc)⟩

theorem updateCues_maps {R : Cue → Cue → Prop} (hR : ∀ c, R c c) {pick : Cue → Bool} {f : Cue → Cue} {s : State}
    (h : ∀ c ∈ s.cues.list, pick c = true → R c (f c)) : MapsCues R s (updateCues pick f s) := by
  refine ⟨fun c => if pick c then f c else c, rfl, fun c hc => ?_⟩
  dsimp only; split
  · exact h c hc ‹_›
  · exact hR c

/-- Each cue keeps what was loaded of it. -/
abbrev KeepsKeys (s t : State) : Prop := MapsCues SameKey s t

/-- Each cue keeps what was loaded of it, and the RECORD cues that are ACTIVE stay. -/
abbrev KeepsRecords (s t : State) : Prop := MapsCues SameRecord s t

theorem KeepsKeys.trans {s t u : State} (h : KeepsKeys s t) (k : KeepsKeys t u) : KeepsKeys s u :=
  MapsCues.trans (R := SameKey) (fun _ _ _ => SameKey.trans) h k

theorem KeepsRecords.trans {s t u : State} (h : KeepsRecords s t) (k : KeepsRecords t u) : KeepsRecords s u :=
  MapsCues.trans (R := SameRecord) (fun _ _ _ => SameRecord.trans) h k

theorem KeepsRecords.keys {s t : State} (h : KeepsRecords s t) : KeepsKeys s t := h.weaken fun _ _ k => k.toSameKey

theorem Frame.keepsRecords {w : List Part} {s t : State} (f : Frame w s t) (hw : Part.cues ∉ w := by simp) :
    KeepsRecords s t := mapsCues_of_eq SameRecord.refl (f.same .cues hw)

theorem Frame.keepsKeys {w : List Part} {s t : State} (f : Frame w s t) (hw : Part.cues ∉ w := by simp) :
    KeepsKeys s t := (f.keepsRecords hw).keys

theorem updateCues_keys {pick : Cue → Bool} {f : Cue → Cue} (h : ∀ c, SameKey c (f c)) (s : State) :
    KeepsKeys s (updateCues pick f s) := updateCues_maps SameKey.refl fun c _ _ => h c

/-! ### Changes of the lines -/

theorem abortActiveRecord_keys (s : State) : KeepsKeys s (abortActiveRecord s) := by
  unfold abortActiveRecord; split
  · exact updateCues_keys (fun c => finishAs_sameKey c _ _) s
  · exact mapsCues_of_eq SameKey.refl rfl

theorem endActiveRecord_keys (s : State) : KeepsKeys s (endActiveRecord s) :=
  updateCues_keys (fun c => finishAs_sameKey c _ _) s

theorem breakRecord_keys (s : State) : KeepsKeys s (breakRecord s) := by
  unfold breakRecord; split
  · exact (setPunch_frame s none).keepsKeys.trans (abortActiveRecord_keys _)
  · exact mapsCues_of_eq SameKey.refl rfl

theorem takeCommand_keys (c : Command) (s : State) : KeepsKeys s (takeCommand c s) := by
  unfold takeCommand; split
  · exact (setTr_frame s _).keepsKeys.trans (breakRecord_keys _)
  · exact mapsCues_of_eq SameKey.refl rfl

theorem giveLocate_keys (skips : Option Word16) (target : Nat) (s : State) : KeepsKeys s (giveLocate skips target s) := by
  unfold giveLocate; split
  · split
    · exact (setTr_frame s _).keepsKeys
    · exact (setTr_frame s _).keepsKeys.trans (breakRecord_keys _)
  · exact mapsCues_of_eq SameKey.refl rfl

theorem TransportMove.keys {s t : State} (m : TransportMove s t) : KeepsKeys s t := by
  cases m with
  | command c => exact takeCommand_keys c s
  | locate skips target => exact giveLocate_keys skips target s
  | tallyExpiry => exact (tallyExpiry_frame s).keepsKeys
  | speedWord => exact (sendSpeedWord_frame s).keepsKeys
  | locateGoesOn | countServo | countTally | arm => exact (setTr_frame s _).keepsKeys

theorem deckLine_keys {c : Instr} {s t : State} (hc : isDeckLine c = true) (e : exec c s = .next t) :
    KeepsKeys s t := by
  have drop (u : State) : KeepsKeys u (dropDeck u) := (setTr_frame u _).keepsKeys.trans (breakRecord_keys _)
  obtain ⟨level, rfl | rfl | rfl | rfl | rfl⟩ := deckLine_cases hc e
  · unfold threadedChange threadedTaken loseTape; dsimp only
    split
    · split
      · exact ((setPins_frame s _).trans ((setTr_frame _ _).trans (quietPort_frame _))).keepsKeys
      · exact (((setPins_frame s _).trans (failLocate_frame _)).keepsKeys.trans (drop _)).trans
          (setPos_frame _ _).keepsKeys
    · exact (setPins_frame s _).keepsKeys
  · unfold localChange localTaken; dsimp only
    split
    · split
      · exact ((setPins_frame s _).keepsKeys.trans (drop _)).trans (quietPort_frame _).keepsKeys
      · exact ((setPins_frame s _).trans (setTr_frame _ _)).keepsKeys
    · exact (setPins_frame s _).keepsKeys
  · unfold eotChange; dsimp only
    split
    · exact (setPins_frame s _).keepsKeys.trans (breakRecord_keys _)
    · exact (setPins_frame s _).keepsKeys
  · exact (servoChange_frame level s).keepsKeys
  · exact (rectallyChange_frame level s).keepsKeys

/-! ### Changes of the fader -/

theorem isTransition_not_record {c : Cue} (h : c.isTransition = true) : c.isRecord = false := by
  unfold Cue.isTransition at h
  unfold Cue.isRecord
  cases ha : c.action <;> simp [ha] at h ⊢

theorem transiting_not_record {tag : Byte} {c : Cue} (h : c.transiting tag = true) :
    c.isRecord = false ∧ c.state = .active ∧ c.tag = tag ∧ c.isTransition = true := by
  simp only [Cue.transiting, Bool.and_eq_true, decide_eq_true_eq] at h
  obtain ⟨⟨ha, ht⟩, hg⟩ := h
  exact ⟨isTransition_not_record ht, ha, hg, ht⟩

/-- A cue that is no RECORD cue may finish. -/
theorem finishAs_sameRecord {c : Cue} (h : c.isRecord = false) (state : CueState) (fc : Word16) :
    SameRecord c (c.finishAs state fc) := by
  refine ⟨finishAs_sameKey c state fc, ?_⟩
  have e : (c.finishAs state fc).isRecord = false := h
  simp [Cue.recording, e, h]

theorem reportComplete_records (tag : Byte) (s : State) : KeepsRecords s (reportComplete tag s) := by
  unfold reportComplete; split
  · exact mapsCues_of_eq SameRecord.refl rfl
  · exact updateCues_maps SameRecord.refl fun c _ hc => finishAs_sameRecord (transiting_not_record hc).1 _ _

theorem completeContext_records (s : State) : KeepsRecords s (completeContext s) := by
  unfold completeContext; split
  · exact mapsCues_of_eq SameRecord.refl rfl
  · exact (setFader_frame s _).keepsRecords.trans (reportComplete_records _ _)

theorem completeIfDue_records (s : State) : KeepsRecords s (completeIfDue s) := by
  unfold completeIfDue; split
  · exact mapsCues_of_eq SameRecord.refl rfl
  · split
    · exact completeContext_records s
    · exact mapsCues_of_eq SameRecord.refl rfl

theorem formValues_frame (s : State) : Frame [.fader] s (formValues s) := by
  obtain ⟨a, h⟩ := formValues_touches s
  rw [h]; exact setFader_frame s a

theorem startContext_records (tag : Byte) (hard : Bool) (p : TransParams) (s : State) :
    KeepsRecords s (startContext tag hard p s) := by
  unfold startContext placeContext
  exact ((((completeContext_records s).trans (setFader_frame _ _).keepsRecords).trans
    (formValues_frame _).keepsRecords).trans (completeIfDue_records _)).trans (sendMix_frame _).keepsRecords

theorem failPartner_records (c : Context) (s : State) : KeepsRecords s (failPartner c s) := by
  have marked : KeepsRecords s
      (updateCues (Cue.transiting c.tag) (fun q => { q with unpaired := true })
        (setFlag .unpaired (s.setFader { s.fader with context := some { c with pair := .unpaired } }))) :=
    ((setFader_frame s _).trans (setFlag_frame _ _)).keepsRecords.trans
      (updateCues_maps SameRecord.refl fun q _ _ => ⟨⟨rfl, rfl, rfl⟩, rfl⟩)
  unfold failPartner; dsimp only; split
  · exact marked.trans (completeContext_records _)
  · exact marked

theorem partnerCheck_records (s : State) : KeepsRecords s (partnerCheck s) := by
  unfold partnerCheck; split
  · exact mapsCues_of_eq SameRecord.refl rfl
  · split
    · split
      · exact (setFader_frame s _).keepsRecords
      · exact failPartner_records _ s
    · exact mapsCues_of_eq SameRecord.refl rfl

theorem advanceContext_records (s : State) : KeepsRecords s (advanceContext s) := by
  unfold advanceContext; split
  · exact mapsCues_of_eq SameRecord.refl rfl
  · split
    · exact mapsCues_of_eq SameRecord.refl rfl
    · exact (setFader_frame s _).keepsRecords.trans (partnerCheck_records _)

theorem faderBoundary_records (s : State) : KeepsRecords s (faderBoundary s) := by
  unfold faderBoundary; dsimp only
  exact ((((advanceContext_records s).trans (formValues_frame _).keepsRecords).trans (completeIfDue_records _)).trans
    (setMix_frame _ _).keepsRecords).trans (sendMix_frame _).keepsRecords

theorem FaderMove.records {s t : State} (m : FaderMove s t) : KeepsRecords s t := by
  cases m with
  | boundary => exact faderBoundary_records s
  | startContext tag hard p => exact startContext_records tag hard p s
  | completeContext => exact completeContext_records s
  | cutContext => exact (cutContext_frame s).keepsRecords
  | zeroFader => exact (setFader_frame s _).keepsRecords

/-! ### Changes of the list -/

/-- Every cue of t has the key of a cue of s. -/
def CuesFrom (s t : State) : Prop := ∀ d ∈ t.cues.list, ∃ c ∈ s.cues.list, SameKey c d

theorem KeepsKeys.from {s t : State} (h : KeepsKeys s t) : CuesFrom s t := by
  obtain ⟨f, hf, hk⟩ := h
  intro d hd
  rw [hf] at hd
  obtain ⟨c, hc, rfl⟩ := List.mem_map.mp hd
  exact ⟨c, hc, hk c hc⟩

theorem cuesFrom_filter (keep : Cue → Bool) (s : State) : CuesFrom s (setList (s.cues.list.filter keep) s) :=
  fun d hd => ⟨d, List.mem_of_mem_filter hd, SameKey.refl d⟩

theorem fireRecord_keys (tag : Byte) (tracks : Tracks) (length : Nat) (s : State) :
    KeepsKeys s (fireRecord tag tracks length s) := by
  have answer (a : PunchAnswer) (u : State) : KeepsKeys u (answerPunch tag a u) := by
    unfold answerPunch; split
    · exact mapsCues_of_eq SameKey.refl rfl
    · exact updateCues_keys (fun _ => by exact ⟨rfl, rfl, rfl⟩) u
    · exact updateCues_keys (fun c => finishAs_sameKey c _ _) u
  exact (((endActiveRecord_keys s).trans (updateCues_keys (fun _ => by exact ⟨rfl, rfl, rfl⟩) _)).trans
    (punchIn_frame _ _).keepsKeys).trans (answer _ _)

theorem recordLengthEnd_keys (s : State) : KeepsKeys s (recordLengthEnd s) := by
  unfold recordLengthEnd; split
  · split
    · exact (endActiveRecord_keys s).trans (setPunch_frame _ none).keepsKeys
    · exact mapsCues_of_eq SameKey.refl rfl
  · exact mapsCues_of_eq SameKey.refl rfl

theorem notReadyLimit_keys (s : State) : KeepsKeys s (notReadyLimit s) := by
  unfold notReadyLimit; split
  · split
    · split
      · exact (abortActiveRecord_keys s).trans (setPunch_frame _ none).keepsKeys
      · exact updateCues_keys (fun _ => by exact ⟨rfl, rfl, rfl⟩) s
    · exact mapsCues_of_eq SameKey.refl rfl
  · exact mapsCues_of_eq SameKey.refl rfl

theorem abortActive_keys (s : State) : KeepsKeys s (abortActive s) := by
  unfold abortActive; split
  · dsimp only
    split
    · exact ((cutContext_frame s).trans (setPunch_frame _ none)).keepsKeys.trans
        (updateCues_keys (fun c => finishAs_sameKey c _ _) _)
    · exact (setPunch_frame s none).keepsKeys.trans (updateCues_keys (fun c => finishAs_sameKey c _ _) _)
  · exact mapsCues_of_eq SameKey.refl rfl

/-- After a change every cue was in the list before, or has been loaded now. -/
theorem Sorted.cuesFrom {s t : State} (m : Sorted s t) :
    CuesFrom s t ∨ ∃ (bs : List Byte) (c : Coerced Cue), readCue (std s) bs = some c ∧ loadRefusal c.value s = none
      ∧ t = loadCue c.value s := by
  cases m with
  | power hc e =>
    obtain ⟨x, rfl, -⟩ | ⟨p, x, rfl⟩ := power_cases hc e
    · exact .inl fun d hd => ⟨d, hd, SameKey.refl d⟩
    · exact .inl fun d hd => by cases hd
  | cue k =>
    cases k with
    | fireRecord tag tracks length => exact .inl (fireRecord_keys tag tracks length s).from
    | activate tag => exact .inl (updateCues_keys (fun _ => by exact ⟨rfl, rfl, rfl⟩) s).from
    | finishWaiting tag state => exact .inl (updateCues_keys (fun c => finishAs_sameKey c _ _) s).from
    | touchCues pick f h => exact .inl (updateCues_keys (fun c => ⟨(h c).tag, (h c).trigger, (h c).action⟩) s).from
    | recordLengthEnd => exact .inl (recordLengthEnd_keys s).from
    | notReadyLimit => exact .inl (notReadyLimit_keys s).from
    | loadCue bs c hc h => exact .inr ⟨bs, c, hc, h, rfl⟩
    | dropCue tag => exact .inl (cuesFrom_filter _ s)
    | keepCues keep => exact .inl (cuesFrom_filter keep s)
  | deckLine hc e => exact .inl (deckLine_keys hc e).from
  | transport k => exact .inl k.keys.from
  | locateMark _ k => exact .inl ((setMarks_frame s _).keepsKeys.trans (giveLocate_keys _ k.frame (popMark s))).from
  | abort => exact .inl (abortActive_keys s).from
  | fader k => exact .inl k.records.keys.from
  | side f => exact .inl f.keepsKeys.from
  | peers => exact .inl (setPeers_frame s _).keepsKeys.from
  | time => exact .inl (setTime_frame s _).keepsKeys.from
  | link f => exact .inl f.frame.keepsKeys.from
  | pos k => exact .inl k.frame.keepsKeys.from
  | locateEnd k => exact .inl k.frame.keepsKeys.from
  | chase k => exact .inl k.frame.keepsKeys.from
  | marks k => exact .inl k.frame.keepsKeys.from

/-- A freshly placed cue and the cues among which it is placed (R134). -/
theorem mem_placeCue {c d : Cue} {cs : List Cue} : d ∈ placeCue c cs ↔ d = c ∨ d ∈ cs := by
  unfold placeCue
  split
  · rename_i f _
    induction cs with
    | nil => simp [insertTimed]
    | cons x xs ih =>
      unfold insertTimed
      split
      · split
        · simp only [List.mem_cons, ih]; tauto
        · simp [List.mem_cons]
      · simp [List.mem_cons]
  · simp [or_comm]

theorem mem_roomFor {tag : Byte} {s : State} {d : Cue} (h : d ∈ roomFor tag s) : d ∈ s.cues.list := by
  unfold roomFor removeTag at h
  split at h
  · exact List.mem_of_mem_filter h
  · split at h
    · split at h
      · exact List.mem_of_mem_filter h
      · exact h
    · exact h

/-- Every cue after a load is the loaded one or was there. -/
theorem mem_loadCue {c d : Cue} {s : State} (h : d ∈ (loadCue c s).cues.list) : d = c ∨ d ∈ s.cues.list := by
  obtain h | h := mem_placeCue.mp h
  · exact .inl h
  · exact .inr (mem_roomFor h)

end Sys2Proof.Machine

/-! SUPPORT and O57. The fader: a context within its duration gives values within their ranges, and its end values are so. -/

namespace Sys2Proof.Machine

set_option Elab.async false

/-! ### Values of a context -/

/-- The level of a DISSOLVE without signs: up from L0 or down from it by the part p of 1,024 of the way (R160). -/
theorem dissolveLevel_eq (l0 lt p : Nat) :
    dissolveLevel l0 lt p = if l0 ≤ lt then l0 + (lt - l0) * p / 1024 else l0 - (l0 - lt) * p / 1024 := by
  unfold dissolveLevel
  split
  · rename_i h
    have e : (lt : Int) - (l0 : Int) = ((lt - l0 : Nat) : Int) := (Int.ofNat_sub h).symm
    rw [e]
    norm_cast
  · rename_i h
    have e : (lt : Int) - (l0 : Int) = -((l0 - lt : Nat) : Int) := by omega
    rw [e, Int.neg_mul, Int.neg_tdiv]
    have k : (((l0 - lt : Nat) : Int) * (p : Int)).tdiv 1024 = (((l0 - lt) * p / 1024 : Nat) : Int) := by norm_cast
    rw [k]
    omega

theorem part_le {a p : Nat} (h : p ≤ 1024) : a * p / 1024 ≤ a :=
  Nat.div_le_of_le_mul (by rw [Nat.mul_comm 1024]; exact Nat.mul_le_mul_left a h)

theorem dissolveLevel_le {l0 lt p : Nat} (h0 : l0 ≤ 1024) (ht : lt ≤ 1024) (hp : p ≤ 1024) :
    dissolveLevel l0 lt p ≤ 1024 := by
  have k := part_le (a := lt - l0) hp
  rw [dissolveLevel_eq]
  split
  · omega
  · exact (Nat.sub_le _ _).trans h0

/-- A context on its way: k may have reached its duration. -/
def ContextRuns (c : Context) : Prop := ParamsSound c.params ∧ c.fromLevel ≤ 1024 ∧ c.k ≤ c.params.duration

theorem ContextSound.runs {c : Context} (h : ContextSound c) : ContextRuns c := ⟨h.1, h.2.1, Nat.le_of_lt h.2.2⟩

section
variable {c : Context} (h : ContextRuns c)
include h

theorem ContextRuns.position_le : c.position ≤ 1024 := curvePosition_le _ h.2.2

theorem ContextRuns.level_le : c.level ≤ 1024 := by
  unfold Context.level
  split
  · exact dissolveLevel_le h.2.1 h.1.1 h.position_le
  · exact h.1.1
  · exact h.2.1

theorem ContextRuns.share_le : c.share ≤ 1024 := by
  unfold Context.share
  split
  · exact h.level_le
  · exact (part_le h.position_le).trans h.1.1
  · exact (part_le (Nat.sub_le _ _)).trans h.2.1

theorem ContextRuns.softness_lt : c.softness < 64 := by
  unfold Context.softness
  split
  · exact Nat.zero_lt_succ _
  · exact h.1.2.2

end

/-! ### The fader alone -/

/-- The values of a fader within their ranges, its context satisfying P. -/
def FaderHolds (P : Context → Prop) (f : Fader) : Prop :=
  f.level ≤ 1024 ∧ f.gain ≤ 1024 ∧ f.softness < 64 ∧ ∀ c ∈ f.context, P c

theorem FaderHolds.runs {f : Fader} (h : FaderHolds ContextSound f) : FaderHolds ContextRuns f :=
  ⟨h.1, h.2.1, h.2.2.1, fun c hc => (h.2.2.2 c hc).runs⟩

theorem ended_holds {P : Context → Prop} {f : Fader} {c : Context} (h : ParamsSound c.params) :
    FaderHolds P (f.ended c) := ⟨h.1, audioGain_le _ h.1, Nat.zero_lt_succ _, by simp [Fader.ended]⟩

/-- A context put in place of another. -/
theorem holds_setContext {P Q : Context → Prop} {f : Fader} (h : FaderHolds P f) {c : Context} (hc : Q c) :
    FaderHolds Q { f with context := some c } :=
  ⟨h.1, h.2.1, h.2.2.1, fun k hk => by obtain rfl := Option.mem_some.mp hk; exact hc⟩

theorem formValues_holds {s : State} (h : FaderHolds ContextRuns s.fader) :
    FaderHolds ContextRuns (formValues s).fader := by
  unfold formValues
  split
  · exact h
  · rename_i c hc
    have k := h.2.2.2 c hc
    exact ⟨k.level_le, audioGain_le _ k.share_le, k.softness_lt, h.2.2.2⟩

theorem reportComplete_fader (tag : Byte) (s : State) : (reportComplete tag s).fader = s.fader := by
  unfold reportComplete; split <;> rfl

theorem completeContext_holds {P : Context → Prop} {s : State} (h : FaderHolds ContextRuns s.fader) :
    FaderHolds P (completeContext s).fader := by
  unfold completeContext
  split
  · rename_i hc; exact ⟨h.1, h.2.1, h.2.2.1, by simp [hc]⟩
  · rename_i c hc
    rw [reportComplete_fader]
    exact ended_holds (h.2.2.2 c hc).1

/-- A context that has not reached its duration, or none. -/
theorem completeIfDue_holds {s : State} (h : FaderHolds ContextRuns s.fader) :
    FaderHolds ContextSound (completeIfDue s).fader := by
  unfold completeIfDue
  split
  · rename_i hc; exact ⟨h.1, h.2.1, h.2.2.1, by simp [hc]⟩
  · rename_i c hc
    split
    · exact completeContext_holds h
    · rename_i hk
      refine ⟨h.1, h.2.1, h.2.2.1, fun d hd => ?_⟩
      obtain rfl : c = d := by rw [hc] at hd; exact Option.mem_some.mp hd
      have k := h.2.2.2 c hc
      exact ⟨k.1, k.2.1, Nat.lt_of_not_le hk⟩

theorem cutContext_holds {s : State} (h : FaderHolds ContextSound s.fader) :
    FaderHolds ContextSound (cutContext s).fader := by
  unfold cutContext
  split
  · exact h
  · rename_i c hc; exact ended_holds (h.2.2.2 c hc).1

theorem startContext_holds {tag : Byte} {hard : Bool} {p : TransParams} (hp : ParamsSound p) {s : State}
    (h : FaderHolds ContextSound s.fader) : FaderHolds ContextSound (startContext tag hard p s).fader := by
  unfold startContext
  rw [(sendMix_frame _).same .fader]
  have k : FaderHolds ContextSound (completeContext s).fader := completeContext_holds h.runs
  refine completeIfDue_holds (formValues_holds ?_)
  exact holds_setContext k ⟨hp, k.1, Nat.zero_le _⟩

theorem failPartner_holds {c : Context} (hc : ContextRuns c) {s : State} (h : FaderHolds ContextRuns s.fader) :
    FaderHolds ContextRuns (failPartner c s).fader := by
  have k : FaderHolds ContextRuns { s.fader with context := some { c with pair := .unpaired } } := holds_setContext h hc
  unfold failPartner
  dsimp only
  split
  · exact completeContext_holds k
  · exact k

theorem partnerCheck_holds {s : State} (h : FaderHolds ContextRuns s.fader) :
    FaderHolds ContextRuns (partnerCheck s).fader := by
  unfold partnerCheck
  split
  · exact h
  · rename_i c hc
    have k := h.2.2.2 c hc
    split
    · split
      · exact holds_setContext h (show ContextRuns { c with pair := .paired } from k)
      · exact failPartner_holds k h
    · exact h

theorem advanceContext_holds {s : State} (h : FaderHolds ContextSound s.fader) :
    FaderHolds ContextRuns (advanceContext s).fader := by
  unfold advanceContext
  split
  · exact h.runs
  · rename_i c hc
    split
    · exact h.runs
    · obtain ⟨hp, hl, hk⟩ := h.2.2.2 c hc
      exact partnerCheck_holds (s := s.setFader { s.fader with context := some { c with k := c.k + 1 } })
        (holds_setContext h ⟨hp, hl, hk⟩)

theorem faderBoundary_holds {s : State} (h : FaderHolds ContextSound s.fader) :
    FaderHolds ContextSound (faderBoundary s).fader := by
  unfold faderBoundary
  rw [(sendMix_frame _).same .fader]
  exact completeIfDue_holds (formValues_holds (advanceContext_holds h))

/-! ### Every change -/

/-- A loaded cue's transition parameters are within their ranges (Tables 9.4, 12.6). -/
theorem readTransition_sound {bs : List Byte} {a : Coerced CueAction} (h : readTransition bs = some a) {p : TransParams}
    (hp : a.value = .transition p) : ParamsSound p := by
  unfold readTransition at h
  split at h
  · cases h
    cases hp
    exact ⟨Nat.min_le_left _ _, Nat.min_le_left _ _, Nat.mod_lt _ (by omega)⟩
  · cases h

theorem readAction_params {x : Standard} {bs : List Byte} {a : Coerced CueAction} (h : readAction x bs = some a)
    {p : TransParams} (hp : a.value = .transition p) : ParamsSound p := by
  unfold readAction at h
  split at h
  · cases h; cases hp
  · exact readTransition_sound h hp
  · unfold readTransport at h
    split at h
    · cases h; cases hp
    · cases h; cases hp
    · obtain ⟨c, -, rfl⟩ := Option.map_eq_some_iff.mp h; cases hp
    · cases h
  · obtain ⟨l, -, rfl⟩ := Option.map_eq_some_iff.mp h; cases hp
  · cases h; cases hp
  · cases h

theorem readCue_params {x : Standard} {bs : List Byte} {c : Coerced Cue} (h : readCue x bs = some c) :
    CueParamsSound c.value := by
  obtain ⟨t, a, m, -, ha, -, e, -⟩ := readCue_parts h
  intro p hp
  rw [e] at hp
  exact readAction_params ha hp

/-- The cues' parameters stay: a change loads sound ones and keeps the others. -/
theorem cueParams_move {s t : State} (h : ∀ c ∈ s.cues.list, CueParamsSound c) (m : Sorted s t) :
    ∀ c ∈ t.cues.list, CueParamsSound c := by
  obtain hf | ⟨bs, c, hc, -, rfl⟩ := m.cuesFrom
  · intro d hd p hp
    obtain ⟨c, hc, k⟩ := hf d hd
    exact h c hc p (k.action ▸ hp)
  · intro d hd
    obtain rfl | hd := mem_loadCue hd
    · exact readCue_params hc
    · exact h d hd

theorem faderHolds_move {s t : State} (hc : ∀ c ∈ s.cues.list, CueParamsSound c)
    (h : FaderHolds ContextSound s.fader) (m : Sorted s t) : FaderHolds ContextSound t.fader := by
  have still {w : List Part} (f : Frame w s t) (hw : Part.fader ∉ w := by simp) : FaderHolds ContextSound t.fader :=
    (f.same .fader hw).symm ▸ h
  cases m with
  | power hp e =>
    obtain ⟨x, rfl, -⟩ | ⟨p, x, rfl⟩ := power_cases hp e
    · exact h
    · exact ⟨Nat.zero_le _, Nat.zero_le _, Nat.zero_lt_succ _, by simp [resetBlocks, State.atReset, Fader.atReset]⟩
  | fader k =>
    cases k with
    | boundary => exact faderBoundary_holds h
    | startContext tag hard p hp =>
      refine startContext_holds ?_ h
      obtain hp | ⟨c, hm, ha⟩ := hp
      · exact hp
      · exact hc c hm p ha
    | completeContext => exact completeContext_holds h.runs
    | cutContext => exact cutContext_holds h
    | zeroFader => exact ⟨Nat.zero_le _, audioGain_le _ (Nat.zero_le _), h.2.2⟩
  | abort =>
    unfold abortActive
    split
    · dsimp only
      split
      · exact cutContext_holds h
      · exact h
    · exact h
  | deckLine hk e => exact still (deckLine_frame hk e)
  | transport k => exact still k.frame
  | locateEnd k => exact still k.frame
  | locateMark _ k => exact still ((setMarks_frame s _).trans (giveLocate_frame _ k.frame (popMark s)))
  | side f => exact still f
  | peers => exact still (setPeers_frame s _)
  | time => exact still (setTime_frame s _)
  | link f => exact still f.frame
  | pos k => exact still k.frame
  | cue k => exact still k.frame
  | chase k => exact still k.frame
  | marks k => exact still k.frame

theorem faderSound_move {s t : State} (hs : FaderSound s) (m : Move s t) : FaderSound t := by
  obtain ⟨hl, hg, hs, hx, hc⟩ := hs
  obtain ⟨kl, kg, ks, kx⟩ := faderHolds_move hc ⟨hl, hg, hs, hx⟩ m.sorted
  exact ⟨kl, kg, ks, kx, cueParams_move hc m.sorted⟩

/-- Settles O57: the changes of the fader keep its ranges, and the cues hold sound parameters for the contexts to come. -/
theorem faderStaysSound : Obligations.FaderStaysSound :=
  fun _ _ hs h => step_keeps (fun _ _ k => k) (fun _ _ => faderSound_move) hs h

end Sys2Proof.Machine

/-! SUPPORT and O58. Positions and frames: what a change writes is a modular sum, a frame count read from a frame or a
label, or a frame held already. -/

namespace Sys2Proof.Machine

set_option Elab.async false

/-! ### The Position Unit -/

/-- The Position Unit's part of `PositionsSound`. -/
def PosHeld (z : Straps) (p : Position) : Prop :=
  p.held < (standardOf z).day ∧ p.record.position < (standardOf z).day ∧ p.published.position < (standardOf z).day
    ∧ (p.quality = .virtual ↔ heldRole z = .live) ∧ (p.record.quality = .virtual ↔ heldRole z = .live)
    ∧ (p.published.quality = .virtual ↔ heldRole z = .live)

/-- The Chase Servo's part of `PositionsSound`. -/
def TargetsHeld (z : Straps) (c : Chase) : Prop :=
  c.handed.target < (standardOf z).day ∧ c.record.target < (standardOf z).day

theorem positionsSound_iff (s : State) :
    PositionsSound s ↔ PosHeld s.straps s.pos ∧ TargetsHeld s.straps s.chase :=
  ⟨fun ⟨h1, h2, h3, h4, h5, h6, h7, h8⟩ => ⟨⟨h1, h2, h3, h6, h7, h8⟩, h4, h5⟩,
    fun ⟨⟨h1, h2, h3, h6, h7, h8⟩, h4, h5⟩ => ⟨h1, h2, h3, h4, h5, h6, h7, h8⟩⟩

theorem day_pos (x : Standard) : 0 < x.day := Nat.mul_pos (fpd_pos x) (by norm_num)

theorem not_live_of_deck {s : State} (h : isDeck s = true) : heldRole s.straps ≠ .live := by
  simpa [isDeck, role] using h

theorem live_of_not_deck {s : State} (h : isDeck s = false) : heldRole s.straps = .live := by
  simpa [isDeck, role] using h

/-- On a deck station a quality is sound when it is not VIRTUAL. -/
theorem quality_iff_of_deck {s : State} (h : isDeck s = true) {q : Quality} (hq : q ≠ .virtual) :
    q = .virtual ↔ heldRole s.straps = .live := iff_of_false hq (not_live_of_deck h)

theorem posHeld_reset (z : Straps) : PosHeld z (Position.atReset z) := by
  have hq : qualityAtReset z = .virtual ↔ heldRole z = .live := by
    unfold qualityAtReset; split <;> simp_all
  exact ⟨day_pos _, day_pos _, day_pos _, hq, hq, hq⟩

theorem wordPosition_lt {x : Standard} {c : Nat} (h : c < x.fpd) (backward : Bool) :
    wordPosition x c backward < x.day := by
  unfold wordPosition
  split
  · exact Nat.mul_lt_mul_of_pos_right h (by norm_num)
  · exact Nat.mod_lt _ (day_pos x)

theorem judgeWord_posHeld {c : Nat} (backward : Bool) {s : State} (hd : isDeck s = true) (hc : c < (std s).fpd)
    (h : PosHeld s.straps s.pos) : PosHeld s.straps (judgeWord c backward s).pos := by
  unfold judgeWord
  dsimp only
  split
  · have hx := wordPosition_lt hc backward
    exact ⟨hx, hx, h.2.2.1, quality_iff_of_deck hd (by simp [trimTo]), quality_iff_of_deck hd (by simp [trimTo]),
      h.2.2.2.2.2⟩
  · exact h

theorem takeWord_posHeld {c : Nat} (backward : Bool) {s : State} (hd : isDeck s = true) (hc : c < (std s).fpd)
    (h : PosHeld s.straps s.pos) : PosHeld s.straps (takeWord c backward s).pos := by
  unfold takeWord
  split
  · exact judgeWord_posHeld backward hd hc h
  split
  · have hx := wordPosition_lt hc backward
    rw [jamTo, jumpFlag_pos]
    exact ⟨hx, hx, h.2.2.1, quality_iff_of_deck hd (by simp), quality_iff_of_deck hd (by simp), h.2.2.2.2.2⟩
  · exact judgeWord_posHeld (s := discardCandidate s) backward hd hc h

theorem expireCandidate_posHeld {s : State} (h : PosHeld s.straps s.pos) :
    PosHeld s.straps (expireCandidate s).pos := by
  unfold expireCandidate
  split
  · split <;> exact h
  · exact h

/-- The quality falls from LTC to TACH on a deck alone, for a LIVE station's is VIRTUAL. -/
theorem expireSilence_posHeld {s : State} (h : PosHeld s.straps s.pos) : PosHeld s.straps (expireSilence s).pos := by
  obtain ⟨h1, h2, h3, h4, h5, h6⟩ := h
  unfold expireSilence
  split
  · rename_i hq
    have hl : heldRole s.straps ≠ .live := fun k => by simpa [h4.mpr k] using hq.1
    exact ⟨h1, h2, h3, iff_of_false (by simp) hl, h5, h6⟩
  · exact ⟨h1, h2, h3, h4, h5, h6⟩

theorem countSilence_posHeld {s : State} (h : PosHeld s.straps s.pos) : PosHeld s.straps (countSilence s).pos := by
  unfold countSilence
  split <;> exact h

theorem expireCandidate_frame (s : State) : Frame [.pos, .flags] s (expireCandidate s) := (PosMove.candidate s).frame

theorem countSilence_frame (s : State) : Frame [.pos] s (countSilence s) := by
  unfold countSilence
  split
  · exact setPos_frame s _
  · exact .refl s

theorem positionBoundary_posHeld {s : State} (h : PosHeld s.straps s.pos) :
    PosHeld s.straps (positionBoundary s).pos := by
  unfold positionBoundary
  split
  · have z1 : (expireCandidate s).straps = s.straps := (expireCandidate_frame s).same .straps
    have z2 : (countSilence (expireCandidate s)).straps = (expireCandidate s).straps :=
      (countSilence_frame (expireCandidate s)).same .straps
    have k1 := countSilence_posHeld (s := expireCandidate s) (by rw [z1]; exact expireCandidate_posHeld h)
    rw [← z2] at k1
    have k2 := expireSilence_posHeld (s := countSilence (expireCandidate s)) k1
    rw [z2, z1] at k2
    obtain ⟨a1, a2, a3, a4, a5, a6⟩ := k2
    exact ⟨a1, a1, a1, a4, a4, a4⟩
  · rename_i hd
    have hl := live_of_not_deck (by simpa using hd)
    obtain ⟨a1, a2, a3, a4, a5, a6⟩ := h
    have hx : modSum (std s) s.pos.held 256 < (std s).day := modSum_lt _ _ _
    exact ⟨hx, hx, hx, a4, iff_of_true rfl hl, iff_of_true rfl hl⟩

theorem setVirtual_posHeld {s : State} (ht : TargetsHeld s.straps s.chase) (h : PosHeld s.straps s.pos) :
    PosHeld s.straps (setVirtual s).pos := by
  unfold setVirtual
  split
  · rename_i hd
    have hl := live_of_not_deck (s := s) (by simp only [Bool.and_eq_true, Bool.not_eq_true'] at hd; exact hd.1.1)
    exact ⟨ht.1, ht.1, h.2.2.1, h.2.2.2.1, iff_of_true rfl hl, h.2.2.2.2.2⟩
  · exact h

theorem wordsDelivered_deck {s : State} (h : wordsDelivered s = true) : isDeck s = true := by
  simp only [wordsDelivered, Bool.and_eq_true] at h
  exact h.1.1.1

theorem timecodeWord_posHeld (label : Label) (backward : Bool) {s : State} (h : PosHeld s.straps s.pos) :
    PosHeld s.straps (timecodeWord label backward s).pos := by
  unfold timecodeWord
  split
  · rename_i hd
    split
    · rename_i hv
      simp only [Bool.and_eq_true, Bool.not_eq_true'] at hv
      exact takeWord_posHeld backward (wordsDelivered_deck hd) (labelCount_lt hv.1 hv.2) h
    · exact h
  · exact h

theorem PosMove.posHeld {s t : State} (m : PosMove s t) (ht : TargetsHeld s.straps s.chase)
    (h : PosHeld s.straps s.pos) : PosHeld s.straps t.pos := by
  cases m with
  | tach forward =>
    unfold tachPulse
    split
    · exact ⟨modSum_lt _ _ _, h.2⟩
    · exact h
  | word label backward => exact timecodeWord_posHeld label backward h
  | candidate => exact expireCandidate_posHeld h
  | silence => exact expireSilence_posHeld h
  | publish => exact positionBoundary_posHeld h
  | virtual => exact setVirtual_posHeld ht h

/-! ### The targets of the Chase Servo -/

theorem targetsHeld_reset (z : Straps) : TargetsHeld z (Chase.atReset z) := ⟨day_pos _, day_pos _⟩

theorem ParkNoted.targets {z : Straps} {x y : Chase} (h : ParkNoted x y) (k : TargetsHeld z x) : TargetsHeld z y := by
  obtain rfl | rfl := h <;> exact k

theorem loseLock_targets {s : State} (k : TargetsHeld s.straps s.chase) : TargetsHeld s.straps (loseLock s).chase := by
  unfold loseLock
  split <;> exact k

/-- Every target a change writes is a modular sum, the published position or the own record's. -/
theorem ChaseMove.targets {s t : State} (m : ChaseMove s t) (h : PosHeld s.straps s.pos)
    (k : TargetsHeld s.straps s.chase) : TargetsHeld s.straps t.chase := by
  cases m with
  | servo x hx =>
    refine ⟨?_, ?_⟩
    · obtain e | e | e := hx.handed
      · exact (congrArg ChaseRecord.target e).trans_lt k.1
      · exact e
      · exact e.trans_lt h.2.2.1
    · obtain e | e | e := hx.record
      · exact e.trans_lt k.2
      · exact e
      · exact e.trans_lt h.2.2.1
  | loseLock => exact loseLock_targets k
  | freeChase => exact ⟨k.1, h.2.1⟩
  | startChase => exact ⟨k.1, h.2.1⟩

theorem positionsSound_move {s t : State} (hs : PositionsSound s) (m : Move s t) : PositionsSound t := by
  rw [positionsSound_iff] at hs ⊢
  obtain ⟨hp, hc⟩ := hs
  obtain ⟨z, x, rfl⟩ | hz := m.sorted.straps
  · exact ⟨posHeld_reset z, targetsHeld_reset z⟩
  rw [hz]
  constructor
  · obtain ⟨z, x, rfl⟩ | h | ⟨h, hd⟩ | h := m.sorted.pos_cases
    · exact hz ▸ posHeld_reset z
    · rw [h]; exact hp
    · rw [h]; exact ⟨hp.1, hp.2.1, hp.2.2.1, quality_iff_of_deck hd (by simp), hp.2.2.2.2⟩
    · exact h.posHeld hc hp
  · obtain ⟨z, x, rfl⟩ | h | h | h := m.sorted.chase_cases
    · exact hz ▸ targetsHeld_reset z
    · exact h.targets hc
    · rw [h]; exact loseLock_targets hc
    · exact h.targets hp hc

/-! ### Frames held -/

theorem Sorted.peers_cases {s t : State} (m : Sorted s t) :
    BlocksReset s t ∨ t.peers = s.peers
      ∨ ∀ st : Station, EntryFrameSound (std s) s.peers[st] → EntryFrameSound (std s) t.peers[st] := by
  cases m with
  | power hc h =>
    obtain ⟨x, rfl, -⟩ | hr := power_cases hc h
    · exact .inr (.inl rfl)
    · exact .inl hr
  | peers _ x h => exact .inr (.inr h)
  | deckLine hc h => exact .inr (.inl ((deckLine_frame hc h).same .peers))
  | pos h => exact .inr (.inl (h.frame.same .peers))
  | side h => exact .inr (.inl (h.same .peers))
  | time => exact .inr (.inl rfl)
  | link h => exact .inr (.inl (h.frame.same .peers))
  | transport h => exact .inr (.inl (h.frame.same .peers))
  | locateEnd h => exact .inr (.inl (h.frame.same .peers))
  | locateMark _ m => exact .inr (.inl ((giveLocate_frame _ m.frame (popMark s)).same .peers))
  | cue h => exact .inr (.inl (h.frame.same .peers))
  | abort => exact .inr (.inl ((abortActive_frame s).same .peers))
  | fader h => exact .inr (.inl (h.frame.same .peers))
  | chase h => exact .inr (.inl (h.frame.same .peers))
  | marks h => exact .inr (.inl (h.frame.same .peers))

/-- The frame and the phase of a position within the day. -/
theorem frameView_lt {x : Standard} {p : Nat} (h : p < x.day) : frameView p < x.fpd ∧ phaseView p < 512 :=
  ⟨Nat.div_lt_of_lt_mul (by rw [Nat.mul_comm]; exact h), Nat.mod_lt _ (by norm_num)⟩

theorem pushMark_frames (origin : Origin) {s : State} (hp : s.pos.record.position < (std s).day)
    (h : ∀ m ∈ s.marks, m.frame < (std s).fpd ∧ m.phase < 512) :
    ∀ m ∈ (pushMark origin s).marks, m.frame < (std s).fpd ∧ m.phase < 512 := by
  have hv := frameView_lt hp
  unfold pushMark
  dsimp only
  split
  · exact h
  split
  · intro m hm
    obtain rfl | hm := List.mem_cons.mp hm
    · exact hv
    · exact h m (List.mem_of_mem_take hm)
  · intro m hm
    obtain rfl | hm := List.mem_cons.mp hm
    · exact hv
    · exact h m hm

theorem Sorted.markFrames {s t : State} (m : Sorted s t) (hp : s.pos.record.position < (std s).day)
    (h : ∀ k ∈ s.marks, k.frame < (std s).fpd ∧ k.phase < 512) :
    ∀ k ∈ t.marks, k.frame < (std s).fpd ∧ k.phase < 512 := by
  obtain e | e | e | ⟨o, rfl⟩ := m.marks_cases
  · rw [e]; exact h
  · rw [e]; simp
  · rw [e]; exact fun k hk => h k (List.mem_of_mem_tail hk)
  · exact pushMark_frames o hp h

theorem SameKey.frames {x : Standard} {c d : Cue} (h : SameKey c d) (k : CueFramesSound x c) : CueFramesSound x d :=
  ⟨by rw [h.frame?]; exact k.1, by rw [h.action]; exact k.2⟩

theorem Sorted.cueFrames {s t : State} (m : Sorted s t) (h : ∀ c ∈ s.cues.list, CueFramesSound (std s) c) :
    ∀ c ∈ t.cues.list, CueFramesSound (std s) c := by
  obtain hf | ⟨bs, c, hr, -, rfl⟩ := m.cuesFrom
  · intro d hd
    obtain ⟨c, hc, hk⟩ := hf d hd
    exact hk.frames (h c hc)
  · intro d hd
    obtain rfl | hd := mem_loadCue hd
    · exact readCue_frames hr
    · exact h d hd

/-! ### The target of a locate -/

/-- The target of a locate that runs, if one does, passes a test. -/
def TargetIn (P : Nat → Prop) (t : Transport) : Prop := ∀ l ∈ t.locate, P l.target

theorem Frame.targetIn {w : List Part} {P : Nat → Prop} {s t : State} (f : Frame w s t) (h : TargetIn P s.tr)
    (hw : Part.transport ∉ w := by simp) : TargetIn P t.tr := by
  have e : t.tr = { s.tr with punch := t.tr.punch } := f.same .transport hw
  rw [e]; exact h

theorem targetIn_none {P : Nat → Prop} {t : Transport} (h : t.locate = none) : TargetIn P t := by
  simp [TargetIn, h]

theorem takeCommand_target {P : Nat → Prop} (c : Command) {s : State} (h : TargetIn P s.tr) :
    TargetIn P (takeCommand c s).tr := by
  unfold takeCommand
  split
  · exact (breakRecord_frame _).targetIn (targetIn_none rfl)
  · exact h

theorem giveLocate_target {P : Nat → Prop} (skips : Option Word16) {target : Nat} (hp : P target) {s : State}
    (h : TargetIn P s.tr) : TargetIn P (giveLocate skips target s).tr := by
  have single (l : Locate) (hl : P l.target) (t : Transport) : TargetIn P { t with locate := some l } :=
    fun k hk => Option.mem_some.mp hk ▸ hl
  unfold giveLocate
  split
  · split
    · exact single _ hp s.tr
    · exact (breakRecord_frame _).targetIn (single _ hp { s.tr with parkedMark := false })
  · exact h

theorem TransportMove.target {P : Nat → Prop} {s t : State} (m : TransportMove s t) (h : TargetIn P s.tr)
    (hk : ∀ f, FrameKnown s f → P f) : TargetIn P t.tr := by
  cases m with
  | command c => exact takeCommand_target c h
  | locate skips target hf => exact giveLocate_target skips (hk target hf) h
  | locateGoesOn l k hl ht => exact fun q hq => by obtain rfl := Option.mem_some.mp hq; rw [ht]; exact h l hl
  | countServo => exact h
  | countTally => exact h
  | arm => exact h
  | tallyExpiry =>
    unfold Machine.tallyExpiry
    split
    · split <;> exact h
    · exact h
  | speedWord =>
    unfold sendSpeedWord
    split <;> exact h

theorem locateEnd_locate {s t : State} (m : LocateEnd s t) : t.tr.locate = none := by
  cases m with
  | success l => exact congrArg Transport.locate ((noteParkEnd_frame l.target _).tr)
  | failure l => exact congrArg Transport.locate ((noteParkEnd_frame l.target _).tr)

theorem failLocate_target {P : Nat → Prop} {s : State} (h : TargetIn P s.tr) : TargetIn P (failLocate s).tr := by
  unfold failLocate
  split
  · rename_i l hl
    exact targetIn_none (locateEnd_locate (.failure s l hl))
  · exact h

theorem quietPort_target {P : Nat → Prop} {s : State} (h : TargetIn P s.tr) : TargetIn P (quietPort s).tr := by
  unfold quietPort
  split <;> exact h

theorem dropDeck_target {P : Nat → Prop} (s : State) : TargetIn P (dropDeck s).tr :=
  (breakRecord_frame _).targetIn (targetIn_none rfl)

theorem deckLine_target {P : Nat → Prop} {c : Instr} {s t : State} (hc : isDeckLine c = true)
    (e : exec c s = .next t) (h : TargetIn P s.tr) : TargetIn P t.tr := by
  obtain ⟨level, rfl | rfl | rfl | rfl | rfl⟩ := deckLine_cases hc e
  · unfold threadedChange threadedTaken
    dsimp only
    split
    · split
      · exact quietPort_target h
      · exact dropDeck_target _
    · exact h
  · unfold localChange localTaken
    dsimp only
    split
    · split
      · exact quietPort_target (dropDeck_target _)
      · exact h
    · exact h
  · exact (eotChange_frame level s).targetIn h
  · exact (servoChange_frame level s).targetIn h
  · exact (rectallyChange_frame level s).targetIn h

/-- The target of a locate is a frame a change knows, or a mark's. -/
theorem Sorted.target {P : Nat → Prop} {s t : State} (m : Sorted s t) (h : TargetIn P s.tr)
    (hk : ∀ f, FrameKnown s f → P f) (hm : ∀ k ∈ s.marks, P k.frame) : TargetIn P t.tr := by
  cases m with
  | power hc e =>
    obtain ⟨x, rfl, -⟩ | ⟨z, x, rfl⟩ := power_cases hc e
    · exact h
    · exact targetIn_none rfl
  | deckLine hc e => exact deckLine_target hc e h
  | transport k => exact k.target h hk
  | locateEnd k => exact targetIn_none (locateEnd_locate k)
  | locateMark _ k rest e => exact giveLocate_target (s := popMark s) _ (hm k (by rw [e]; simp)) h
  | side f => exact f.targetIn h
  | peers | time => exact h
  | link f => exact f.frame.targetIn h
  | pos k => exact k.frame.targetIn h
  | cue k => exact k.frame.targetIn h
  | abort => exact (abortActive_frame s).targetIn h
  | fader k => exact k.frame.targetIn h
  | chase k => exact k.frame.targetIn h
  | marks k => exact k.frame.targetIn h

theorem Sorted.parkFrame {s t : State} (m : Sorted s t) (h : ∀ f ∈ s.chase.parkFrame, f < (std s).fpd) :
    ∀ f ∈ t.chase.parkFrame, f < (std s).fpd := by
  have lost : ∀ f ∈ (loseLock s).chase.parkFrame, f < (std s).fpd := by unfold loseLock; split <;> exact h
  obtain ⟨z, x, rfl⟩ | e | e | e := m.chase_cases
  · intro f hf; simp [resetBlocks, State.atReset, Chase.atReset] at hf
  · obtain e | e := e <;> rw [e] <;> exact h
  · rw [e]; exact lost
  · cases e with
    | servo x hx =>
      obtain e | e := hx.park
      · exact e ▸ h
      · exact e
    | loseLock => exact lost
    | freeChase => intro f hf; simp [freeChase, rewriteFree, Chase.freed] at hf
    | startChase => intro f hf; simp [startChase] at hf

theorem framesSound_reset (z : Straps) (x : Power) (s : State) : FramesSound ((resetBlocks z s).setPower x) := by
  refine ⟨fun st => ?_, by simp [resetBlocks, State.atReset], by simp [resetBlocks, State.atReset, CueEngine.atReset],
    by simp [resetBlocks, State.atReset, Transport.atReset], by simp [resetBlocks, State.atReset, Chase.atReset]⟩
  have e : ((resetBlocks z s).setPower x).peers[st] = PeerEntry.atReset := by
    simp [resetBlocks, State.atReset]
  rw [e]
  exact ⟨fpd_pos _, by norm_num [PeerEntry.atReset]⟩

theorem framesSound_move {s t : State} (hp : PositionsSound s) (hs : FramesSound s) (m : Move s t) :
    FramesSound t := by
  obtain ⟨z, x, rfl⟩ | hz := m.sorted.straps
  · exact framesSound_reset z x s
  obtain ⟨he, hm, hc, hl, hf⟩ := hs
  have hstd : std t = std s := congrArg standardOf hz
  have known (f : Nat) (k : FrameKnown s f) : f < (std s).fpd := by
    obtain k | ⟨c, hmem, ha⟩ := k
    · exact k
    · exact (hc c hmem).2 f ha
  refine ⟨?_, ?_, ?_, ?_, ?_⟩ <;> rw [hstd]
  · obtain ⟨z, x, rfl⟩ | e | e := m.sorted.peers_cases
    · exact hstd ▸ (framesSound_reset z x s).1
    · rw [e]; exact he
    · exact fun st => e st (he st)
  · exact m.sorted.markFrames hp.2.1 hm
  · exact m.sorted.cueFrames hc
  · exact m.sorted.target (P := fun f => f < (std s).fpd) hl known fun k hk => (hm k hk).1
  · exact m.sorted.parkFrame hf

/-- Settles O58: a change writes positions within the day and frames of the standard; the second part carries the first
along. -/
theorem positionsStaySound : Obligations.PositionsStaySound := by
  refine ⟨fun s t hs h => step_keeps (fun _ _ k => k) (fun _ _ => positionsSound_move) hs h, fun s t hp hs h => ?_⟩
  have both := step_keeps (P := fun u => PositionsSound u ∧ FramesSound u) (fun _ _ k => k)
    (fun _ _ k m => ⟨positionsSound_move k.1 m, framesSound_move k.1 k.2 m⟩) ⟨hp, hs⟩ h
  exact both.2

end Sys2Proof.Machine

/-! SUPPORT. The cue list: placing a cue, making room for it, and what each change of the cues keeps of the list (R134 to
R136). -/

namespace Sys2Proof.Machine

set_option Elab.async false

/-! ### The order of the list -/

theorem mayPrecede_untimed (a : Cue) {b : Cue} (h : b.frame? = none) : mayPrecede a b := by
  unfold mayPrecede; rw [h]; split <;> trivial

theorem mayPrecede_timed {a b : Cue} {g : Nat} (h : b.frame? = some g) :
    mayPrecede a b ↔ ∃ f, a.frame? = some f ∧ f ≤ g := by
  unfold mayPrecede; rw [h]; cases ha : a.frame? <;> simp

theorem mayPrecede_trans {a b c : Cue} (h : mayPrecede a b) (k : mayPrecede b c) : mayPrecede a c := by
  cases hc : c.frame? with
  | none => exact mayPrecede_untimed a hc
  | some g =>
    obtain ⟨f, hb, hfg⟩ := (mayPrecede_timed hc).mp k
    obtain ⟨e, ha, hef⟩ := (mayPrecede_timed hb).mp h
    exact (mayPrecede_timed hc).mpr ⟨e, ha, hef.trans hfg⟩

theorem SameKey.mayPrecede {a b c d : Cue} (h : SameKey a c) (k : SameKey b d) (m : mayPrecede a b) :
    mayPrecede c d := by
  unfold Machine.mayPrecede at m ⊢; rw [h.frame?, k.frame?]; exact m

/-! ### Placing a cue -/

theorem insertTimed_perm (f : Nat) (c : Cue) (cs : List Cue) : (insertTimed f c cs).Perm (c :: cs) := by
  induction cs with
  | nil => exact .refl _
  | cons x xs ih =>
    unfold insertTimed
    split
    · split
      · exact (ih.cons x).trans (.swap c x xs)
      · exact .refl _
    · exact .refl _

theorem placeCue_perm (c : Cue) (cs : List Cue) : (placeCue c cs).Perm (c :: cs) := by
  unfold placeCue
  split
  · exact insertTimed_perm _ c cs
  · exact List.perm_append_singleton c cs

theorem insertTimed_ordered {f : Nat} {c : Cue} (hf : c.frame? = some f) {cs : List Cue}
    (h : cs.Pairwise mayPrecede) : (insertTimed f c cs).Pairwise mayPrecede := by
  induction cs with
  | nil => exact List.pairwise_singleton _ _
  | cons x xs ih =>
    obtain ⟨hx, hxs⟩ := List.pairwise_cons.mp h
    -- Where c precedes the head, it precedes all that the head precedes.
    have first (hcx : mayPrecede c x) : (c :: x :: xs).Pairwise mayPrecede := by
      refine List.pairwise_cons.mpr ⟨fun y hy => ?_, h⟩
      obtain rfl | hy := List.mem_cons.mp hy
      · exact hcx
      · exact mayPrecede_trans hcx (hx y hy)
    unfold insertTimed
    split
    · rename_i g hg
      split
      · rename_i hle
        refine List.pairwise_cons.mpr ⟨fun y hy => ?_, ih hxs⟩
        obtain rfl | hy := List.mem_cons.mp ((insertTimed_perm f c xs).mem_iff.mp hy)
        · exact (mayPrecede_timed hf).mpr ⟨g, hg, hle⟩
        · exact hx y hy
      · rename_i hlt
        exact first ((mayPrecede_timed hg).mpr ⟨f, hf, by omega⟩)
    · rename_i hn
      exact first (mayPrecede_untimed c hn)

theorem placeCue_ordered (c : Cue) {cs : List Cue} (h : cs.Pairwise mayPrecede) :
    (placeCue c cs).Pairwise mayPrecede := by
  unfold placeCue
  split
  · rename_i f hf
    exact insertTimed_ordered hf h
  · rename_i hn
    refine List.pairwise_append.mpr ⟨h, List.pairwise_singleton _ _, fun a _ b hb => ?_⟩
    obtain rfl := List.mem_singleton.mp hb
    exact mayPrecede_untimed a hn

/-! ### Making room -/

theorem oldestFinished_mem {fc : Word16} {cs : List Cue} {d : Cue} (h : oldestFinished fc cs = some d) :
    d ∈ cs ∧ d.finished = true := by
  induction cs with
  | nil => simp [oldestFinished] at h
  | cons c cs ih =>
    rw [oldestFinished] at h
    split at h
    · rename_i hc
      split at h
      · obtain rfl := Option.some.inj h
        exact ⟨List.mem_cons_self, hc⟩
      · rename_i e he
        split at h
        · obtain rfl := Option.some.inj h
          exact ⟨List.mem_cons_of_mem c (ih he).1, (ih he).2⟩
        · obtain rfl := Option.some.inj h
          exact ⟨List.mem_cons_self, hc⟩
    · exact ⟨List.mem_cons_of_mem c (ih h).1, (ih h).2⟩

theorem oldestFinished_isSome {fc : Word16} {cs : List Cue} (h : cs.any Cue.finished = true) :
    ∃ d, oldestFinished fc cs = some d := by
  induction cs with
  | nil => simp at h
  | cons c cs ih =>
    rw [oldestFinished]
    split
    · split
      · exact ⟨c, rfl⟩
      · split <;> exact ⟨_, rfl⟩
    · rename_i hc
      exact ih (by simpa [hc] using h)

theorem mem_removeTag {tag : Byte} {cs : List Cue} {d : Cue} : d ∈ removeTag tag cs ↔ d ∈ cs ∧ d.tag ≠ tag := by
  simp [removeTag]

theorem removeTag_length_lt {cs : List Cue} {d : Cue} (h : d ∈ cs) : (removeTag d.tag cs).length < cs.length :=
  List.length_filter_lt_length_iff_exists.mpr ⟨d, h, by simp⟩

theorem replaces_iff (tag : Byte) (s : State) :
    replaces tag s = true ↔ ∃ c ∈ s.cues.list, c.tag = tag ∧ c.state ≠ .active := by simp [replaces]

theorem tagActive_iff (tag : Byte) (s : State) :
    tagActive tag s = true ↔ ∃ c ∈ s.cues.list, c.tag = tag ∧ c.state = .active := by simp [tagActive]

theorem listFull_iff (s : State) :
    listFull s = true ↔ 24 ≤ s.cues.list.length ∧ ∀ c ∈ s.cues.list, c.finished = false := by simp [listFull]

/-- What the checks of CUE LOAD leave when they pass (R135, R136). -/
theorem loadRefusal_none {c : Cue} {s : State} (h : loadRefusal c s = none) :
    cueRoleRefused c s = false ∧ (replaces c.tag s = true ∨ listFull s = false) ∧ tagActive c.tag s = false := by
  unfold loadRefusal at h
  split at h
  · simp at h
  · rename_i h1
    split at h
    · simp at h
    · rename_i h2
      split at h
      · simp at h
      · rename_i h3
        simp only [Bool.and_eq_true, Bool.not_eq_true', not_and, Bool.not_eq_true] at h1 h2 h3
        refine ⟨h1, ?_, h3⟩
        cases hr : replaces c.tag s with
        | true => exact .inl rfl
        | false => exact .inr (h2 hr)

theorem finished_not_active {c : Cue} (h : c.finished = true) : c.state ≠ .active := by
  intro k; simp [Cue.finished, k] at h

/-- The list as `roomFor` leaves it when a load passes its checks: without the cue of the tag, or of a full list without
the oldest finished one; no ACTIVE cue leaves (R136). -/
theorem roomFor_cases {tag : Byte} {s : State} (hf : replaces tag s = true ∨ listFull s = false) :
    (replaces tag s = true ∧ roomFor tag s = removeTag tag s.cues.list)
      ∨ (replaces tag s = false ∧ s.cues.list.length < 24 ∧ roomFor tag s = s.cues.list)
      ∨ (replaces tag s = false ∧ 24 ≤ s.cues.list.length
          ∧ ∃ d, oldestFinished s.time.fieldCount s.cues.list = some d ∧ roomFor tag s = removeTag d.tag s.cues.list) := by
  unfold roomFor
  cases hr : replaces tag s with
  | true => exact .inl ⟨rfl, by simp⟩
  | false =>
    by_cases hl : 24 ≤ s.cues.list.length
    · have hfin : s.cues.list.any Cue.finished = true := by
        by_contra hno
        have : listFull s = true := (listFull_iff s).mpr ⟨hl, by simpa using hno⟩
        simp [hr, this] at hf
      obtain ⟨d, hd⟩ := oldestFinished_isSome (fc := s.time.fieldCount) hfin
      exact .inr (.inr ⟨rfl, hl, d, hd, by simp [hl, hd]⟩)
    · exact .inr (.inl ⟨rfl, by omega, by simp [hl]⟩)

/-! ### The list as RECORD_LINES needs it -/

/-- The cue list is sound, at most one RECORD cue is ACTIVE, and only a RECORDER holds one (R134, R145, R146). -/
def ListHeld (s : State) : Prop :=
  CueListSound s ∧ (s.cues.list.filter Cue.recording).length ≤ 1
    ∧ ∀ c ∈ s.cues.list, c.isRecord = true → role s = .recorder

/-- What was loaded of a cue stays, and it has not become an ACTIVE RECORD cue. -/
structure NoNewRecord (c d : Cue) : Prop extends SameKey c d where
  recording : d.recording = true → c.recording = true

theorem NoNewRecord.trans {c d e : Cue} (h : NoNewRecord c d) (k : NoNewRecord d e) : NoNewRecord c e :=
  ⟨h.toSameKey.trans k.toSameKey, fun r => h.recording (k.recording r)⟩

theorem SameRecord.noNew {c d : Cue} (h : SameRecord c d) : NoNewRecord c d :=
  ⟨h.toSameKey, fun r => h.recording ▸ r⟩

theorem NoNewRecord.refl (c : Cue) : NoNewRecord c c := (SameRecord.refl c).noNew

abbrev EndsRecords (s t : State) : Prop := MapsCues NoNewRecord s t

theorem KeepsRecords.ends {s t : State} (h : KeepsRecords s t) : EndsRecords s t := h.weaken fun _ _ => SameRecord.noNew

theorem EndsRecords.trans {s t u : State} (h : EndsRecords s t) (k : EndsRecords t u) : EndsRecords s u :=
  MapsCues.trans (R := NoNewRecord) (fun _ _ _ => NoNewRecord.trans) h k

theorem cueListSound_keys {s t : State} (h : CueListSound s) (k : KeepsKeys s t) : CueListSound t := by
  obtain ⟨hl, hn, ht, ho⟩ := h
  obtain ⟨f, hf, hr⟩ := k
  have htags : t.cues.list.map Cue.tag = s.cues.list.map Cue.tag := by
    rw [hf, List.map_map]; exact List.map_congr_left fun c hc => (hr c hc).tag
  refine ⟨by rw [hf, List.length_map]; exact hl, htags ▸ hn, fun d hd => ?_, ?_⟩
  · rw [hf] at hd
    obtain ⟨c, hc, rfl⟩ := List.mem_map.mp hd
    rw [(hr c hc).tag]; exact ht c hc
  · rw [hf, List.pairwise_map]
    exact ho.imp_of_mem fun ha hb => (hr _ ha).mayPrecede (hr _ hb)

theorem role_congr {s t : State} (h : t.straps = s.straps) : role t = role s := congrArg heldRole h

theorem EndsRecords.listHeld {s t : State} (k : EndsRecords s t) (hz : t.straps = s.straps) (h : ListHeld s) :
    ListHeld t := by
  obtain ⟨hs, h1, hr⟩ := h
  refine ⟨cueListSound_keys hs (k.weaken fun _ _ x => x.toSameKey), ?_, ?_⟩
  · obtain ⟨f, hf, kr⟩ := k
    rw [hf, ← List.countP_eq_length_filter, List.countP_map]
    rw [← List.countP_eq_length_filter] at h1
    exact (List.countP_mono_left fun c hc => (kr c hc).recording).trans h1
  · obtain ⟨f, hf, kr⟩ := k
    intro d hd hrec
    rw [hf] at hd
    obtain ⟨c, hc, rfl⟩ := List.mem_map.mp hd
    rw [role_congr hz]
    exact hr c hc ((kr c hc).isRecord ▸ hrec)

theorem listHeld_filter (keep : Cue → Bool) {s : State} (h : ListHeld s) :
    ListHeld (setList (s.cues.list.filter keep) s) := by
  obtain ⟨⟨hl, hn, ht, ho⟩, h1, hr⟩ := h
  have sub : (s.cues.list.filter keep).Sublist s.cues.list := List.filter_sublist
  exact ⟨⟨sub.length_le.trans hl, hn.sublist (sub.map _), fun c hc => ht c (sub.subset hc), ho.sublist sub⟩,
    ((sub.filter _).length_le).trans h1, fun c hc => hr c (sub.subset hc)⟩

/-- Two cues of one tag are one cue (R134). -/
theorem CueListSound.eq_of_tag {s : State} (h : CueListSound s) {c d : Cue} (hc : c ∈ s.cues.list)
    (hd : d ∈ s.cues.list) (ht : c.tag = d.tag) : c = d := List.inj_on_of_nodup_map h.2.1 hc hd ht

theorem readCue_waiting {x : Standard} {bs : List Byte} {c : Coerced Cue} (h : readCue x bs = some c) :
    c.value.state = .waiting ∧ c.value.tag ≠ 0 := by
  obtain ⟨t, a, m, -, -, -, hv, -, -, h0⟩ := readCue_parts h
  rw [hv]
  refine ⟨rfl, fun k => h0 ?_⟩
  exact congrArg BitVec.toNat k

theorem waiting_not_recording {c : Cue} (h : c.state = .waiting) : c.recording = false := by
  simp [Cue.recording, h]

/-- An ACTIVE cue outlasts a load that passes its checks (R136). -/
theorem active_mem_roomFor {tag : Byte} {s : State} (hs : CueListSound s)
    (hf : replaces tag s = true ∨ listFull s = false) (ha : tagActive tag s = false) {d : Cue}
    (hd : d ∈ s.cues.list) (hact : d.state = .active) : d ∈ roomFor tag s := by
  obtain ⟨-, e⟩ | ⟨-, -, e⟩ | ⟨-, -, o, ho, e⟩ := roomFor_cases hf <;> rw [e]
  · refine mem_removeTag.mpr ⟨hd, fun ht => ?_⟩
    have : tagActive tag s = true := (tagActive_iff tag s).mpr ⟨d, hd, ht, hact⟩
    simp [ha] at this
  · exact hd
  · obtain ⟨hmem, hfin⟩ := oldestFinished_mem ho
    refine mem_removeTag.mpr ⟨hd, fun ht => finished_not_active hfin ?_⟩
    rw [← hs.eq_of_tag hd hmem ht]; exact hact

/-- After room is made no cue of the tag is left, and there is a free place (R136). -/
theorem roomFor_spec {tag : Byte} {s : State} (hs : CueListSound s)
    (hf : replaces tag s = true ∨ listFull s = false) (ha : tagActive tag s = false) :
    (roomFor tag s).Sublist s.cues.list ∧ (roomFor tag s).length < 24 ∧ ∀ d ∈ roomFor tag s, d.tag ≠ tag := by
  have absent (hr : replaces tag s = false) : ∀ d ∈ s.cues.list, d.tag ≠ tag := by
    intro d hd ht
    by_cases hact : d.state = .active
    · have := (tagActive_iff tag s).mpr ⟨d, hd, ht, hact⟩
      simp [ha] at this
    · have := (replaces_iff tag s).mpr ⟨d, hd, ht, hact⟩
      simp [hr] at this
  obtain ⟨hr, e⟩ | ⟨hr, hl, e⟩ | ⟨hr, hl, o, ho, e⟩ := roomFor_cases hf <;> rw [e]
  · obtain ⟨d, hd, rfl, -⟩ := (replaces_iff tag s).mp hr
    exact ⟨List.filter_sublist, (removeTag_length_lt hd).trans_le hs.1, fun q hq => (mem_removeTag.mp hq).2⟩
  · exact ⟨.refl _, hl, absent hr⟩
  · exact ⟨List.filter_sublist, (removeTag_length_lt (oldestFinished_mem ho).1).trans_le hs.1,
      fun q hq => absent hr q (mem_removeTag.mp hq).1⟩

theorem listHeld_loadCue {bs : List Byte} {c : Coerced Cue} {s : State} (hc : readCue (std s) bs = some c)
    (h : loadRefusal c.value s = none) (hs : ListHeld s) : ListHeld (loadCue c.value s) := by
  obtain ⟨hl, h1, hr⟩ := hs
  obtain ⟨hrole, hf, ha⟩ := loadRefusal_none h
  obtain ⟨sub, hlen, htags⟩ := roomFor_spec hl hf ha
  obtain ⟨hw, h0⟩ := readCue_waiting hc
  have perm := placeCue_perm c.value (roomFor c.value.tag s)
  refine ⟨⟨?_, ?_, ?_, ?_⟩, ?_, ?_⟩
  · show (placeCue c.value (roomFor c.value.tag s)).length ≤ 24
    rw [perm.length_eq]; exact hlen
  · show ((placeCue c.value (roomFor c.value.tag s)).map Cue.tag).Nodup
    rw [(perm.map _).nodup_iff]
    refine List.nodup_cons.mpr ⟨fun k => ?_, hl.2.1.sublist (sub.map _)⟩
    obtain ⟨d, hd, ht⟩ := List.mem_map.mp k
    exact htags d hd ht
  · intro d hd
    obtain rfl | hd := mem_loadCue hd
    · exact h0
    · exact hl.2.2.1 d hd
  · exact placeCue_ordered _ (hl.2.2.2.sublist sub)
  · show ((placeCue c.value (roomFor c.value.tag s)).filter Cue.recording).length ≤ 1
    rw [(perm.filter _).length_eq, List.filter_cons_of_neg (by simp [waiting_not_recording hw])]
    exact ((sub.filter _).length_le).trans h1
  · intro d hd hrec
    obtain rfl | hd := mem_loadCue hd
    · unfold cueRoleRefused at hrole
      unfold Cue.isRecord at hrec
      split at hrec
      · rename_i ha
        rw [ha] at hrole
        show role s = .recorder
        simpa using hrole
      all_goals simp at hrec
    · exact hr d hd hrec

end Sys2Proof.Machine

/-! SUPPORT and O55. REC and the EDIT lines: what breaks a record releases them, what ends an ACTIVE RECORD cue releases
them, and nothing else leaves PLAY while they are asserted (R94 to R96, R146). -/

namespace Sys2Proof.Machine

set_option Elab.async false

/-! ### The lines while asserted -/

/-- What `RecordSound` says of the lines, but for PLAY, which breaking a record restores (R96). -/
def PunchOwned (s : State) : Prop :=
  ∀ p ∈ s.tr.punch, Running s ∧ role s = .recorder ∧ p.tracks ≠ 0
    ∧ ∃ c ∈ s.cues.list, recordsWith s.tr.armed p.tracks c

theorem recordSound_iff (s : State) :
    RecordSound s ↔ ListHeld s ∧ PunchOwned s ∧ (s.tr.punch.isSome = true → transportState s = .play) := by
  constructor
  · rintro ⟨h1, h2, h3, h4⟩
    refine ⟨⟨h1, h2, h3⟩, fun p hp => ?_, fun hsome => ?_⟩
    · obtain ⟨a, b, -, d⟩ := h4 p hp
      exact ⟨a, b, d⟩
    · obtain ⟨p, hp⟩ := Option.isSome_iff_exists.mp hsome
      exact (h4 p hp).2.2.1
  · rintro ⟨⟨h1, h2, h3⟩, h4, h5⟩
    refine ⟨h1, h2, h3, fun p hp => ?_⟩
    obtain ⟨a, b, d⟩ := h4 p hp
    exact ⟨a, b, h5 (Option.isSome_iff_exists.mpr ⟨p, hp⟩), d⟩

theorem recordSound_released {s : State} (h : ListHeld s) (hp : s.tr.punch = none) : RecordSound s :=
  (recordSound_iff s).mpr ⟨h, by simp [PunchOwned, hp], by simp [hp]⟩

theorem RecordSound.list {s : State} (h : RecordSound s) : ListHeld s := ((recordSound_iff s).mp h).1

theorem RecordSound.owned {s : State} (h : RecordSound s) : PunchOwned s := ((recordSound_iff s).mp h).2.1

/-- Out of PLAY nothing is asserted (R96). -/
theorem RecordSound.released {s : State} (h : RecordSound s) (hp : transportState s ≠ .play) : s.tr.punch = none := by
  by_contra k
  exact hp (((recordSound_iff s).mp h).2.2 (Option.isSome_iff_ne_none.mpr k))

theorem recordsWith_recording {armed tracks : Tracks} {c : Cue} (h : recordsWith armed tracks c) :
    c.recording = true := by
  obtain ⟨ha, own, length, hc, -⟩ := h
  simp [Cue.recording, Cue.isRecord, ha, hc]

/-- Without an ACTIVE RECORD cue nothing is asserted (R94). -/
theorem PunchOwned.released {s : State} (h : PunchOwned s) (ha : activeRecord s = none) : s.tr.punch = none := by
  rw [Option.eq_none_iff_forall_not_mem]
  intro p hp
  obtain ⟨-, -, -, c, hc, hr⟩ := h p hp
  exact List.find?_eq_none.mp ha c hc (recordsWith_recording hr)

theorem SameRecord.recordsWith {armed tracks : Tracks} {c d : Cue} (h : SameRecord c d)
    (k : recordsWith armed tracks c) : recordsWith armed tracks d := by
  have hr := h.recording ▸ recordsWith_recording k
  obtain ⟨-, own, length, hc, ht⟩ := k
  simp only [Cue.recording, Bool.and_eq_true, decide_eq_true_eq] at hr
  exact ⟨hr.1, own, length, h.action ▸ hc, ht⟩

theorem transportState_congr {s t : State} (hz : t.straps = s.straps) (hp : t.pins = s.pins)
    (ht : t.tr = { s.tr with punch := t.tr.punch }) : transportState t = transportState s := by
  have h1 : t.tr.locate = s.tr.locate := by rw [ht]
  have h2 : t.tr.parkedMark = s.tr.parkedMark := by rw [ht]
  have h3 : t.tr.command = s.tr.command := by rw [ht]
  unfold transportState
  rw [role_congr hz, hp, h1, h2, h3]

/-- The lines after a change that keeps the tracks asserted and the RECORD cues. -/
theorem PunchOwned.congr {s t : State} (h : PunchOwned s) (hz : t.straps = s.straps)
    (hw : t.power.supervisor = s.power.supervisor) (ha : t.tr.armed = s.tr.armed)
    (hp : ∀ p ∈ t.tr.punch, ∃ q ∈ s.tr.punch, p.tracks = q.tracks) (hc : KeepsRecords s t) : PunchOwned t := by
  intro p hpt
  obtain ⟨q, hq, e⟩ := hp p hpt
  obtain ⟨hrun, hrole, htracks, c, hmem, hr⟩ := h q hq
  obtain ⟨f, hf, kr⟩ := hc
  refine ⟨hw.trans hrun, (role_congr hz).trans hrole, e ▸ htracks, f c, ?_, ?_⟩
  · rw [hf]; exact List.mem_map_of_mem hmem
  · rw [ha, e]; exact (kr c hmem).recordsWith hr

/-- A change beside the lines, the deck and the RECORD cues. -/
theorem Frame.recordSound {w : List Part} {s t : State} (f : Frame w s t) (hc : KeepsRecords s t)
    (hs : RecordSound s)
    (hw : (Part.power ∉ w ∧ Part.straps ∉ w) ∧ Part.pins ∉ w ∧ Part.transport ∉ w ∧ Part.lines ∉ w := by simp) :
    RecordSound t := by
  obtain ⟨⟨w1, w2⟩, w3, w4, w5⟩ := hw
  obtain ⟨hl, ho, hp⟩ := (recordSound_iff s).mp hs
  have hz := f.same .straps w2
  have hpunch : t.tr.punch = s.tr.punch := f.same .lines w5
  have htr := f.tr w4 w5
  refine (recordSound_iff t).mpr ⟨hc.ends.listHeld hz hl, ?_, fun k => ?_⟩
  · exact ho.congr hz (congrArg Power.supervisor (f.same .power w1)) (congrArg Transport.armed htr)
      (fun p k => ⟨p, hpunch ▸ k, rfl⟩) hc
  · rw [transportState_congr hz (f.same .pins w3) (f.same .transport w4)]
    exact hp (hpunch ▸ k)

/-! ### Breaking a record -/

theorem abortActiveRecord_ends (s : State) : EndsRecords s (abortActiveRecord s) := by
  unfold abortActiveRecord
  split
  · exact updateCues_maps (s := s) NoNewRecord.refl fun c _ _ =>
      ⟨finishAs_sameKey c _ _, by simp [Cue.finishAs, Cue.recording]⟩
  · exact mapsCues_of_eq NoNewRecord.refl rfl

theorem endActiveRecord_ends (s : State) : EndsRecords s (endActiveRecord s) :=
  updateCues_maps (s := s) NoNewRecord.refl fun c _ _ => ⟨finishAs_sameKey c _ _, by simp [Cue.finishAs, Cue.recording]⟩

/-- R96: whatever the transport state was set to, breaking the record leaves the lines sound. -/
theorem breakRecord_sound {s : State} (hl : ListHeld s) (ho : PunchOwned s) : RecordSound (breakRecord s) := by
  unfold breakRecord
  split
  · refine recordSound_released ?_ ?_
    · exact (abortActiveRecord_ends (punchOut s)).listHeld ((abortActiveRecord_frame _).same .straps) hl
    · exact (abortActiveRecord_frame (punchOut s)).same .lines
  · rename_i h
    exact (recordSound_iff s).mpr ⟨hl, ho, fun k => by simpa [k] using h⟩

theorem takeCommand_recordSound (c : Command) {s : State} (hs : RecordSound s) : RecordSound (takeCommand c s) := by
  unfold takeCommand
  split
  · exact breakRecord_sound (s := s.setTr _) hs.list hs.owned
  · exact hs

/-- While a locate runs, the state is LOCATING or the deck is not there. -/
theorem locating_not_play {s : State} (h : s.tr.locate.isSome = true) : transportState s ≠ .play := by
  unfold transportState
  simp only [h, if_true]
  split
  · simp
  split
  · simp
  split <;> simp

/-- A change of the locate that runs: nothing is asserted. -/
theorem setLocate_recordSound {s : State} (hs : RecordSound s) (h : s.tr.locate.isSome = true) (x : Option Locate) :
    RecordSound (s.setTr { s.tr with locate := x }) :=
  recordSound_released (s := s.setTr _) hs.list (hs.released (locating_not_play h))

theorem giveLocate_recordSound (skips : Option Word16) (target : Nat) {s : State} (hs : RecordSound s) :
    RecordSound (giveLocate skips target s) := by
  unfold giveLocate
  split
  · split
    · rename_i l hl
      exact setLocate_recordSound hs (by simp [hl]) _
    · exact breakRecord_sound (s := s.setTr _) hs.list hs.owned
  · exact hs

/-! ### The Transport Controller -/

/-- Timers and speed words: the transport state and the tracks asserted stay. -/
theorem recordSound_timers {s : State} (hs : RecordSound s) (x : Transport)
    (hx : x = { s.tr with punch := x.punch, servoTimer := x.servoTimer, speedWord := x.speedWord, speedSent := x.speedSent })
    (hp : ∀ p ∈ x.punch, ∃ q ∈ s.tr.punch, p.tracks = q.tracks) : RecordSound (s.setTr x) := by
  obtain ⟨hl, ho, hpl⟩ := (recordSound_iff s).mp hs
  have hstate : transportState (s.setTr x) = transportState s := by
    unfold transportState
    simp only [State.setTr_tr, State.setTr_pins]
    rw [hx]
    rfl
  refine (recordSound_iff _).mpr ⟨hl, ?_, fun k => ?_⟩
  · exact ho.congr (t := s.setTr x) rfl rfl (by rw [State.setTr_tr, hx]) hp (setTr_frame s x).keepsRecords
  · obtain ⟨p, hpx⟩ := Option.isSome_iff_exists.mp k
    obtain ⟨q, hq, -⟩ := hp p hpx
    rw [hstate]
    exact hpl (Option.isSome_iff_exists.mpr ⟨q, hq⟩)

theorem punchMap_tracks {f : Punch → Punch} (hf : ∀ p, (f p).tracks = p.tracks) {o : Option Punch} :
    ∀ p ∈ o.map f, ∃ q ∈ o, p.tracks = q.tracks := by
  intro p hp
  obtain ⟨q, hq, rfl⟩ := Option.map_eq_some_iff.mp hp
  exact ⟨q, hq, hf q⟩

theorem Punch.count_tracks (p : Punch) : p.count.tracks = p.tracks := by unfold Punch.count; split <;> rfl

theorem Punch.confirm_tracks (p : Punch) : p.confirm.tracks = p.tracks := by unfold Punch.confirm; split <;> rfl

theorem TransportMove.recordSound {s t : State} (m : TransportMove s t) (hs : RecordSound s) : RecordSound t := by
  have same : ∀ p ∈ s.tr.punch, ∃ q ∈ s.tr.punch, p.tracks = q.tracks := fun p hp => ⟨p, hp, rfl⟩
  cases m with
  | command c => exact takeCommand_recordSound c hs
  | locate skips target => exact giveLocate_recordSound skips target hs
  | locateGoesOn l k hl => exact setLocate_recordSound hs (by simp [hl]) _
  | countServo => exact recordSound_timers hs _ rfl same
  | countTally => exact recordSound_timers hs _ rfl (punchMap_tracks Punch.count_tracks)
  | tallyExpiry =>
    unfold Machine.tallyExpiry
    split
    · rename_i tracks n hp
      split
      · refine (setFlag_frame .recordFault _).recordSound (setFlag_frame .recordFault _).keepsRecords ?_
        exact recordSound_timers hs _ rfl fun p h => ⟨_, hp, by obtain rfl := Option.mem_some.mp h; rfl⟩
      · exact hs
    · exact hs
  | speedWord =>
    unfold sendSpeedWord stopSpeedWord
    split <;> exact recordSound_timers hs _ rfl same
  | arm x ha => exact recordSound_released (s := setArmed x s) hs.list (hs.owned.released ha)

theorem locateEnd_recordSound {s t : State} (m : LocateEnd s t) (hs : RecordSound s) : RecordSound t := by
  have hsome : s.tr.locate.isSome = true := by cases m <;> rename_i h <;> simp [h]
  have hnone := hs.released (locating_not_play hsome)
  have hpunch : t.tr.punch = s.tr.punch := by
    cases m with
    | success l => exact (noteParkEnd_frame l.target _).same .lines
    | failure l => exact (noteParkEnd_frame l.target _).same .lines
  exact recordSound_released (m.frame.keepsRecords.ends.listHeld (m.frame.same .straps) hs.list) (hpunch.trans hnone)

/-! ### The deck's lines -/

/-- Where the station is not a deck in RUN, nothing is asserted. -/
theorem RecordSound.idle {s : State} (hs : RecordSound s) (h : ¬(s.power.supervisor = .run ∧ isDeck s = true)) :
    s.tr.punch = none := by
  rw [Option.eq_none_iff_forall_not_mem]
  intro p hp
  obtain ⟨hrun, hrole, -⟩ := hs.owned p hp
  exact h ⟨hrun, by simp [isDeck, hrole]⟩

theorem dropDeck_recordSound {s : State} (hl : ListHeld s) (ho : PunchOwned s) : RecordSound (dropDeck s) :=
  breakRecord_sound (s := s.setTr _) hl ho

theorem quietPort_recordSound {s : State} (hs : RecordSound s) : RecordSound (quietPort s) := by
  unfold quietPort
  split
  · exact hs
  · exact recordSound_timers hs _ rfl fun p hp => ⟨p, hp, rfl⟩

/-- A line changes where nothing is asserted. -/
theorem setPins_released {s : State} (hs : RecordSound s) (h : s.tr.punch = none) (x : Pins) :
    RecordSound (s.setPins x) := recordSound_released (s := s.setPins x) hs.list h

/-- A locate that fails leaves the record lines as they are. -/
theorem failLocate_owned {s : State} (hl : ListHeld s) (ho : PunchOwned s) :
    ListHeld (failLocate s) ∧ PunchOwned (failLocate s) := by
  have f := failLocate_frame s
  have hk : KeepsRecords s (failLocate s) := f.keepsRecords
  refine ⟨hk.ends.listHeld (f.same .straps) hl, ho.congr (f.same .straps) (congrArg Power.supervisor (f.same .power)) ?_
    (fun p hp => ⟨p, ?_, rfl⟩) hk⟩
  · unfold failLocate
    split
    · rename_i l _
      show (noteParkEnd l.target _).tr.armed = s.tr.armed
      rw [(noteParkEnd_frame l.target _).tr]
      rfl
    · rfl
  · have e : (failLocate s).tr.punch = s.tr.punch := f.same .lines
    exact e ▸ hp

theorem threadedChange_recordSound (level : Bool) {s : State} (hs : RecordSound s) :
    RecordSound (threadedChange level s) := by
  unfold threadedChange
  dsimp only
  split
  · rename_i h
    obtain ⟨-, -, hne⟩ := h
    unfold threadedTaken
    split
    · rename_i hlevel
      have hnone : s.tr.punch = none := hs.released (by
        have : s.pins.threaded = false := by simpa [hlevel] using hne
        unfold transportState; split <;> simp [this])
      exact quietPort_recordSound (recordSound_released (s := (s.setPins _).setTr _) hs.list hnone)
    · obtain ⟨kl, ko⟩ := failLocate_owned (s := s.setPins { s.pins with threaded := level }) hs.list hs.owned
      have hd := dropDeck_recordSound kl ko
      exact (setPos_frame _ _).recordSound (setPos_frame _ _).keepsRecords hd
  · rename_i h
    by_cases hd : s.power.supervisor = .run ∧ isDeck s = true
    · have : s.pins.threaded = level := by
        by_contra hne
        exact h ⟨hd.1, hd.2, hne⟩
      subst this
      exact hs
    · exact setPins_released hs (hs.idle hd) _

theorem localChange_recordSound (level : Bool) {s : State} (hs : RecordSound s) :
    RecordSound (localChange level s) := by
  unfold localChange
  dsimp only
  split
  · rename_i h
    obtain ⟨-, -, hth, hne⟩ := h
    unfold localTaken
    split
    · exact quietPort_recordSound (dropDeck_recordSound (s := s.setPins _) hs.list hs.owned)
    · rename_i hlevel
      have hnone : s.tr.punch = none := hs.released (by
        have hon : s.pins.localOn = true := by simpa [hlevel] using hne
        unfold transportState; split <;> simp [hth])
      exact recordSound_released (s := (s.setPins _).setTr _) hs.list hnone
  · rename_i h
    by_cases hd : s.power.supervisor = .run ∧ isDeck s = true
    · by_cases hth : s.pins.threaded = true
      · have : s.pins.localOn = level := by
          by_contra hne
          exact h ⟨hd.1, hd.2, hth, hne⟩
        subst this
        exact hs
      · refine setPins_released hs (hs.released ?_) _
        unfold transportState; split <;> simp [hth]
    · exact setPins_released hs (hs.idle hd) _

theorem eotChange_recordSound (level : Bool) {s : State} (hs : RecordSound s) : RecordSound (eotChange level s) := by
  unfold eotChange
  dsimp only
  split
  · exact breakRecord_sound (s := s.setPins _) hs.list hs.owned
  · rename_i h
    exact setPins_released hs (hs.idle h) _

/-- SERVO and RECTALLY do not enter the transport state (Table 6.3). -/
theorem setPins_recordSound {s : State} (hs : RecordSound s) (x : Pins) (hth : x.threaded = s.pins.threaded)
    (hlo : x.localOn = s.pins.localOn) (heot : x.eot = s.pins.eot) : RecordSound (s.setPins x) := by
  obtain ⟨hl, ho, hp⟩ := (recordSound_iff s).mp hs
  have hstate : transportState (s.setPins x) = transportState s := by
    unfold transportState
    simp only [State.setPins_pins, State.setPins_tr, hth, hlo, heot]
    rfl
  exact (recordSound_iff _).mpr ⟨hl, ho, fun k => hstate.trans (hp k)⟩

theorem servoChange_recordSound (level : Bool) {s : State} (hs : RecordSound s) :
    RecordSound (servoChange level s) := by
  have hp : RecordSound (s.setPins { s.pins with servo := level }) := setPins_recordSound hs _ rfl rfl rfl
  unfold servoChange
  dsimp only
  split
  · exact (loseLock_frame _).recordSound (loseLock_frame _).keepsRecords hp
  · exact hp

theorem rectallyChange_recordSound (level : Bool) {s : State} (hs : RecordSound s) :
    RecordSound (rectallyChange level s) := by
  have hp : RecordSound (s.setPins { s.pins with rectally := level }) := setPins_recordSound hs _ rfl rfl rfl
  unfold rectallyChange
  dsimp only
  split
  · exact recordSound_timers hp _ rfl (punchMap_tracks Punch.confirm_tracks)
  · exact hp

theorem deckLine_recordSound {c : Instr} {s t : State} (hc : isDeckLine c = true) (e : exec c s = .next t)
    (hs : RecordSound s) : RecordSound t := by
  obtain ⟨level, rfl | rfl | rfl | rfl | rfl⟩ := deckLine_cases hc e
  · exact threadedChange_recordSound level hs
  · exact localChange_recordSound level hs
  · exact eotChange_recordSound level hs
  · exact servoChange_recordSound level hs
  · exact rectallyChange_recordSound level hs

/-! ### The fire of a RECORD cue -/

theorem punchOut_released {s : State} (h : ListHeld s) : RecordSound (punchOut s) :=
  recordSound_released (s := punchOut s) h rfl

theorem activate_keys (tag : Byte) (remaining : Nat) (s : State) : KeepsKeys s (activate tag remaining s) :=
  updateCues_keys (f := fun c => { c with state := .active, remaining := remaining, notReady := 0 })
    (fun _ => ⟨rfl, rfl, rfl⟩) s

/-- After the earlier cue has ended, the cue of the tag alone is recording. -/
theorem activate_listHeld {tag : Byte} {remaining : Nat} {s : State} (hs : ListHeld s)
    (hnone : ∀ c ∈ s.cues.list, c.recording = false) : ListHeld (activate tag remaining s) := by
  have keys : KeepsKeys s (activate tag remaining s) := activate_keys tag remaining s
  obtain ⟨hl, -, hr⟩ := hs
  refine ⟨cueListSound_keys hl keys, ?_, ?_⟩
  · have hsound := cueListSound_keys hl keys
    have htag : ∀ c ∈ (activate tag remaining s).cues.list.filter Cue.recording, c.tag = tag := by
      intro c hc
      obtain ⟨hmem, hrec⟩ := List.mem_filter.mp hc
      obtain ⟨d, hd, rfl⟩ := List.mem_map.mp hmem
      dsimp only at hrec ⊢
      split at hrec
      · rename_i hw
        rw [if_pos hw]
        simp only [Cue.waitingFor, Bool.and_eq_true, decide_eq_true_eq] at hw
        exact hw.1
      · simp [hnone d hd] at hrec
    have hnodup : ((activate tag remaining s).cues.list.filter Cue.recording).map Cue.tag |>.Nodup :=
      hsound.2.1.sublist (List.filter_sublist.map _)
    by_contra hlen
    obtain ⟨a, b, rest, e⟩ : ∃ a b rest, (activate tag remaining s).cues.list.filter Cue.recording = a :: b :: rest := by
      match hcs : (activate tag remaining s).cues.list.filter Cue.recording with
      | [] => simp [hcs] at hlen
      | [a] => simp [hcs] at hlen
      | a :: b :: rest => exact ⟨a, b, rest, rfl⟩
    rw [e] at htag hnodup
    have hab : a.tag = b.tag := (htag a (by simp)).trans (htag b (by simp)).symm
    simp [hab] at hnodup
  · intro d hd hrec
    obtain ⟨f, hf, kr⟩ := keys
    rw [hf] at hd
    obtain ⟨c, hc, rfl⟩ := List.mem_map.mp hd
    exact hr c hc ((kr c hc).isRecord ▸ hrec)

theorem endActiveRecord_not_recording (s : State) : ∀ c ∈ (endActiveRecord s).cues.list, c.recording = false := by
  intro c hc
  exact Bool.eq_false_of_not_eq_true (List.find?_eq_none.mp (endActiveRecord_none s) c hc)

theorem answerPunch_listHeld (tag : Byte) (a : PunchAnswer) {s : State} (hs : ListHeld s) :
    ListHeld (answerPunch tag a s) := by
  have k : EndsRecords s (answerPunch tag a s) := by
    unfold answerPunch
    split
    · exact mapsCues_of_eq NoNewRecord.refl rfl
    · exact updateCues_maps NoNewRecord.refl fun c _ _ => ⟨⟨rfl, rfl, rfl⟩, id⟩
    · exact updateCues_maps (s := s) NoNewRecord.refl fun c _ _ =>
        ⟨finishAs_sameKey c _ _, by simp [Cue.finishAs, Cue.recording]⟩
  exact k.listHeld ((answerPunch_frame tag a s).same .straps) hs

/-- The waiting cue of the tag is ACTIVE once the earlier one has ended (R145, R146). -/
theorem activated_mem {tag : Byte} {length : Nat} {s : State} {c : Cue} (hc : c ∈ s.cues.list)
    (ht : c.tag = tag) (hw : c.state = .waiting) :
    { c with state := .active, remaining := length, notReady := 0 } ∈ (activate tag length (endActiveRecord s)).cues.list := by
  have hmem : c ∈ (endActiveRecord s).cues.list :=
    List.mem_map.mpr ⟨c, hc, by simp [waiting_not_recording hw]⟩
  exact List.mem_map.mpr ⟨c, hmem, by simp [Cue.waitingFor, ht, hw]⟩

theorem fireRecord_recordSound {tag : Byte} {tracks : Tracks} {length : Nat} {s : State} (hs : RecordSound s)
    (hr : Running s) (h : ∃ c ∈ s.cues.list, c.tag = tag ∧ c.state = .waiting ∧ c.action = .record tracks length) :
    RecordSound (fireRecord tag tracks length s) := by
  obtain ⟨c, hc, ht, hw, ha⟩ := h
  have hrole : role s = .recorder := hs.list.2.2 c hc (by simp [Cue.isRecord, ha])
  have hend := (endActiveRecord_ends s).listHeld (t := endActiveRecord s) rfl hs.list
  have hact := activate_listHeld (tag := tag) (remaining := 2 * length) hend (endActiveRecord_not_recording s)
  have hmem := activated_mem (length := 2 * length) hc ht hw
  unfold fireRecord
  dsimp only
  generalize hu : activate tag (2 * length) (endActiveRecord s) = u at hact hmem
  have htr : u.tr = s.tr := by rw [← hu]; rfl
  have hstate : transportState u = transportState s := by rw [← hu]; rfl
  unfold punchIn
  cases hp : punchAnswer tracks u with
  | rehearsal =>
    exact recordSound_released (s := answerPunch tag .rehearsal (punchOut u))
      (answerPunch_listHeld (s := punchOut u) tag .rehearsal hact) ((answerPunch_frame tag .rehearsal (punchOut u)).same .lines)
  | broken =>
    have hnone : u.tr.punch = none := by
      unfold punchAnswer at hp
      split at hp
      · simp at hp
      · split at hp
        · simp at hp
        · rename_i k
          simp only [Bool.or_eq_true, not_or, Bool.not_eq_true, Option.isSome_eq_false_iff, Option.isNone_iff_eq_none] at k
          exact k.1
    have hlines : (answerPunch tag .broken u).tr.punch = u.tr.punch := (answerPunch_frame tag .broken u).same .lines
    exact recordSound_released (answerPunch_listHeld tag _ hact) (hlines.trans hnone)
  | punched =>
    have hq : tracks &&& u.tr.armed ≠ 0 ∧ (u.tr.punch.isSome = true ∨ transportState u = .play) := by
      unfold punchAnswer at hp
      split at hp
      · simp at hp
      · rename_i k0
        split at hp
        · rename_i k; exact ⟨k0, by simpa using k⟩
        · simp at hp
    refine (recordSound_iff _).mpr ⟨hact, fun p hpx => ?_, fun _ => ?_⟩
    · obtain rfl := Option.mem_some.mp hpx
      have hz : u.straps = s.straps := by rw [← hu]; rfl
      have hsup : u.power = s.power := by rw [← hu]; rfl
      exact ⟨(congrArg Power.supervisor hsup).trans hr, (role_congr hz).trans hrole, hq.1, _, hmem, rfl, tracks, length,
        ha, rfl⟩
    · show transportState (u.setTr _) = .play
      rw [transportState_setPunch, hstate]
      obtain hsome | hplay := hq.2
      · exact ((recordSound_iff s).mp hs).2.2 (htr ▸ hsome)
      · exact hstate ▸ hplay

/-! ### The other changes of the cues -/

theorem recordLengthEnd_recordSound {s : State} (hs : RecordSound s) : RecordSound (recordLengthEnd s) := by
  unfold recordLengthEnd
  split
  · split
    · exact punchOut_released ((endActiveRecord_ends s).listHeld (t := endActiveRecord s) rfl hs.list)
    · exact hs
  · exact hs

/-- Marking the ACTIVE RECORD cue keeps it so. -/
theorem updateCues_sameRecord {pick : Cue → Bool} {f : Cue → Cue} {s : State}
    (h : ∀ c ∈ s.cues.list, pick c = true → SameRecord c (f c)) (hs : RecordSound s) :
    RecordSound (updateCues pick f s) :=
  (updateCues_frame pick f s).recordSound (updateCues_maps SameRecord.refl h) hs

theorem notReadyLimit_recordSound {s : State} (hs : RecordSound s) : RecordSound (notReadyLimit s) := by
  unfold notReadyLimit
  split
  · split
    · split
      · exact punchOut_released ((abortActiveRecord_ends s).listHeld ((abortActiveRecord_frame s).same .straps) hs.list)
      · refine (setFlag_frame .syncSlip _).recordSound (setFlag_frame .syncSlip _).keepsRecords ?_
        exact updateCues_sameRecord (fun c _ _ => ⟨⟨rfl, rfl, rfl⟩, rfl⟩) hs
    · exact hs
  · exact hs

theorem loadCue_recordSound {bs : List Byte} {c : Coerced Cue} {s : State} (hc : readCue (std s) bs = some c)
    (h : loadRefusal c.value s = none) (hs : RecordSound s) : RecordSound (loadCue c.value s) := by
  obtain ⟨-, hf, ha⟩ := loadRefusal_none h
  obtain ⟨hl, ho, hp⟩ := (recordSound_iff s).mp hs
  refine (recordSound_iff _).mpr ⟨listHeld_loadCue hc h hl, fun p hpt => ?_, hp⟩
  obtain ⟨hrun, hrole, htracks, d, hd, hrec⟩ := ho p hpt
  exact ⟨hrun, hrole, htracks, d, mem_placeCue.mpr (.inr (active_mem_roomFor hl.1 hf ha hd hrec.1)), hrec⟩

/-- A list from which no ACTIVE cue leaves. -/
theorem filter_recordSound {keep : Cue → Bool} {s : State} (hs : RecordSound s)
    (h : ∀ c ∈ s.cues.list, c.state = .active → keep c = true) :
    RecordSound (setList (s.cues.list.filter keep) s) := by
  obtain ⟨hl, ho, hp⟩ := (recordSound_iff s).mp hs
  refine (recordSound_iff _).mpr ⟨listHeld_filter keep hl, fun p hpt => ?_, hp⟩
  obtain ⟨hrun, hrole, htracks, d, hd, hrec⟩ := ho p hpt
  exact ⟨hrun, hrole, htracks, d, List.mem_filter.mpr ⟨hd, h d hd hrec.1⟩, hrec⟩

theorem waitingFor_iff {tag : Byte} {c : Cue} : c.waitingFor tag = true ↔ c.tag = tag ∧ c.state = .waiting := by
  simp [Cue.waitingFor]

theorem CueMove.recordSound {s t : State} (m : CueMove s t) (hs : RecordSound s) : RecordSound t := by
  cases m with
  | fireRecord tag tracks length hr h => exact fireRecord_recordSound hs hr h
  | activate tag h =>
    obtain ⟨q, hq, ht, -, htrans⟩ := h
    refine updateCues_sameRecord (fun c hc hw => ⟨⟨rfl, rfl, rfl⟩, ?_⟩) hs
    obtain rfl := hs.list.1.eq_of_tag hc hq ((waitingFor_iff.mp hw).1.trans ht.symm)
    have hrec : c.isRecord = false := isTransition_not_record htrans
    show (_ && c.isRecord) = (_ && c.isRecord)
    rw [hrec, Bool.and_false, Bool.and_false]
  | finishWaiting tag state h =>
    refine updateCues_sameRecord (fun c hc hw => ⟨finishAs_sameKey c _ _, ?_⟩) hs
    rw [waiting_not_recording (waitingFor_iff.mp hw).2]
    obtain rfl | rfl := h <;> rfl
  | touchCues pick f h =>
    refine updateCues_sameRecord (fun c _ _ => ?_) hs
    have k : SameKey c (f c) := ⟨(h c).tag, (h c).trigger, (h c).action⟩
    exact ⟨k, by unfold Cue.recording; rw [(h c).state, k.isRecord]⟩
  | recordLengthEnd => exact recordLengthEnd_recordSound hs
  | notReadyLimit => exact notReadyLimit_recordSound hs
  | loadCue bs c hc h => exact loadCue_recordSound hc h hs
  | dropCue tag c hc ha =>
    refine filter_recordSound hs fun d hd hact => ?_
    have hmem := List.mem_of_find?_eq_some hc
    have htag : c.tag = tag := by simpa using List.find?_some hc
    by_contra k
    have hdt : d.tag = tag := by simpa using k
    exact ha (by rw [← hs.list.1.eq_of_tag hd hmem (hdt.trans htag.symm)]; exact hact)
  | keepCues keep h => exact filter_recordSound hs h

theorem abortActive_recordSound {s : State} (hs : RecordSound s) : RecordSound (abortActive s) := by
  unfold abortActive
  split
  · have finish (u : State) (hu : u.cues = s.cues) (hz : u.straps = s.straps) :
        RecordSound (setFlag .cueAborted
          (updateCues (fun c => c.state = .active) (fun c => c.finishAs .aborted u.time.fieldCount) (punchOut u))) := by
      refine recordSound_released (s := setFlag .cueAborted _) ?_ rfl
      have hk : EndsRecords s (updateCues (fun c => c.state = .active)
          (fun c => c.finishAs .aborted u.time.fieldCount) (punchOut u)) := by
        have k1 : EndsRecords s (punchOut u) := mapsCues_of_eq NoNewRecord.refl (congrArg CueEngine.list hu)
        exact k1.trans (updateCues_maps (s := punchOut u) NoNewRecord.refl fun c _ _ =>
          ⟨finishAs_sameKey c _ _, by simp [Cue.finishAs, Cue.recording]⟩)
      exact EndsRecords.listHeld (t := setFlag .cueAborted _) hk hz hs.list
    dsimp only
    split
    · have f := cutContext_frame s
      have ht : (cutContext s).time = s.time := f.same .time
      have hc : (cutContext s).cues = s.cues := by unfold cutContext; split <;> rfl
      rw [← ht]
      exact finish _ hc (f.same .straps)
    · exact finish s rfl rfl
  · exact hs

theorem recordSound_move {s t : State} (hs : RecordSound s) (m : Move s t) : RecordSound t := by
  cases m.sorted with
  | power hc e =>
    obtain ⟨x, rfl, hx⟩ | ⟨z, x, rfl⟩ := power_cases hc e
    · obtain ⟨hl, ho, hp⟩ := (recordSound_iff s).mp hs
      exact (recordSound_iff _).mpr ⟨hl, ho.congr (t := s.setPower x) rfl hx rfl (fun p hp => ⟨p, hp, rfl⟩)
        (setPower_frame s x).keepsRecords, hp⟩
    · refine recordSound_released ⟨⟨?_, ?_, ?_, ?_⟩, ?_, ?_⟩ rfl <;> simp [resetBlocks, State.atReset, CueEngine.atReset]
  | deckLine hc e => exact deckLine_recordSound hc e hs
  | transport k => exact k.recordSound hs
  | locateEnd k => exact locateEnd_recordSound k hs
  | locateMark _ k =>
    have hp : RecordSound (popMark s) := (setMarks_frame s _).recordSound (setMarks_frame s _).keepsRecords hs
    exact giveLocate_recordSound _ _ hp
  | cue k => exact k.recordSound hs
  | abort => exact abortActive_recordSound hs
  | fader k => exact k.frame.recordSound k.records hs
  | side f => exact f.recordSound f.keepsRecords hs
  | peers => exact (setPeers_frame s _).recordSound (setPeers_frame s _).keepsRecords hs
  | time => exact (setTime_frame s _).recordSound (setTime_frame s _).keepsRecords hs
  | link f => exact f.frame.recordSound f.frame.keepsRecords hs
  | pos k => exact k.frame.recordSound k.frame.keepsRecords hs
  | chase k => exact k.frame.recordSound k.frame.keepsRecords hs
  | marks k => exact k.frame.recordSound k.frame.keepsRecords hs

/-- Settles O55: every change keeps the cue list, and the lines with the ACTIVE RECORD cue that owns them. -/
theorem recordLinesStaySound : Obligations.RecordLinesStaySound :=
  fun _ _ hs h => step_keeps (fun _ _ k => k) (fun _ _ => recordSound_move) hs h

end Sys2Proof.Machine

/-! SUPPORT and O1, O2, O3, O4, O5, O6, O54. The step, the supply and the reset. -/

namespace Sys2Proof.Machine

set_option Elab.async false

/-! ### The queue and the step -/

/-- Settles O1: the two branches of `step`. -/
theorem stepTakesTheQueue : Obligations.StepTakesTheQueue := by
  refine ⟨fun c rest s h => ?_, fun s h => ?_⟩
  · unfold step; rw [h]
  · unfold step; rw [h]

theorem exec_answers_next (c : Instr) (s : State) : ∃ t, exec c s = .next t := by
  have run (f : State → State) : ∃ t, inRun f s = .next t := ⟨_, rfl⟩
  cases c
  case powerUp | brownout | resetPinLow | supplyRecovery | resetPinRelease => exact ⟨_, rfl⟩
  case threadedChange | localChange | eotChange | servoFall | rectallyRise => exact ⟨_, rfl⟩
  all_goals exact run _

/-- Straps change where a full reset reads them, and there alone. -/
theorem power_straps {c : Instr} (hc : ∀ p, c ≠ .supplyRecovery (some p) ∧ c ≠ .resetPinRelease p) {s t : State}
    (hp : isPowerCommand c = true) (h : exec c s = .next t) : t.straps = s.straps := by
  cases c <;> simp only [isPowerCommand, Bool.false_eq_true] at hp
  case powerUp => obtain rfl := Host.Outcome.next.inj h; rfl
  case brownout =>
    obtain rfl := Host.Outcome.next.inj h
    unfold brownout; split <;> rfl
  case resetPinLow =>
    obtain rfl := Host.Outcome.next.inj h
    unfold resetPinLow; split <;> rfl
  case supplyRecovery read =>
    cases read with
    | none =>
      obtain rfl := Host.Outcome.next.inj h
      unfold supplyRecovery supplySags; dsimp only; split <;> rfl
    | some p => exact absurd rfl (hc p).1
  case resetPinRelease p => exact absurd rfl (hc p).2

/-! ### The straps beside the power commands -/

theorem straps_inRun {f : State → State} {s t : State} (hf : (f s).straps = s.straps) (e : inRun f s = .next t) :
    t.straps = s.straps := by
  obtain ⟨u, hu, hc⟩ := inRun_answers_next f s
  obtain rfl := Host.Outcome.next.inj (hu.symm.trans e)
  obtain rfl | rfl := hc
  · rfl
  · exact hf

theorem straps_beside {f : State → State} {s t : State} {w : List Part} (hf : Frame w s (f s))
    (e : inRun f s = .next t) (hw : Part.straps ∉ w := by simp) : t.straps = s.straps :=
  straps_inRun (hf.same .straps hw) e

theorem straps_arrive (source : Byte) {take : State → State} {s : State} {w : List Part}
    (ht : Frame w (received s) (take (received s))) (hw : Part.straps ∉ w := by simp) :
    (arrive source take s).straps = s.straps := by
  unfold arrive
  split
  · split
    · exact (discardFrame_only _ s).frame.same .straps
    · exact ht.same .straps hw
  · rfl

theorem straps_takeRequest (r : Request) {judge : State → Judged} {s : State} {w : List Part}
    (hj : Frame w (received s) (judge (received s)).2) (hw : Part.straps ∉ w := by simp) :
    (takeRequest r judge s).straps = s.straps :=
  takeRequest_keeps (P := fun u => u.straps = s.straps) r judge rfl ((discardFrame_only _ s).frame.same .straps) rfl
    fun _ => hj.same .straps hw

theorem straps_request {r : Request} {judge : State → Judged} {s t : State} {w : List Part}
    (hj : Frame w (received s) (judge (received s)).2) (e : inRun (takeRequest r judge) s = .next t)
    (hw : Part.straps ∉ w := by simp) : t.straps = s.straps := straps_inRun (straps_takeRequest r hj hw) e

theorem atTime_frame (time : Nat) (s : State) : Frame [.time] s (atTime time s) := setTime_frame s _

theorem quietNow_only (s : State) : LinkOnly s (quietNow s) := by
  unfold quietNow
  dsimp only
  split
  · exact ((discardFrame_only .wait s).trans (setLink_only _ _)).trans (beginDeferral_only _)
  · exact (setLink_only _ s).trans (beginDeferral_only _)

theorem lineQuiet_frame (time : Nat) (s : State) : Frame [.time, .link, .flags] s (lineQuiet time s) := by
  unfold lineQuiet
  split
  · exact (atTime_frame time s).trans (quietNow_only _).frame
  · exact (atTime_frame time s).mono

theorem gapError_frame (time : Nat) (s : State) : Frame [.time, .link, .flags] s (gapError time s) := by
  unfold gapError
  split
  · exact (atTime_frame time s).trans (quietNow_only _).frame
  · exact (atTime_frame time s).mono

theorem deferralEnd_frame (time : Nat) (s : State) : Frame [.time, .link, .flags] s (deferralEnd time s) := by
  unfold deferralEnd
  dsimp only
  split
  · exact (atTime_frame time s).trans (startHead_only _).frame
  all_goals exact (atTime_frame time s).mono

theorem fieldBoundary_straps (identity : Option Bool) (s : State) : (fieldBoundary identity s).straps = s.straps :=
  (fieldBoundary_spec identity s).2.2.1

theorem referencePulse_straps (time : Nat) (first : Bool) (s : State) : (referencePulse time first s).straps = s.straps := by
  unfold referencePulse pulseNow
  split
  · split
    · exact fieldBoundary_straps _ _
    · rfl
  · rfl
  · unfold settlingPulse warmPulse
    split
    · split
      · split <;> rfl
      · rfl
    · rfl

theorem missingLimitPresent_straps (s : State) : (missingLimitPresent s).straps = s.straps := by
  unfold missingLimitPresent missPresent
  split
  · exact (fieldBoundary_straps _ _).trans ((loseLock_frame _).same .straps)
  · rfl

theorem completePeriod_frame (s : State) : Frame [.time] s (completePeriod s) := by
  unfold completePeriod
  split <;> exact setTime_frame s _

theorem internalBoundary_straps (s : State) : (internalBoundary s).straps = s.straps := by
  unfold internalBoundary
  split
  · rfl
  · exact (fieldBoundary_straps _ _).trans ((completePeriod_frame s).same .straps)

/-- The straps are read at the end of HOLD alone (R18). -/
theorem exec_straps {c : Instr} (hc : ∀ p, c ≠ .supplyRecovery (some p) ∧ c ≠ .resetPinRelease p) {s t : State}
    (e : exec c s = .next t) : t.straps = s.straps := by
  cases c
  case powerUp => exact power_straps hc rfl e
  case brownout => exact power_straps hc rfl e
  case resetPinLow => exact power_straps hc rfl e
  case supplyRecovery => exact power_straps hc rfl e
  case resetPinRelease => exact power_straps hc rfl e
  case threadedChange => exact (deckLine_frame rfl e).same .straps
  case localChange => exact (deckLine_frame rfl e).same .straps
  case eotChange => exact (deckLine_frame rfl e).same .straps
  case servoFall => exact (deckLine_frame rfl e).same .straps
  case rectallyRise => exact (deckLine_frame rfl e).same .straps
  case referencePulse time first => exact straps_inRun (referencePulse_straps time first s) e
  case missingLimitPresent => exact straps_inRun (missingLimitPresent_straps s) e
  case missingLimitSettling => exact straps_beside (missingLimitSettling_frame s) e
  case internalBoundary => exact straps_inRun (internalBoundary_straps s) e
  case transitionComplete => exact straps_beside (transitionComplete_frame s) e
  case mixRecordEnd => exact straps_beside (endMixRecord_frame s) e
  case peerSilenceClear st => exact straps_beside (setPeers_frame s _) e
  case reportExpiry => exact straps_beside (expireReports_only s).frame e
  case candidateExpiry => exact straps_beside (PosMove.candidate s).frame e
  case silentCountExpiry => exact straps_beside (PosMove.silence s).frame e
  case servoTimerExpiry => exact straps_beside (servoExpiry_frame s) e
  case tallyTimerExpiry => exact straps_beside (tallyExpiry_frame s) e
  case pulseEnd line => exact straps_beside (updateOutput_frame line _ s) e
  case recordLengthEnd => exact straps_beside (recordLengthEnd_frame s) e
  case notReadyLimit => exact straps_beside (notReadyLimit_frame s) e
  case freewheelExpiry => exact straps_beside (freewheelStop_frame s) e
  case chaseLock => exact straps_beside (chaseLock_frame s) e
  case outWindowExpiry => exact straps_beside (outWindowExpiry_frame s) e
  case locateSettle => exact straps_beside (locateSettle_edit s).frame e
  case locateAcquireLimit => exact straps_beside (locateAcquireLimit_edit s).frame e
  case locateRecordLimit => exact straps_beside (locateRecordLimit_edit s).frame e
  case locateEotLimit => exact straps_beside (locateEotLimit_edit s).frame e
  case tachPulse forward => exact straps_beside (PosMove.tach s forward).frame e
  case timecodeWord label backward => exact straps_beside (PosMove.word s label backward).frame e
  case gpiEdge line rise => exact straps_beside (gpiEdge_frame line rise s) e
  case gpiSample levels => exact straps_beside (gpiSample_frame levels s) e
  case lineQuiet time => exact straps_beside (lineQuiet_frame time s) e
  case deferralEnd time => exact straps_beside (deferralEnd_frame time s) e
  case startBitSeen => exact straps_beside (startBit_only s).frame e
  case frameSent => exact straps_beside (frameSent_only s).frame e
  case collision => exact straps_beside (collide_only s).frame e
  case jamEnd => exact straps_beside (jamEnd_only s).frame e
  case gapError time => exact straps_beside (gapError_frame time s) e
  case positionArrival source payload => exact straps_inRun (straps_arrive source (takeBulletin_frame source payload _)) e
  case reportArrival source payload => exact straps_inRun (straps_arrive (w := []) source (.refl _)) e
  case unknownKindArrival kind source payload => exact straps_inRun (straps_arrive (w := []) source (.refl _)) e
  case requestNotAddressed source payload =>
    refine straps_inRun ?_ e
    unfold requestNotAddressed; split
    · exact straps_arrive (w := []) source (.refl _)
    · rfl
  case refusedUnknown code r =>
    refine straps_inRun ?_ e
    unfold refusedUnknown; split
    · rfl
    · exact straps_takeRequest (w := []) r (.refl _)
  case frameStart start next => exact straps_beside (frameStart_only _ s).frame e
  case brokenFrame line => exact straps_beside (brokenFrame_only line s).frame e
  case stop r => exact straps_request (judgeStop_frame r _) e
  case play r => exact straps_request (judgePlay_frame r _) e
  case shuttle r => exact straps_request (judgeShuttle_frame r _) e
  case locate r => exact straps_request (judgeLocate_frame r _) e
  case arm r => exact straps_request (judgeArm_frame r _) e
  case chase r => exact straps_request (judgeChase_frame r _) e
  case unchase r => exact straps_request (judgeUnchase_frame r _) e
  case cueLoad r => exact straps_request (judgeCueLoad_frame r _) e
  case cueDrop r => exact straps_request (judgeCueDrop_frame r _) e
  case cueClear r => exact straps_request (judgeCueClear_frame r _) e
  case fire r => exact straps_request (judgeFire_frame r _) e
  case abort r => exact straps_request (judgeAbort_frame r _) e
  case fader r => exact straps_request (judgeFader_frame r _) e
  case mark r => exact straps_request (judgeMark_frame r _) e
  case markDrop r => exact straps_request (judgeMarkDrop_frame r _) e
  case locateMark r => exact straps_request (judgeLocateMark_frame r _) e
  case gpiBind r => exact straps_request (judgeGpiBind_frame r _) e
  case tallyMap r => exact straps_request (judgeTallyMap_frame r _) e
  case clearFlags r => exact straps_request (judgeClearFlags_frame r _) e
  case sessionClear r => exact straps_request (judgeSessionClear_frame r _) e
  case readStatus r => exact straps_request (judgeReadStatus_frame r _) e
  case readCues r => exact straps_request (judgeReadCues_frame r _) e
  case readMarks r => exact straps_request (judgeReadMarks_frame r _) e

theorem pending_move {s t : State} (m : Move s t) : t.pending = s.pending := m.sorted.pending

theorem exec_pending {c : Instr} {s t : State} (e : exec c s = .next t) : t.pending = s.pending :=
  Moves.keeps (P := fun u => u.pending = s.pending) (fun _ _ h m => (pending_move m).trans h) rfl (exec_moves e)

/-- Settles O2: every arm of the dispatch answers a next state; its changes keep the queue, and the straps too but at the
end of HOLD. -/
theorem everyCommandAnswersNext : Obligations.EveryCommandAnswersNext := by
  intro c s
  obtain ⟨t, e⟩ := exec_answers_next c s
  exact ⟨t, e, exec_pending e, fun hc => exec_straps hc e⟩

/-! ### HOLD -/

/-- Every output released: what HOLD leaves of the ports (R20). -/
theorem holdWith_released (dip good : Nat) (high : Bool) (s : State) :
    let t := holdWith dip good high s
    t.power.supervisor = .hold ∧ t.tr.punch = none ∧ editLines t = 0 ∧ drive t = none ∧ modeLine t = none
      ∧ t.tr.speedSent = false ∧ driverReleased t.link = true ∧ txChars t = [] ∧ txLevels t = []
      ∧ (∀ line : GpiLine, outputActive t line = false) ∧ t.mix.sending = none ∧ mixChars t = [] ∧ speedWordChars t = []
      ∧ t.straps = s.straps ∧ t.pins = s.pins := by
  have hold : (holdWith dip good high s).power.supervisor = .hold := rfl
  have hd : drive (holdWith dip good high s) = none := by rw [drive, if_pos hold]
  refine ⟨hold, rfl, rfl, hd, by rw [modeLine, hd]; rfl, rfl, rfl, rfl, rfl, fun line => ?_, rfl, rfl, rfl, rfl, rfl⟩
  simp [outputActive, hold]

/-- Settles O3: each of the three commands enters HOLD with every block reset. -/
theorem holdEntryReleasesOutputs : Obligations.HoldEntryReleasesOutputs := by
  rintro c s (rfl | ⟨hr, rfl | rfl⟩)
  · exact ⟨_, rfl, holdWith_released 0 0 _ s⟩
  · have e : exec .brownout s = .next (holdWith dipLimit 0 s.power.resetHigh s) :=
      congrArg Host.Outcome.next (if_pos hr)
    exact ⟨_, e, holdWith_released _ _ _ s⟩
  · have e : exec .resetPinLow s = .next (holdWith 0 0 false s) := congrArg Host.Outcome.next (if_pos hr)
    exact ⟨_, e, holdWith_released _ _ _ s⟩

/-- Beside the power commands and the deck's lines every command acts in RUN alone (R20). -/
theorem exec_of_hold {s : State} (h : s.power.supervisor = .hold) {c : Instr} (hp : isPowerCommand c = false)
    (hd : isDeckLine c = false) : exec c s = .next s := by
  cases c
  case powerUp | brownout | resetPinLow | supplyRecovery | resetPinRelease => simp [isPowerCommand] at hp
  case threadedChange | localChange | eotChange | servoFall | rectallyRise => simp [isDeckLine] at hd
  all_goals exact inRun_of_hold _ h

/-- Settles O4. -/
theorem holdTakesNoInput : Obligations.HoldTakesNoInput := by
  intro s h
  have idle (p : Prop) : ¬(s.power.supervisor = .run ∧ p) := by simp [h]
  refine ⟨fun c hp hd => exec_of_hold h hp hd, fun level => ⟨?_, ?_, ?_, ?_, ?_⟩⟩
  all_goals exact congrArg Host.Outcome.next (if_neg (idle _))

/-! ### The full reset -/

theorem fullReset_fullyReset (straps : Straps) (s : State) : FullyReset straps s.pins (fullReset straps s) := by
  have hpeer (st : Station) : (fullReset straps s).peers[st] = PeerEntry.atReset := by
    simp [fullReset, resetBlocks, State.atReset]
  refine ⟨rfl, rfl, rfl, rfl, rfl, rfl, rfl, rfl, rfl, rfl, rfl, rfl, rfl, rfl, rfl, rfl, rfl, rfl, rfl, rfl,
    fun st => ?_, rfl, rfl, rfl, rfl, rfl, rfl, backoffSeed_toNat straps.station, rfl, rfl, rfl, rfl, rfl, rfl, rfl,
    rfl, rfl, rfl, rfl, rfl, rfl, rfl, rfl, rfl, rfl, rfl, rfl, rfl, rfl, ?_, rfl, rfl, rfl, fun line => ?_, rfl, rfl⟩
  · rw [hpeer]; exact ⟨rfl, rfl, rfl⟩
  · show ChaseRecord.atReset straps = _
    simp [ChaseRecord.atReset, beq_eq_decide]
  · have hi : (fullReset straps s).gpi.inputs[line]
        = { accepted := none, run := 0, lastSample := none, edge := .fall, binding := .cue, holdoff := 0 } := by
      simp [fullReset, resetBlocks, State.atReset, Gpi.atReset]
    have ho : (fullReset straps s).gpi.outputs[line] = { source := .none, pattern := .steady, pulse := none } := by
      simp [fullReset, resetBlocks, State.atReset, Gpi.atReset]
    rw [hi, ho]
    exact ⟨rfl, rfl, rfl, rfl, rfl, rfl⟩

/-- Settles O5: the ways in which HOLD goes on, and the full reset that ends it. -/
theorem holdEndsInFullReset : Obligations.HoldEndsInFullReset := by
  refine ⟨fun straps s h => ⟨fun hh => ?_, fun hg => ?_⟩, fun straps s h => ⟨fun hl => ?_, fun hg => ?_, ?_, ?_, ?_⟩,
    fun straps s h => ⟨?_, ?_, ?_⟩⟩
  · have e : exec (.supplyRecovery (some straps)) s = .next (fullReset straps s) := by
      show Host.Outcome.next (supplyRecovers straps s) = _
      rw [supplyRecovers, if_neg (by simp [h]), if_pos hh]
    exact ⟨_, e, fullReset_fullyReset straps s⟩
  · have e : exec (.resetPinRelease straps) s = .next (fullReset straps s) :=
      congrArg Host.Outcome.next (if_pos ⟨h, hg⟩)
    exact ⟨_, e, fullReset_fullyReset straps s⟩
  · show Host.Outcome.next (supplyRecovers straps s) = _
    rw [supplyRecovers, if_neg (by simp [h]), if_neg (by simp [hl]), goodLimit]
  · exact congrArg Host.Outcome.next (if_neg (by simp [goodLimit, hg]))
  · exact congrArg Host.Outcome.next (if_neg (by simp [h]))
  · exact congrArg Host.Outcome.next (if_neg (by simp [h]))
  · exact congrArg Host.Outcome.next (if_neg (by simp [h]))
  · exact congrArg Host.Outcome.next (if_pos h)
  · exact congrArg Host.Outcome.next (if_pos h)
  · exact congrArg Host.Outcome.next (if_neg (by simp [h]))

/-- What the straps fix, by their codes (R18, Tables 1.2 and 2.1). -/
theorem straps_tables (p : Straps) :
    [Role.player, .recorder, .live, .player][p.role.toNat]? = some (heldRole p)
      ∧ [Standard.f25, .f30df, .f30nd, .f30][p.std.toNat]? = some (standardOf p) := by
  have two (b : BitVec 2) : b = 0 ∨ b = 1 ∨ b = 2 ∨ b = 3 := by revert b; decide
  constructor
  · rw [heldRole]; obtain h | h | h | h := two p.role <;> rw [h] <;> rfl
  · rw [standardOf]; obtain h | h | h | h := two p.std <;> rw [h] <;> rfl

/-- A table over the standards, read at the strapped code. -/
theorem standard_table {α : Type} (f : Standard → α) (p : Straps) :
    [f .f25, f .f30df, f .f30nd, f .f30][p.std.toNat]? = some (f (standardOf p)) := by
  have h := congrArg (Option.map f) (straps_tables p).2
  rwa [← List.getElem?_map] at h

/-- Settles O6: the state after reset is `State.atReset` of unconnected straps; the constants are read from the tables. -/
theorem resetStateIsFullReset : Obligations.ResetStateIsFullReset :=
  ⟨fullReset_fullyReset Straps.unconnected State.reset, rfl, rfl, rfl, fun s =>
    ⟨rfl, (straps_tables s.straps).1, (straps_tables s.straps).2, standard_table Standard.fpd s.straps,
      Nat.mul_comm _ _, standard_table Standard.activeLines s.straps⟩⟩

/-- Settles O54: each invariant is read off the reset values. -/
theorem invariantsHoldAtReset : Obligations.InvariantsHoldAtReset := by
  refine ⟨?_, (linkSound_iff _).mpr (soundLink_reset _), ?_, ?_, ?_, ?_, ?_, ?_, ?_, ?_, ?_, ?_, ?_⟩
  · exact ⟨Nat.zero_le _, Nat.zero_le _, Nat.zero_le _, Nat.zero_le _, Nat.zero_le _⟩
  · exact ⟨Nat.zero_le _, fun m hm => absurd hm List.not_mem_nil⟩
  · intro h; cases h
  · exact ⟨iff_of_true rfl rfl, fpd_pos _⟩
  · exact (positionsSound_iff _).mpr ⟨posHeld_reset _, targetsHeld_reset _⟩
  · exact ⟨Nat.zero_le _, List.nodup_nil, fun c hc => absurd hc List.not_mem_nil, List.Pairwise.nil⟩
  · refine recordSound_released ⟨⟨Nat.zero_le _, List.nodup_nil, fun c hc => absurd hc List.not_mem_nil,
      List.Pairwise.nil⟩, Nat.zero_le _, fun c hc => absurd hc List.not_mem_nil⟩ rfl
  · exact ⟨Nat.zero_le _, Nat.zero_le _, Nat.zero_lt_succ _, fun c hc => absurd hc (Option.not_mem_none c),
      fun c hc => absurd hc List.not_mem_nil⟩
  · exact ⟨trivial, fun l hl => absurd hl (Option.not_mem_none l), by decide, by decide⟩
  · intro h; cases h
  · exact ⟨by decide, fun _ => rfl, Nat.zero_le _⟩
  · exact framesSound_reset Straps.unconnected Power.atReset State.reset

end Sys2Proof.Machine

/-! SUPPORT. Finer frames for the takers of a boundary: the chase record as handed on, the timers and the speed word of the
Transport Controller, and the sticky flags one by one. -/

namespace Sys2Proof.Machine

set_option Elab.async false

/-! ### Details -/

/-- A detail of the station: the chase record handed to its takers, the servo timer with the speed word, the mix port's
record once one is sent, a sticky flag. -/
inductive Detail
  | handed | timers | sending | flag (f : Flag)
  deriving DecidableEq

def Detail.Same (s t : State) : Detail → Prop
  | .handed => t.chase.handed = s.chase.handed
  | .timers => t.tr.servoTimer = s.tr.servoTimer ∧ t.tr.speedWord = s.tr.speedWord ∧ t.tr.speedSent = s.tr.speedSent
  | .sending => t.mix.started = s.mix.started ∧ ∀ m, s.mix.sending = some m → t.mix.sending = some m
  | .flag f => hasFlag t f = hasFlag s f

/-- Every detail but the written ones is the same. -/
def Details (written : List Detail) (s t : State) : Prop := ∀ d, d ∉ written → Detail.Same s t d

theorem Details.same {w : List Detail} {s t : State} (h : Details w s t) (d : Detail) (hd : d ∉ w := by simp) :
    Detail.Same s t d := h d hd

theorem Details.refl {w : List Detail} (s : State) : Details w s s := by
  intro d _
  cases d
  case timers => exact ⟨rfl, rfl, rfl⟩
  case sending => exact ⟨rfl, fun _ h => h⟩
  all_goals rfl

theorem Detail.Same.trans {s t u : State} {d : Detail} (h : Detail.Same s t d) (k : Detail.Same t u d) :
    Detail.Same s u d := by
  cases d
  case timers => exact ⟨k.1.trans h.1, k.2.1.trans h.2.1, k.2.2.trans h.2.2⟩
  case sending => exact ⟨k.1.trans h.1, fun m e => k.2 m (h.2 m e)⟩
  all_goals exact Eq.trans k h

theorem Details.trans {w x : List Detail} {s t u : State} (h : Details w s t) (k : Details x t u) :
    Details (w ++ x) s u :=
  fun d hd => (h d fun q => hd (List.mem_append_left x q)).trans (k d fun q => hd (List.mem_append_right w q))

theorem Details.mono {w x : List Detail} {s t : State} (h : Details w s t) (sub : w ⊆ x := by simp) : Details x s t :=
  fun d hd => h d fun q => hd (sub q)

/-- A change beside the chase, the Transport Controller, the mix port and the flags. -/
theorem Frame.details {w : List Part} {s t : State} (f : Frame w s t)
    (hw : (Part.chase ∉ w ∧ Part.transport ∉ w) ∧ Part.mix ∉ w ∧ Part.flags ∉ w := by simp) : Details [] s t := by
  obtain ⟨⟨hc, ht⟩, hm, hf⟩ := hw
  intro d _
  cases d
  case handed => exact congrArg Chase.handed (f.same .chase hc)
  case timers =>
    have e : t.tr = { s.tr with punch := t.tr.punch } := f.same .transport ht
    refine ⟨?_, ?_, ?_⟩ <;> rw [e]
  case sending =>
    have e : t.mix = s.mix := f.same .mix hm
    exact ⟨by rw [e], fun m h => by rw [e]; exact h⟩
  case flag f' _ =>
    have e : t.flags = s.flags := f.same .flags hf
    exact congrArg (BitVec.getLsbD · f'.number) e

/-- A change of the link and of one flag at most. -/
theorem setFlag_details (f : Flag) (s : State) : Details [.flag f] s (setFlag f s) := by
  intro d hd
  cases d
  case handed => rfl
  case timers => exact ⟨rfl, rfl, rfl⟩
  case sending => exact ⟨rfl, fun _ h => h⟩
  case flag g => exact hasFlag_setFlag_other s (by simpa using hd)

/-- A change of the Transport Controller that keeps its timers. -/
theorem setTr_details {s : State} {x : Transport}
    (h : x.servoTimer = s.tr.servoTimer ∧ x.speedWord = s.tr.speedWord ∧ x.speedSent = s.tr.speedSent) :
    Details [] s (s.setTr x) := by
  intro d _
  cases d
  case timers => exact h
  case sending => exact ⟨rfl, fun _ h => h⟩
  all_goals rfl

/-- A change of the Chase Servo that hands no record on. -/
theorem setChase_details {s : State} {x : Chase} (h : x.handed = s.chase.handed) : Details [] s (s.setChase x) := by
  intro d _
  cases d
  case handed => exact h
  case timers => exact ⟨rfl, rfl, rfl⟩
  case sending => exact ⟨rfl, fun _ h => h⟩
  all_goals rfl

theorem updateCues_details (pick : Cue → Bool) (f : Cue → Cue) (s : State) : Details [] s (updateCues pick f s) :=
  (updateCues_frame pick f s).details

/-! ### Shared operations -/

theorem abortActiveRecord_details (s : State) : Details [.flag .cueAborted] s (abortActiveRecord s) := by
  unfold abortActiveRecord
  split
  · exact (updateCues_details _ _ s).trans (setFlag_details _ _)
  · exact .refl s

theorem breakRecord_details (s : State) : Details [.flag .cueAborted] s (breakRecord s) := by
  unfold breakRecord
  split
  · exact (setPunch_frame s none).details.trans (abortActiveRecord_details _)
  · exact .refl s

theorem takeCommand_details (c : Command) (s : State) : Details [.flag .cueAborted] s (takeCommand c s) := by
  unfold takeCommand
  split
  · exact (setTr_details (by exact ⟨rfl, rfl, rfl⟩)).trans (breakRecord_details _)
  · exact .refl s

theorem giveLocate_details (skips : Option Word16) (target : Nat) (s : State) :
    Details [.flag .cueAborted] s (giveLocate skips target s) := by
  unfold giveLocate
  split
  · split
    · exact (setTr_details (by exact ⟨rfl, rfl, rfl⟩)).mono
    · exact (setTr_details (by exact ⟨rfl, rfl, rfl⟩)).trans (breakRecord_details _)
  · exact .refl s

theorem noteParkEnd_details (target : Nat) (s : State) : Details [] s (noteParkEnd target s) := by
  unfold noteParkEnd
  split
  · exact setChase_details rfl
  · exact .refl s

theorem locateSucceed_details (l : Locate) (s : State) : Details [] s (locateSucceed l s) :=
  (setTr_details (by exact ⟨rfl, rfl, rfl⟩)).trans (noteParkEnd_details _ _)

theorem locateFail_details (l : Locate) (s : State) : Details [.flag .locateFail] s (locateFail l s) :=
  ((setTr_details (by exact ⟨rfl, rfl, rfl⟩)).trans (noteParkEnd_details _ _)).trans (setFlag_details _ _)

theorem freeChase_details (s : State) : Details [] s (freeChase s) :=
  (setChase_details (s := s) (x := s.chase.freed (own s)) rfl).trans (setChase_details rfl)

theorem disableChase_details (s : State) : Details [] s (disableChase s) := by
  unfold disableChase
  split
  · exact .refl s
  · exact freeChase_details s

theorem loseLock_details (s : State) : Details [] s (loseLock s) := by
  unfold loseLock
  split
  · exact setChase_details rfl
  · exact .refl s

theorem commandStop_details (s : State) : Details [.flag .cueAborted] s (commandStop s) :=
  (disableChase_details s).trans (takeCommand_details _ _)

theorem pushMark_details (origin : Origin) (s : State) : Details [.flag .markLost] s (pushMark origin s) := by
  unfold pushMark
  dsimp only
  split
  · exact .refl s
  split
  · exact (setMarks_frame s _).details.trans (setFlag_details _ _)
  · exact (setMarks_frame s _).details.mono

theorem sendMix_details (s : State) : Details [] s (sendMix s) := by
  intro d _
  unfold sendMix
  split
  · split
    · rename_i h
      cases d
      case timers => exact ⟨rfl, rfl, rfl⟩
      case sending => exact ⟨rfl, fun m e => absurd e (by simp [h])⟩
      all_goals rfl
    · cases d
      case timers => exact ⟨rfl, rfl, rfl⟩
      case sending => exact ⟨rfl, fun _ h => h⟩
      all_goals rfl
  · exact Details.refl (w := []) s d (by simp)

theorem completeIfDue_frame (s : State) : Frame [.fader, .cues] s (completeIfDue s) := by
  unfold completeIfDue
  split
  · exact .refl s
  · split
    · exact completeContext_frame s
    · exact .refl s

theorem placeContext_frame (tag : Byte) (hard : Bool) (p : TransParams) (s : State) :
    Frame [.fader] s (placeContext tag hard p s) := setFader_frame s _

theorem startContext_details (tag : Byte) (hard : Bool) (p : TransParams) (s : State) :
    Details [] s (startContext tag hard p s) :=
  ((((completeContext_frame s).trans (placeContext_frame tag hard p _)).trans (formValues_frame _)).trans
    (completeIfDue_frame _)).details.trans (sendMix_details _)

/-! ### The Cue Engine -/

/-- The flags a fire may set (R96, R144, R180). -/
abbrev fireDetails : List Detail := [.flag .cueAborted, .flag .syncSlip, .flag .markLost]

theorem answerPunch_details (tag : Byte) (a : PunchAnswer) (s : State) :
    Details [.flag .cueAborted] s (answerPunch tag a s) := by
  unfold answerPunch
  split
  · exact .refl s
  · exact (updateCues_details _ _ s).mono
  · exact (updateCues_details _ _ s).trans (setFlag_details _ _)

theorem activate_details (tag : Byte) (n : Nat) (s : State) : Details [] s (activate tag n s) := updateCues_details _ _ s

theorem fireRecord_details (tag : Byte) (tracks : Tracks) (length : Nat) (s : State) :
    Details [.flag .cueAborted] s (fireRecord tag tracks length s) :=
  (((updateCues_details _ _ s).trans (activate_details tag _ _)).trans (punchIn_frame tracks _).details).trans
    (answerPunch_details _ _ _)

theorem fireTransition_details (tag : Byte) (hard : Bool) (p : TransParams) (s : State) :
    Details [] s (fireTransition tag hard p s) :=
  ((completeContext_frame s).details.trans (activate_details tag 0 _)).trans (startContext_details tag hard p _)

theorem actAtOnce_details (action : CueAction) (s : State) : Details fireDetails s (actAtOnce action s) := by
  unfold actAtOnce
  split
  · exact (commandStop_details s).mono
  · exact ((disableChase_details s).trans (takeCommand_details _ _)).mono
  · exact ((disableChase_details s).trans (giveLocate_details _ _ _)).mono
  · exact (updateOutput_frame _ _ s).details.mono
  · exact (pushMark_details _ s).mono
  · exact .refl s
  · exact .refl s

theorem fireJudged_details {ok : Bool} {c : Cue} {make : State → State} (h : ∀ u, Details fireDetails u (make u))
    (s : State) : Details fireDetails s (fireJudged ok c make s) := by
  unfold fireJudged
  split
  · exact h s
  split
  · exact ((updateCues_details _ _ s).trans (setFlag_details .cueAborted _)).mono
  · exact (((updateCues_details _ _ s).trans (setFlag_details .syncSlip _)).trans (h _)).mono

theorem fireCue_details (ok : Bool) (c : Cue) (s : State) : Details fireDetails s (fireCue ok c s) := by
  unfold fireCue
  split
  · exact fireJudged_details (fun u => (fireRecord_details _ _ _ u).mono) s
  · exact fireJudged_details (fun u => (fireTransition_details _ _ _ u).mono) s
  all_goals exact ((updateCues_details _ _ s).trans (actAtOnce_details _ _)).mono

theorem fireIfDue_details (ok : Bool) (due : Cue → Bool) (s : State) (c : Cue) :
    Details fireDetails s (fireIfDue ok due s c) := by
  unfold fireIfDue
  split
  · split
    · exact fireCue_details _ _ s
    · exact .refl s
  · exact .refl s

theorem fireAll_details (ok : Bool) (due : Cue → Bool) (cs : List Cue) (s : State) :
    Details fireDetails s (cs.foldl (fireIfDue ok due) s) := by
  induction cs generalizing s with
  | nil => exact .refl s
  | cons c cs ih => exact ((fireIfDue_details ok due s c).trans (ih _)).mono

theorem recordLengthEnd_details (s : State) : Details [] s (recordLengthEnd s) := (recordLengthEnd_frame s).details

theorem notReadyLimit_details (s : State) : Details fireDetails s (notReadyLimit s) := by
  unfold notReadyLimit
  split
  · split
    · split
      · exact ((abortActiveRecord_details s).trans (setPunch_frame _ none).details).mono
      · exact ((updateCues_details _ _ s).trans (setFlag_details .syncSlip _)).mono
    · exact .refl s
  · exact .refl s

theorem judgeRecord_details (ok : Bool) (s : State) : Details fireDetails s (judgeRecord ok s) := by
  unfold judgeRecord
  split
  · exact ((updateCues_details _ _ s).trans (notReadyLimit_details _)).mono
  · exact .refl s

theorem runEarlier_details (ok : Bool) (before : Option Cue) (s : State) :
    Details fireDetails s (runEarlier ok before s) := by
  unfold runEarlier runRecord
  split
  · split
    · exact (((updateCues_details _ _ s).trans (recordLengthEnd_details _)).trans (judgeRecord_details ok _)).mono
    · exact .refl s
  · exact .refl s

theorem cueBoundary_details (s : State) : Details fireDetails s (cueBoundary s) :=
  (((fireAll_details _ _ _ s).trans (runEarlier_details _ _ _)).trans (setSamples_frame _ _ _).details).mono

/-! ### The Chase Servo -/

theorem lockIfDue_frame (s : State) : Frame [.chase] s (lockIfDue s) := by
  unfold lockIfDue
  split
  · exact setChase_frame s _
  · exact .refl s

theorem lockIfDue_details (s : State) : Details [] s (lockIfDue s) := by
  unfold lockIfDue
  split
  · exact setChase_details rfl
  · exact .refl s

theorem unlockIfOut_frame (s : State) : Frame [.chase] s (unlockIfOut s) := by
  unfold unlockIfOut
  split
  · exact setChase_frame s _
  · exact .refl s

theorem unlockIfOut_details (s : State) : Details [] s (unlockIfOut s) := by
  unfold unlockIfOut
  split
  · exact setChase_details rfl
  · exact .refl s

theorem unlockIfUnsound_frame (s : State) : Frame [.chase] s (unlockIfUnsound s) := by
  unfold unlockIfUnsound
  split
  · exact setChase_frame s _
  · exact .refl s

theorem unlockIfUnsound_details (s : State) : Details [] s (unlockIfUnsound s) := by
  unfold unlockIfUnsound
  split
  · exact setChase_details rfl
  · exact .refl s

theorem judgeLock_frame (e : Int) (s : State) : Frame [.chase] s (judgeLock e s) := by
  unfold judgeLock
  split
  · exact (((setChase_frame s _).trans (unlockIfOut_frame _)).trans (unlockIfUnsound_frame _)).mono
  · exact ((setChase_frame s _).trans (lockIfDue_frame _)).mono

theorem judgeLock_details (e : Int) (s : State) : Details [] s (judgeLock e s) := by
  unfold judgeLock
  split
  · exact ((setChase_details (by exact rfl)).trans (unlockIfOut_details _)).trans (unlockIfUnsound_details _)
  · exact (setChase_details (by exact rfl)).trans (lockIfDue_details _)

/-- The parts an evaluation writes. -/
abbrev evaluateParts : List Part := [.chase, .transport, .lines, .cues, .flags]

theorem park_frame (e : Int) (s : State) : Frame evaluateParts s (park e s) := by
  unfold park
  dsimp only
  split
  · exact (setChase_frame s _).mono
  · exact (setChase_frame s _).trans (giveLocate_frame none _ _)

theorem park_details (e : Int) (s : State) : Details [.flag .cueAborted] s (park e s) := by
  unfold park
  dsimp only
  split
  · exact (setChase_details rfl).mono
  · exact (setChase_details rfl).trans (giveLocate_details none _ _)

theorem followFresh_frame (s : State) : Frame evaluateParts s (followFresh s) := by
  unfold followFresh
  dsimp only
  split
  · exact (setChase_frame s _).trans (takeCommand_frame _ _)
  split
  · exact park_frame _ s
  split
  · exact (setChase_frame s _).trans (takeCommand_frame _ _)
  · exact (((setChase_frame s _).trans (takeCommand_frame _ _)).trans (judgeLock_frame _ _)).mono

theorem followFresh_details (s : State) : Details [.flag .cueAborted] s (followFresh s) := by
  unfold followFresh
  dsimp only
  split
  · exact (setChase_details (s := s) rfl).trans (takeCommand_details _ _)
  split
  · exact park_details _ s
  split
  · exact (setChase_details (s := s) rfl).trans (takeCommand_details _ _)
  · exact ((setChase_details (s := s) (by exact rfl)).trans (takeCommand_details _ _)).trans (judgeLock_details _ _)

theorem freewheelStop_details (s : State) : Details [.flag .cueAborted] s (freewheelStop s) := by
  unfold freewheelStop
  split
  · exact takeCommand_details _ s
  · exact .refl s

theorem countFreewheel_frame (s : State) : Frame evaluateParts s (countFreewheel s) := by
  unfold countFreewheel
  split
  · exact (setChase_frame s _).trans (freewheelStop_frame _)
  · exact .refl s

theorem countFreewheel_details (s : State) : Details [.flag .cueAborted] s (countFreewheel s) := by
  unfold countFreewheel
  split
  · exact (setChase_details rfl).trans (freewheelStop_details _)
  · exact .refl s

theorem followStale_frame (s : State) : Frame evaluateParts s (followStale s) := by
  unfold followStale
  split
  · exact countFreewheel_frame s
  · exact (setChase_frame s _).mono

theorem followStale_details (s : State) : Details [.flag .cueAborted] s (followStale s) := by
  unfold followStale
  split
  · exact countFreewheel_details s
  · exact (setChase_details rfl).mono

theorem follow_frame (s : State) : Frame evaluateParts s (follow s) := by
  unfold follow
  split
  · split
    · exact followFresh_frame s
    · unfold followCoasting
      split
      · exact countFreewheel_frame s
      · exact (setChase_frame s _).mono
    · exact followStale_frame s
  · unfold followLive
    split
    · exact (setChase_frame s _).mono
    · exact (setChase_frame s _).mono
    · exact followStale_frame s

theorem follow_details (s : State) : Details [.flag .cueAborted] s (follow s) := by
  unfold follow
  split
  · split
    · exact followFresh_details s
    · unfold followCoasting
      split
      · exact countFreewheel_details s
      · exact (setChase_details rfl).mono
    · exact followStale_details s
  · unfold followLive
    split
    · exact (setChase_details rfl).mono
    · exact (setChase_details rfl).mono
    · exact followStale_details s

theorem evaluate_frame (s : State) : Frame evaluateParts s (chaseBoundary s) := by
  unfold chaseBoundary
  dsimp only
  split
  · exact (setChase_frame s _).mono
  · exact ((follow_frame s).trans (setChase_frame _ _)).mono

theorem publishChase_details (r : ChaseRecord) (s : State) : Details [.handed] s (publishChase r s) := by
  intro d hd
  cases d
  case handed => simp at hd
  case timers => exact ⟨rfl, rfl, rfl⟩
  case sending => exact ⟨rfl, fun _ h => h⟩
  case flag => rfl

theorem evaluate_details (s : State) : Details [.flag .cueAborted, .handed] s (chaseBoundary s) := by
  unfold chaseBoundary
  dsimp only
  split
  · exact (publishChase_details _ s).mono
  · exact (follow_details s).trans (publishChase_details _ _)

/-! ### The locate -/

abbrev locateParts : List Part := [.transport, .chase, .flags]

theorem setLocate_frame (s : State) (x : Option Locate) : Frame [.transport] s (s.setTr { s.tr with locate := x }) :=
  setTransport_frame s _ rfl

theorem locateTake_frame (s : State) : Frame [.transport] s (locateTake s) := by
  unfold locateTake
  split
  · exact setLocate_frame s _
  · exact .refl s

theorem locateTake_details (s : State) : Details [] s (locateTake s) := by
  unfold locateTake
  split
  · exact setTr_details ⟨rfl, rfl, rfl⟩
  · exact .refl s

theorem locateSettle_frame (s : State) : Frame locateParts s (locateSettle s) := by
  unfold locateSettle
  split
  · split
    · split
      · exact (locateSucceed_frame _ s).mono
      split
      · exact (locateFail_frame _ s).mono
      · exact (setLocate_frame s _).mono
    · exact .refl s
  · exact .refl s

theorem locateSettle_details (s : State) : Details [.flag .locateFail] s (locateSettle s) := by
  unfold locateSettle
  split
  · split
    · split
      · exact (locateSucceed_details _ s).mono
      split
      · exact locateFail_details _ s
      · exact (setTr_details (by exact ⟨rfl, rfl, rfl⟩)).mono
    · exact .refl s
  · exact .refl s

theorem locateAcquireLimit_frame (s : State) : Frame locateParts s (locateAcquireLimit s) := by
  unfold locateAcquireLimit
  split
  · split
    · exact (locateFail_frame _ s).mono
    · exact .refl s
  · exact .refl s

theorem locateAcquireLimit_details (s : State) : Details [.flag .locateFail] s (locateAcquireLimit s) := by
  unfold locateAcquireLimit
  split
  · split
    · exact locateFail_details _ s
    · exact .refl s
  · exact .refl s

theorem locateEotLimit_frame (s : State) : Frame locateParts s (locateEotLimit s) := by
  unfold locateEotLimit
  split
  · split
    · exact (locateFail_frame _ s).mono
    · exact .refl s
  · exact .refl s

theorem locateEotLimit_details (s : State) : Details [.flag .locateFail] s (locateEotLimit s) := by
  unfold locateEotLimit
  split
  · split
    · exact locateFail_details _ s
    · exact .refl s
  · exact .refl s

theorem locateRecordLimit_frame (s : State) : Frame locateParts s (locateRecordLimit s) := by
  unfold locateRecordLimit
  split
  · split
    · exact (locateFail_frame _ s).mono
    · exact .refl s
  · exact .refl s

theorem locateRecordLimit_details (s : State) : Details [.flag .locateFail] s (locateRecordLimit s) := by
  unfold locateRecordLimit
  split
  · split
    · exact locateFail_details _ s
    · exact .refl s
  · exact .refl s

theorem locate_frame (s : State) : Frame locateParts s (locateBoundary s) := by
  unfold locateBoundary locateRecord
  split
  · exact .refl s
  · exact (((((locateTake_frame s).trans (locateSettle_frame _)).trans (locateAcquireLimit_frame _)).trans
      (locateEotLimit_frame _)).trans (locateRecordLimit_frame _)).mono

theorem locate_details (s : State) : Details [.flag .locateFail] s (locateBoundary s) := by
  unfold locateBoundary locateRecord
  split
  · exact .refl s
  · exact (((((locateTake_details s).trans (locateSettle_details _)).trans (locateAcquireLimit_details _)).trans
      (locateEotLimit_details _)).trans (locateRecordLimit_details _)).mono

/-! ### The Source Fader, the Transport Controller and the link -/

theorem failPartner_details (c : Context) (s : State) : Details [.flag .unpaired] s (failPartner c s) := by
  have marked : Details [.flag .unpaired] s (updateCues (Cue.transiting c.tag) (fun q => { q with unpaired := true })
      (setFlag .unpaired (s.setFader { s.fader with context := some { c with pair := .unpaired } }))) :=
    (((setFader_frame s _).details.trans (setFlag_details .unpaired _)).trans (updateCues_details _ _ _)).mono
  unfold failPartner
  dsimp only
  split
  · exact (marked.trans (completeContext_frame _).details).mono
  · exact marked

theorem partnerCheck_details (s : State) : Details [.flag .unpaired] s (partnerCheck s) := by
  unfold partnerCheck
  split
  · exact .refl s
  split
  · split
    · exact (setFader_frame s _).details.mono
    · exact failPartner_details _ s
  · exact .refl s

theorem advanceContext_details (s : State) : Details [.flag .unpaired] s (advanceContext s) := by
  unfold advanceContext
  split
  · exact .refl s
  split
  · exact .refl s
  · rename_i c _ _
    have raised := (setFader_frame s { s.fader with context := some { c with k := c.k + 1 } }).details
    exact raised.trans (partnerCheck_details _)

/-- The port starts with its first boundary (R170). -/
theorem faderBoundary_flags (s : State) (f : Flag) (hf : f ≠ .unpaired) : hasFlag (faderBoundary s) f = hasFlag s f := by
  have h1 := (advanceContext_details s).same (.flag f) (by simpa using hf)
  have h2 : Details [] (advanceContext s) (completeIfDue (formValues (advanceContext s))) :=
    ((formValues_frame _).trans (completeIfDue_frame _)).details
  exact (((h1.trans (h2.same (.flag f)))).trans (t := completeIfDue (formValues (advanceContext s))) (d := .flag f) rfl).trans
    ((sendMix_details (State.setMix _ _)).same (.flag f))

theorem servoExpiry_details (s : State) : Details [.flag .transportFault] s (servoExpiry s) := by
  unfold servoExpiry
  split
  · exact setFlag_details _ s
  · exact .refl s

theorem countTally_details (s : State) : Details [] s (countTally s) := setTr_details ⟨rfl, rfl, rfl⟩

theorem tallyExpiry_details (s : State) : Details [.flag .recordFault] s (tallyExpiry s) := by
  unfold tallyExpiry
  split
  · split
    · exact (setTr_details (by exact ⟨rfl, rfl, rfl⟩)).trans (setFlag_details _ _)
    · exact .refl s
  · exact .refl s

/-- The details a link change leaves, a waiting POSITION lost apart (R46, R47). -/
theorem setLink_details (x : Link) (s : State) : Details [] s (s.setLink x) := (setLink_frame s x).details

theorem startHead_frame (s : State) : Frame [.link] s (startHead s) := by
  unfold startHead startReport
  split
  · split <;> exact setLink_frame s _
  · split
    · exact .refl s
    · exact setLink_frame s _

theorem beginDeferral_frame (s : State) : Frame [.link] s (beginDeferral s) := by
  unfold beginDeferral deferFor
  split
  · split
    · dsimp only
      split
      · exact ((setLink_frame s _).trans (startHead_frame _)).mono
      · exact ((setLink_frame s _).trans (setLink_frame _ _)).mono
    · exact .refl s
  · exact .refl s

theorem abandonDeferral_frame (s : State) : Frame [.link] s (abandonDeferral s) := by
  unfold abandonDeferral
  split
  · exact setLink_frame s _
  all_goals exact .refl s

theorem headChanged_frame (s : State) : Frame [.link] s (headChanged s) :=
  ((abandonDeferral_frame s).trans (beginDeferral_frame _)).mono

theorem restartIfChanged_frame (before s : State) : Frame [.link] s (restartIfChanged before s) := by
  unfold restartIfChanged
  split
  · exact .refl s
  · exact headChanged_frame s

theorem letGo_frame (s : State) : Frame [.link] s (letGo s) := by
  unfold letGo
  split
  · split
    · exact setLink_frame s _
    · exact .refl s
  all_goals exact .refl s

theorem dropPosition_details (s : State) : Details [.flag .bulletinDropped] s (dropPosition s) :=
  ((setLink_details _ s).trans (setLink_details _ _)).trans (setFlag_details _ _)

theorem settlePosition_details (s : State) : Details [.flag .bulletinDropped] s (settlePosition s) := by
  unfold settlePosition letOldGo
  split
  · split
    · exact .refl s
    · exact dropPosition_details s
  · split
    · split
      · exact .refl s
      · exact (letGo_frame s).details.mono
    all_goals exact .refl s

theorem linkBoundary_details (s : State) : Details [.flag .bulletinDropped] s (linkBoundary s) :=
  ((((setLink_details _ s).trans (settlePosition_details _)).trans
    ((setLink_details _ _).trans (setLink_details _ _))).trans (restartIfChanged_frame _ _).details).mono

theorem composeBulletin_details (s : State) : Details [.flag .bulletinDropped] s (composeBulletin s) := by
  unfold composeBulletin joinPosition
  dsimp only
  split
  · exact (((dropPosition_details s).trans (setLink_details _ _)).trans (headChanged_frame _).details).mono
  · exact (((letGo_frame s).trans (setLink_frame _ _)).trans (headChanged_frame _)).details.mono

end Sys2Proof.Machine

/-! SUPPORT and O7, O8, O9, O15. The timebase, and the boundary as a run of the takers from its start: what each taker
writes, what the run keeps, and what the one taker of a part makes of it. -/

namespace Sys2Proof.Machine

set_option Elab.async false

/-! ### What a taker writes -/

/-- The parts a taker of a boundary may write. -/
def takerParts : Taker → List Part
  | .publish | .setVirtual => [.pos]
  | .evaluate => evaluateParts
  | .cues => .samples :: editParts
  | .locate => locateParts
  | .fader => [.fader, .cues, .flags, .mix]
  | .gpi => [.inputs, .outputs]
  | .peers => [.peers]
  | .transport => [.transport, .lines, .flags]
  | .link | .compose => [.link, .flags]

/-- The details a taker of a boundary may write. -/
def takerDetails : Taker → List Detail
  | .publish | .setVirtual | .gpi | .peers => []
  | .evaluate => [.flag .cueAborted, .handed]
  | .cues => fireDetails
  | .locate => [.flag .locateFail]
  | .fader => [.sending, .flag .unpaired]
  | .transport => [.timers, .flag .transportFault, .flag .recordFault]
  | .link | .compose => [.flag .bulletinDropped]

theorem takeBoundary_frame (x : Taker) (s : State) : Frame (takerParts x) s (takeBoundary x s) := by
  cases x
  case publish => exact positionBoundary_frame s
  case evaluate => exact evaluate_frame s
  case setVirtual => exact setVirtual_frame s
  case cues => exact cueBoundary_frame s
  case locate => exact locate_frame s
  case fader => exact faderBoundary_frame s
  case gpi => exact gpiBoundary_frame s
  case peers => exact peersBoundary_frame s
  case transport => exact transportBoundary_frame s
  case link => exact linkBoundary_frame s
  case compose => exact composeBulletin_frame s

theorem faderBoundary_details (s : State) : Details [.sending, .flag .unpaired] s (faderBoundary s) := by
  intro d hd
  cases d
  case handed => exact congrArg Chase.handed ((faderBoundary_frame s).same .chase)
  case timers => rw [Detail.Same, (faderBoundary_frame s).tr]; exact ⟨rfl, rfl, rfl⟩
  case sending => simp at hd
  case flag f => exact faderBoundary_flags s f (by simpa using hd)

theorem transportBoundary_details (s : State) :
    Details [.timers, .flag .transportFault, .flag .recordFault] s (transportBoundary s) := by
  have hword (u : State) : Frame [.transport, .lines] u (sendSpeedWord u) := sendSpeedWord_frame u
  intro d hd
  cases d
  case handed => exact congrArg Chase.handed ((transportBoundary_frame s).same .chase)
  case timers => simp at hd
  case sending =>
    have e : (transportBoundary s).mix = s.mix := (transportBoundary_frame s).same .mix
    exact ⟨by rw [e], fun m h => by rw [e]; exact h⟩
  case flag f =>
    simp only [List.mem_cons, reduceCtorEq, Detail.flag.injEq, List.not_mem_nil, or_false, false_or, not_or] at hd
    have h1 := (servoExpiry_details (countServo s)).same (.flag f) (by simpa using hd.1)
    have h2 := (tallyExpiry_details (countTally (servoExpiry (countServo s)))).same (.flag f) (by simpa using hd.2)
    have h3 : hasFlag (transportBoundary s) f = hasFlag (tallyExpiry (countTally (servoExpiry (countServo s)))) f :=
      congrArg (BitVec.getLsbD · f.number) ((hword _).same .flags)
    exact h3.trans (Eq.trans h2 h1)

theorem takeBoundary_details (x : Taker) (s : State) : Details (takerDetails x) s (takeBoundary x s) := by
  cases x
  case publish => exact (positionBoundary_frame s).details
  case evaluate => exact evaluate_details s
  case setVirtual => exact (setVirtual_frame s).details
  case cues => exact cueBoundary_details s
  case locate => exact locate_details s
  case fader => exact faderBoundary_details s
  case gpi => exact (gpiBoundary_frame s).details
  case peers => exact (peersBoundary_frame s).details
  case transport => exact transportBoundary_details s
  case link => exact linkBoundary_details s
  case compose => exact composeBulletin_details s

/-! ### Runs of takers -/

/-- The takers of a list act one after another. -/
def runTakers (order : List Taker) (s : State) : State := order.foldl (fun v taker => takeBoundary taker v) s

@[simp] theorem runTakers_nil (s : State) : runTakers [] s = s := rfl

theorem runTakers_cons (x : Taker) (xs : List Taker) (s : State) :
    runTakers (x :: xs) s = runTakers xs (takeBoundary x s) := rfl

theorem runTakers_append (xs ys : List Taker) (s : State) :
    runTakers (xs ++ ys) s = runTakers ys (runTakers xs s) := List.foldl_append

/-- A relation that every taker of a list keeps, kept by the run. -/
theorem runTakers_induct {R : State → State → Prop} (refl : ∀ v, R v v)
    (trans : ∀ {u v w}, R u v → R v w → R u w) {order : List Taker}
    (h : ∀ x ∈ order, ∀ u, R u (takeBoundary x u)) (s : State) : R s (runTakers order s) := by
  induction order generalizing s with
  | nil => exact refl s
  | cons x xs ih =>
    exact trans (h x (by simp) s) (ih (fun y hy => h y (List.mem_cons_of_mem x hy)) _)

theorem runTakers_same (p : Part) {order : List Taker} (h : ∀ x ∈ order, p ∉ takerParts x) (s : State) :
    Part.Same s (runTakers order s) p :=
  runTakers_induct (R := fun u v => Part.Same u v p) (fun u => Frame.refl (written := []) u p (by simp))
    Part.Same.trans (fun x hx u => takeBoundary_frame x u p (h x hx)) s

theorem runTakers_detail (d : Detail) {order : List Taker} (h : ∀ x ∈ order, d ∉ takerDetails x) (s : State) :
    Detail.Same s (runTakers order s) d :=
  runTakers_induct (R := fun u v => Detail.Same u v d) (fun u => Details.refl (w := []) u d (by simp))
    Detail.Same.trans (fun x hx u => takeBoundary_details x u d (h x hx)) s

/-- Every taker leaves what a boundary is of: the supply, the straps, the deck's lines, the time and the request. -/
theorem runTakers_keeps (order : List Taker) (s : State) : BoundaryKeeps s (runTakers order s) :=
  runTakers_induct (R := BoundaryKeeps) (fun _ => ⟨rfl, rfl, rfl, rfl, rfl, rfl, rfl⟩)
    (fun h k => ⟨k.power.trans h.power, k.straps.trans h.straps, k.pins.trans h.pins, k.time.trans h.time,
      k.req.trans h.req, k.choices.trans h.choices, k.pending.trans h.pending⟩)
    (fun x _ v => takeBoundary_keeps x v) s

/-! ### The order -/

theorem allTakers_nodup : allTakers.Nodup := by simp [allTakers]

theorem takerOrder_nodup (rank : Taker → Nat) : (takerOrder rank).Nodup :=
  (takerOrder_perm rank).nodup_iff.mpr allTakers_nodup

theorem mem_takerOrder (rank : Taker → Nat) (x : Taker) : x ∈ takerOrder rank :=
  (takerOrder_perm rank).mem_iff.mpr (by cases x <;> simp [allTakers])

/-- A taker stands after one whose record it answers: its lifted rank is no lower, and ties keep the order. -/
theorem takerOrder_before {rank : Taker → Nat} {a b : Taker} (h : liftedRank rank a ≤ liftedRank rank b)
    (hab : [a, b].Sublist allTakers) : [a, b].Sublist (takerOrder rank) := by
  have : Std.Total (fun a b : Taker => liftedRank rank a ≤ liftedRank rank b) := ⟨fun a b => Nat.le_total _ _⟩
  have : IsTrans Taker (fun a b => liftedRank rank a ≤ liftedRank rank b) := ⟨fun _ _ _ => Nat.le_trans⟩
  exact List.pair_sublist_insertionSort h hab

theorem publish_before_evaluate (rank : Taker → Nat) : [Taker.publish, .evaluate].Sublist (takerOrder rank) :=
  takerOrder_before (by simp [liftedRank]) (by simp [allTakers])

theorem publish_before_locate (rank : Taker → Nat) : [Taker.publish, .locate].Sublist (takerOrder rank) :=
  takerOrder_before (by simp [liftedRank]) (by simp [allTakers])

theorem evaluate_before_setVirtual (rank : Taker → Nat) : [Taker.evaluate, .setVirtual].Sublist (takerOrder rank) :=
  takerOrder_before (Nat.le_max_left _ _) (by simp [allTakers])

theorem evaluate_before_cues (rank : Taker → Nat) : [Taker.evaluate, .cues].Sublist (takerOrder rank) :=
  takerOrder_before (Nat.le_max_left _ _) (by simp [allTakers])

theorem evaluate_before_compose (rank : Taker → Nat) : [Taker.evaluate, .compose].Sublist (takerOrder rank) :=
  takerOrder_before (Nat.le_max_left _ _) (by simp [allTakers])

/-- The order about one taker: it acts once. -/
structure SplitAt (rank : Taker → Nat) (x : Taker) (pre post : List Taker) : Prop where
  order : takerOrder rank = pre ++ x :: post
  pre : x ∉ pre
  post : x ∉ post

theorem takerOrder_split (rank : Taker → Nat) (x : Taker) : ∃ pre post, SplitAt rank x pre post := by
  obtain ⟨pre, post, e⟩ := List.append_of_mem (mem_takerOrder rank x)
  have hn := takerOrder_nodup rank
  rw [e, List.nodup_append] at hn
  obtain ⟨-, hpost, hdisj⟩ := hn
  exact ⟨pre, post, e, fun h => hdisj x h x (by simp) rfl, (List.nodup_cons.mp hpost).1⟩

/-- A taker that acts before another acts among those before it, and not after it. -/
theorem SplitAt.before {rank : Taker → Nat} {a x : Taker} {pre post : List Taker} (h : SplitAt rank x pre post)
    (hab : [a, x].Sublist (takerOrder rank)) : a ∈ pre ∧ a ∉ post := by
  have hn := takerOrder_nodup rank
  rw [h.order] at hab hn
  obtain ⟨l1, l2, e, h1, h2⟩ := List.sublist_append_iff.mp hab
  obtain ⟨-, hpost, hdisj⟩ := List.nodup_append.mp hn
  have hmem : a ∈ pre := by
    cases l1 with
    | nil =>
      rw [List.nil_append] at e
      rw [← e] at h2
      have hx : x ∈ post := by
        cases h2 with
        | cons _ k => exact k.subset (by simp)
        | cons_cons _ k => exact k.subset (by simp)
      exact absurd hx h.post
    | cons b l1 =>
      obtain ⟨rfl, -⟩ := List.cons.inj e
      exact h1.subset (by simp)
  exact ⟨hmem, fun k => hdisj a hmem a (List.mem_cons_of_mem x k) rfl⟩

/-- The takers before the one that writes a part leave it, and so do those after it. -/
theorem SplitAt.part {rank : Taker → Nat} {x : Taker} {pre post : List Taker} (h : SplitAt rank x pre post) {p : Part}
    (only : ∀ y, p ∈ takerParts y → y = x) (s : State) :
    Part.Same s (runTakers pre s) p ∧ Part.Same s (runTakers post s) p :=
  ⟨runTakers_same p (fun y hy k => h.pre (only y k ▸ hy)) s, runTakers_same p (fun y hy k => h.post (only y k ▸ hy)) s⟩

theorem SplitAt.detail {rank : Taker → Nat} {x : Taker} {pre post : List Taker} (h : SplitAt rank x pre post) {d : Detail}
    (only : ∀ y, d ∈ takerDetails y → y = x) (s : State) :
    Detail.Same s (runTakers pre s) d ∧ Detail.Same s (runTakers post s) d :=
  ⟨runTakers_detail d (fun y hy k => h.pre (only y k ▸ hy)) s,
    runTakers_detail d (fun y hy k => h.post (only y k ▸ hy)) s⟩

/-! ### A boundary is a run from its start -/

theorem pulseNow_present {first : Bool} {s : State} (h : s.time.refState = .present) :
    pulseNow first s = if goodSince s.time.lastRef s then goodPulse first s else s := by rw [pulseNow, h]

theorem pulseNow_lost {first : Bool} {s : State} (h : s.time.refState = .lost) : pulseNow first s = firstPulse s := by
  rw [pulseNow, h]

theorem pulseNow_settling {first : Bool} {p : Nat} {s : State} (h : s.time.refState = .settling)
    (hp : s.time.prevPulse = some p) :
    pulseNow first s = if goodSince p s then warmPulse s else loseReference s := by
  rw [pulseNow, h]
  simp only [settlingPulse, hp]

theorem fieldBoundary_run (identity : Option Bool) (b : State) :
    fieldBoundary identity b
        = runTakers (takerOrder (Config.takerRank b.choices))
            ((b.setTime (fieldBoundary identity b).time).setChoices (fieldBoundary identity b).choices)
      ∧ (fieldBoundary identity b).time.fieldCount = b.time.fieldCount + 1 := by
  have ht := (fieldBoundary_spec identity b).1
  have hc : (fieldBoundary identity b).choices = b.choices + 1 := (runTakers_keeps _ _).choices
  refine ⟨?_, by rw [ht]; rfl⟩
  rw [ht, hc]
  rfl

/-- A boundary begun from s with another timebase. -/
theorem fieldBoundary_run_setTime {s b : State} {x : Timebase} (identity : Option Bool) (e : b = s.setTime x) :
    fieldBoundary identity b
        = runTakers (takerOrder (Config.takerRank s.choices))
            ((s.setTime (fieldBoundary identity b).time).setChoices (fieldBoundary identity b).choices)
      ∧ (fieldBoundary identity b).time.fieldCount = x.fieldCount + 1 := by
  subst e
  exact fieldBoundary_run identity (s.setTime x)

theorem loseLock_setFlag_setTime (f : Flag) (x : Timebase) (s : State) :
    loseLock (setFlag f (s.setTime x)) = (setFlag f (loseLock s)).setTime x := by
  by_cases h : s.chase.state = .locked <;> simp [loseLock, setFlag, h] <;> rfl

/-- The timebase as the missing limit leaves it: LOST, at half a period (R24, R31). -/
def missedAt (s : State) : Timebase :=
  let x := (atTime (s.time.lastRef + (std s).missingLimit) s).time
  { x with count := (std s).period / 2, lastBoundary := x.clock, refState := .lost, warmUp := 0 }

theorem missPresent_eq (s : State) :
    missPresent s = fieldBoundary none ((setFlag .refLost (loseLock s)).setTime (missedAt s)) :=
  congrArg (fieldBoundary none) (loseLock_setFlag_setTime .refLost (missedAt s) s)

theorem completePeriod_eq (s : State) : ∃ x, completePeriod s = s.setTime x ∧ x.fieldCount = s.time.fieldCount := by
  unfold completePeriod
  split <;> exact ⟨_, rfl, rfl⟩

/-- The command of a boundary ends in the run of the takers, in some order, from the boundary's start (R28, R51). -/
theorem boundary_run {c : Instr} {s : State} (hr : Running s) (hm : MakesBoundary c s) :
    ∃ (t : State) (rank : Taker → Nat), exec c s = .next t ∧ t = runTakers (takerOrder rank) (boundaryStart c s t)
      ∧ t.time.fieldCount = s.time.fieldCount + 1 := by
  obtain ⟨rfl, hp⟩ | ⟨rfl, hp⟩ | ⟨time, first, rfl, hp, hg⟩ := hm
  · obtain ⟨x, e, hx⟩ := completePeriod_eq s
    refine ⟨fieldBoundary none (completePeriod s), Config.takerRank s.choices, ?_, ?_, ?_⟩
    · show inRun internalBoundary s = _
      rw [inRun_of_running _ hr, internalBoundary, if_neg hp]
    · exact (fieldBoundary_run_setTime none e).1
    · rw [(fieldBoundary_run_setTime none e).2, hx]
  · obtain ⟨hrun, hfc⟩ := fieldBoundary_run none ((setFlag .refLost (loseLock s)).setTime (missedAt s))
    rw [← missPresent_eq] at hrun hfc
    refine ⟨missPresent s, Config.takerRank ((setFlag .refLost (loseLock s)).setTime (missedAt s)).choices, ?_, ?_, hfc⟩
    · show inRun missingLimitPresent s = _
      rw [inRun_of_running _ hr, missingLimitPresent, if_pos hp]
    · rw [boundaryStart, if_pos rfl]
      exact hrun
  · have hgood : goodSince (atTime time s).time.lastRef (atTime time s) = true := hg
    have hpres : (atTime time s).time.refState = .present := hp
    have hrun := fieldBoundary_run_setTime (s := s) (some first) (b := (atTime time s).setTime
      { (atTime time s).time with
        lastRef := (atTime time s).time.clock, prevPulse := some (atTime time s).time.clock, count := 0
        lastBoundary := (atTime time s).time.clock }) rfl
    refine ⟨goodPulse first (atTime time s), Config.takerRank s.choices, ?_, hrun.1, hrun.2⟩
    show inRun (referencePulse time first) s = _
    rw [inRun_of_running _ hr, referencePulse, pulseNow_present hpres, if_pos hgood]

theorem boundaryStart_frame (c : Instr) (s t : State) :
    Frame [.chase, .flags, .time, .choices] s (boundaryStart c s t) := by
  unfold boundaryStart
  split
  · exact (((loseLock_frame s).trans (setFlag_frame _ _)).trans (setTime_frame _ _)).trans (setChoices_frame _ _)
  · exact ((setTime_frame s _).trans (setChoices_frame _ _)).mono

theorem boundaryStart_details (c : Instr) (s t : State) : Details [.flag .refLost] s (boundaryStart c s t) := by
  unfold boundaryStart
  split
  · exact (((loseLock_details s).trans (setFlag_details _ _)).trans (setTime_frame _ _).details).trans
      (setChoices_frame _ _).details
  · exact ((setTime_frame s _).details.trans (setChoices_frame _ _).details).mono

@[simp] theorem boundaryStart_time (c : Instr) (s t : State) : (boundaryStart c s t).time = t.time := rfl

/-- Settles O15: the command ends in the run of the takers, whose order is a sort by the lifted ranks. -/
theorem takersKeepTheirOrder : Obligations.TakersKeepTheirOrder := by
  refine ⟨fun c s hr hm => ?_, fun rank => ⟨takerOrder_perm rank, publish_before_evaluate rank, publish_before_locate rank,
    evaluate_before_setVirtual rank, evaluate_before_cues rank, evaluate_before_compose rank⟩⟩
  obtain ⟨t, rank, e, hrun, -⟩ := boundary_run hr hm
  exact ⟨t, rank, e, hrun⟩

/-- The run of a boundary about one taker: the takers before it, its own act, the takers after it. -/
theorem boundary_split {c : Instr} {s : State} (hr : Running s) (hm : MakesBoundary c s) :
    ∃ (t : State) (rank : Taker → Nat), exec c s = .next t ∧ t.time.fieldCount = s.time.fieldCount + 1
      ∧ ∀ x pre post, SplitAt rank x pre post →
          t = runTakers post (takeBoundary x (runTakers pre (boundaryStart c s t))) := by
  obtain ⟨t, rank, e, hrun, hfc⟩ := boundary_run hr hm
  refine ⟨t, rank, e, hfc, fun x pre post h => ?_⟩
  rw [h.order, runTakers_append] at hrun
  exact hrun

/-! ### The timebase -/

theorem due_advances (due n p : Nat) : (due + n / p) * p + n % p = due * p + n := by
  rw [Nat.add_mul, Nat.add_assoc, Nat.div_add_mod']

/-- The good window of Table 2.3. -/
def goodWindow : Standard → Nat × Nat
  | .f25 => (237600, 242400)
  | .f30df | .f30nd => (198198, 202202)
  | .f30 => (198000, 202000)

theorem goodSpacing_iff (x : Standard) (n : Nat) :
    x.goodSpacing n = true ↔ (goodWindow x).1 ≤ n ∧ n ≤ (goodWindow x).2 := by
  cases x <;> simp [Standard.goodSpacing, goodWindow]

/-- Settles O7: the clock at a timed event by the quotient and the rest of the count, and the monitor state by state. -/
theorem referencePulseWithoutBoundary : Obligations.ReferencePulseWithoutBoundary := by
  refine ⟨fun time s => ⟨rfl, Nat.mod_lt _ (period_pos _), fun h => ?_, fun h => ⟨if_pos h, rfl⟩⟩,
    fun time first s hr => ?_⟩
  · show (if s.time.refState = .present then 0 else s.time.due + _ / (std s).period) * (std s).period + _ % _ = _
    rw [if_neg h, due_advances, Nat.add_assoc]
    rfl
  have run (h : RefState) (e : s.time.refState = h) : exec (.referencePulse time first) s
      = .next (pulseNow first (atTime time s)) ∧ (atTime time s).time.refState = h :=
    ⟨inRun_of_running _ hr, e⟩
  refine ⟨fun h => ?_, fun p h hp hg => ⟨fun hw => ?_, fun hw => ?_⟩, fun p h hp hg => ?_, fun h hg => ?_,
    standard_table Standard.period s.straps, standard_table Standard.missingLimit s.straps, ?_⟩
  · obtain ⟨e, h'⟩ := run _ h
    rw [e, pulseNow_lost h']
    rfl
  · obtain ⟨e, h'⟩ := run _ h
    have hg' : goodSince p (atTime time s) = true := hg
    rw [e, pulseNow_settling h' hp, if_pos hg', warmPulse, if_neg (by show ¬16 ≤ s.time.warmUp + 1; omega)]
    rfl
  · obtain ⟨e, h'⟩ := run _ h
    have hg' : goodSince p (atTime time s) = true := hg
    rw [e, pulseNow_settling h' hp, if_pos hg', warmPulse, if_pos (by show 16 ≤ s.time.warmUp + 1; omega)]
  · obtain ⟨e, h'⟩ := run _ h
    have hg' : goodSince p (atTime time s) = false := hg
    rw [e, pulseNow_settling h' hp, if_neg (by rw [hg']; simp), loseReference]
  · obtain ⟨e, h'⟩ := run _ h
    have hg' : goodSince (atTime time s).time.lastRef (atTime time s) = false := hg
    rw [e, pulseNow_present h', if_neg (by rw [hg']; simp)]
  · exact ⟨(goodWindow (std s)).1, (goodWindow (std s)).2, standard_table goodWindow s.straps, goodSpacing_iff (std s)⟩

/-! ### The sources of a boundary -/

theorem lockSound_moves {s t : State} (m : Moves s t) (h : LockSound s) : LockSound t :=
  Moves.keeps (fun _ _ k m => lockSound_move k m) h m

theorem fieldBoundary_time (identity : Option Bool) (s : State) :
    (fieldBoundary identity s).time = (openBoundary identity s).time := (fieldBoundary_spec identity s).1

theorem fieldBoundary_flag {f : Flag} (hf : ∀ x, Detail.flag f ∉ takerDetails x) (identity : Option Bool) (s : State) :
    hasFlag (fieldBoundary identity s) f = hasFlag s f := by
  have h := runTakers_detail (.flag f) (order := takerOrder (Config.takerRank s.choices)) (fun x _ => hf x)
    (openBoundary identity (s.setChoices (s.choices + 1)))
  exact h

/-- Settles O8: the three sources with the time they date the boundary by; after the missing limit no taker locks, for the
reference is LOST. -/
theorem boundarySources : Obligations.BoundarySources := by
  refine ⟨fun time first s hr hp => fun hg => ?_, fun s hr => ⟨fun hp hd => ?_, fun hp hd => ?_, fun hp => ?_⟩,
    fun s hr => ⟨fun hp => ?_, fun p hp hprev => ?_⟩⟩
  · have hgood : goodSince (atTime time s).time.lastRef (atTime time s) = true := hg
    have hpres : (atTime time s).time.refState = .present := hp
    refine ⟨goodPulse first (atTime time s), ?_, ?_⟩
    · show inRun (referencePulse time first) s = _
      rw [inRun_of_running _ hr, referencePulse, pulseNow_present hpres, if_pos hgood]
    · rw [goodPulse, fieldBoundary_time]
      simp [openBoundary, phaseAfter, atTime, hp]
  · have e : internalBoundary s = fieldBoundary none (reachPeriod s) := by
      rw [internalBoundary, if_neg hp, completePeriod, if_pos hd]
    exact ⟨_, (inRun_of_running _ hr).trans (congrArg _ e), fieldBoundary_time _ _⟩
  · have e : internalBoundary s = fieldBoundary none (issueDue s) := by
      rw [internalBoundary, if_neg hp, completePeriod, if_neg hd]
    exact ⟨_, (inRun_of_running _ hr).trans (congrArg _ e), fieldBoundary_time _ _⟩
  · exact (inRun_of_running _ hr).trans (congrArg _ (if_pos hp))
  · have e : missingLimitPresent s = missPresent s := if_pos hp
    have htime : (missPresent s).time = (openBoundary none (s.setTime (missedAt s))).time := by
      rw [missPresent_eq, fieldBoundary_time]
      rfl
    refine ⟨missPresent s, (inRun_of_running _ hr).trans (congrArg _ e), ?_, ?_, ?_⟩
    · rw [htime]
      simp [openBoundary, phaseAfter, missedAt, atTime, hp]
    · rw [missPresent_eq, fieldBoundary_flag (fun x => by cases x <;> simp [takerDetails])]
      exact hasFlag_setFlag_self .refLost _
    · intro hlock
      have hrun : Running ((setFlag .refLost (loseLock s)).setTime (missedAt s)) :=
        (congrArg Power.supervisor ((loseLock_frame s).same .power)).trans hr
      have hsound : LockSound (missPresent s) := by
        rw [missPresent_eq]
        exact lockSound_moves (fieldBoundary_moves none hrun) fun k => absurd k (loseLock_not_locked s)
      have hlost : (missPresent s).time.refState = .lost := by rw [htime]; rfl
      obtain ⟨-, hpres, -⟩ := hsound hlock
      simp [hlost] at hpres
  · have e : missingLimitSettling s = loseReference (atTime (p + (std s).missingLimit) s) := by
      rw [missingLimitSettling, if_pos hp, hprev]; rfl
    exact (inRun_of_running _ hr).trans (congrArg _ e)

/-! ### A boundary reaches every block -/

theorem faderBoundary_sending (s : State) : (faderBoundary s).mix.sending.isSome = true := by
  unfold faderBoundary
  exact sendMix_sending rfl

/-- Settles O9: each part beside the boundary's own is written by one taker at most, whose act is read off. -/
theorem boundaryReachesEveryBlock : Obligations.BoundaryReachesEveryBlock := by
  intro c s hr hm
  obtain ⟨t, rank, e, hfc, split⟩ := boundary_split hr hm
  have start := boundaryStart_frame c s t
  refine ⟨t, e, hfc, ?_, ?_, ?_, ?_, ?_, ?_, ?_⟩
  · obtain ⟨pre, post, h⟩ := takerOrder_split rank .gpi
    have part := h.part (p := .inputs) (fun y k => by cases y <;> simp [takerParts] at k; rfl)
    have hin : (runTakers pre (boundaryStart c s t)).gpi.inputs = s.gpi.inputs := Eq.trans (part (boundaryStart c s t)).1 (start.same .inputs)
    rw [split _ _ _ h]
    exact Eq.trans (part _).2 (by rw [takeBoundary, gpiBoundary, State.setGpi_gpi, hin])
  · obtain ⟨pre, post, h⟩ := takerOrder_split rank .peers
    have part := h.part (p := .peers) (fun y k => by cases y <;> simp [takerParts] at k; rfl)
    have hpe : (runTakers pre (boundaryStart c s t)).peers = s.peers := Eq.trans (part (boundaryStart c s t)).1 (start.same .peers)
    have htime : (runTakers pre (boundaryStart c s t)).time = t.time := (runTakers_keeps pre _).time
    rw [split _ _ _ h]
    exact Eq.trans (part _).2 (by rw [takeBoundary, peersBoundary, State.setPeers_peers, hpe, htime, hfc])
  · obtain ⟨pre, post, h⟩ := takerOrder_split rank .fader
    have part := h.detail (d := .sending) (fun y k => by cases y <;> simp [takerDetails] at k; rfl)
    obtain ⟨m, hm⟩ := Option.isSome_iff_exists.mp (faderBoundary_sending (runTakers pre (boundaryStart c s t)))
    rw [split _ _ _ h]
    exact Option.isSome_iff_exists.mpr ⟨m, (part _).2.2 m hm⟩
  all_goals
    obtain ⟨pre, post, h⟩ := takerOrder_split rank .gpi
    have keeps := split _ _ _ h
    have k1 := runTakers_keeps pre (boundaryStart c s t)
    have k2 := takeBoundary_keeps .gpi (runTakers pre (boundaryStart c s t))
    have k3 := runTakers_keeps post (takeBoundary .gpi (runTakers pre (boundaryStart c s t)))
    rw [keeps]
  · exact (k3.req.trans (k2.req.trans k1.req)).trans (start.same .req)
  · exact (k3.straps.trans (k2.straps.trans k1.straps)).trans (start.same .straps)
  · exact (k3.pins.trans (k2.pins.trans k1.pins)).trans (start.same .pins)
  · exact (k3.power.trans (k2.power.trans k1.power)).trans (start.same .power)

end Sys2Proof.Machine

/-! SUPPORT and O10. The publication at a boundary: the Position Unit publishes, and on a LIVE station takes the chase record
that answers the publication. -/

namespace Sys2Proof.Machine

set_option Elab.async false

/-! ### Two takers in their order -/

theorem SplitAt.after {rank : Taker → Nat} {x b : Taker} {pre post : List Taker} (h : SplitAt rank x pre post)
    (hb : [x, b].Sublist (takerOrder rank)) : b ∈ post ∧ b ∉ pre := by
  have hn := takerOrder_nodup rank
  obtain ⟨pre', post', h'⟩ := takerOrder_split rank b
  have hx := (h'.before hb).1
  have hmem : b ∈ takerOrder rank := mem_takerOrder rank b
  rw [h.order] at hmem hn
  rw [h'.order] at hb
  have hnot : b ∉ pre := by
    intro k
    have e := h.order.symm.trans h'.order
    obtain ⟨l, e1, e2⟩ | ⟨l, e1, e2⟩ := List.append_eq_append_iff.mp e
    · exact h'.pre (by rw [e1]; exact List.mem_append_left l k)
    · cases l with
      | nil => rw [List.append_nil] at e1; rw [← e1] at hx; exact h.pre hx
      | cons y l =>
        rw [e1] at hn
        have : x ∈ pre' := hx
        have hd := (List.nodup_append.mp hn).2.2
        exact hd x (List.mem_append_left _ this) x (by simp) rfl
  refine ⟨?_, hnot⟩
  obtain k | k := List.mem_append.mp hmem
  · exact absurd k hnot
  · obtain rfl | k := List.mem_cons.mp k
    · exact absurd hx h'.pre
    · exact k

/-- Between two takers. -/
theorem SplitAt.between {rank : Taker → Nat} {a b : Taker} {pre post pre' post' : List Taker}
    (h : SplitAt rank a pre post) (k : SplitAt rank b pre' post') (ha : a ∈ pre') :
    ∃ mid, pre' = pre ++ a :: mid ∧ post = mid ++ b :: post' := by
  have e := h.order.symm.trans k.order
  obtain ⟨l, e1, e2⟩ | ⟨l, e1, e2⟩ := List.append_eq_append_iff.mp e
  · cases l with
    | nil =>
      rw [List.append_nil] at e1
      rw [e1] at ha
      exact absurd ha h.pre
    | cons y l =>
      rw [List.cons_append] at e2
      obtain ⟨rfl, e2⟩ := List.cons.inj e2
      exact ⟨l, e1, (List.cons.inj e2).2⟩
  · have : a ∈ pre := by rw [e1]; exact List.mem_append_left l ha
    exact absurd this h.pre

theorem publish_before_setVirtual (rank : Taker → Nat) : [Taker.publish, .setVirtual].Sublist (takerOrder rank) :=
  takerOrder_before ((Nat.le_max_left _ _).trans (Nat.le_max_left _ _)) (by simp [allTakers])

/-- The run of a boundary about the publication and the LIVE station's taking of the chase record: the takers beside these
two leave the position, and the record taken is the one the boundary ends with. -/
theorem boundary_positions {c : Instr} {s : State} (hr : Running s) (hm : MakesBoundary c s) :
    ∃ (t u v : State), exec c s = .next t ∧ t.time.fieldCount = s.time.fieldCount + 1
      ∧ u.pos = s.pos ∧ u.straps = s.straps ∧ u.time = t.time
      ∧ v.pos = (positionBoundary u).pos ∧ v.straps = s.straps ∧ v.chase.handed = t.chase.handed
      ∧ t.pos = (setVirtual v).pos := by
  obtain ⟨t, rank, e, hfc, split⟩ := boundary_split hr hm
  have start := boundaryStart_frame c s t
  obtain ⟨pre, post, h⟩ := takerOrder_split rank .publish
  obtain ⟨pre', post', k⟩ := takerOrder_split rank .setVirtual
  obtain ⟨mid, hpre', hpost⟩ := h.between k (k.before (publish_before_setVirtual rank)).1
  have writes (y : Taker) (hy : Part.pos ∈ takerParts y) : y = .publish ∨ y = .setVirtual := by
    cases y <;> simp [takerParts] at hy <;> simp
  have quiet (order : List Taker) (h1 : Taker.publish ∉ order) (h2 : Taker.setVirtual ∉ order) (w : State) :
      (runTakers order w).pos = w.pos := by
    refine runTakers_same .pos (fun y hy k => ?_) w
    obtain rfl | rfl := writes y k
    · exact h1 hy
    · exact h2 hy
  have ht := split _ _ _ h
  have kpre := runTakers_keeps pre (boundaryStart c s t)
  generalize hu : runTakers pre (boundaryStart c s t) = u at ht kpre
  have kmid := runTakers_keeps mid (positionBoundary u)
  rw [hpost, runTakers_append, runTakers_cons] at ht
  generalize hv : runTakers mid (takeBoundary .publish u) = v at ht
  have hvs : v.straps = s.straps := by
    have hpub : (positionBoundary u).straps = u.straps := (positionBoundary_frame u).same .straps
    rw [← hv]
    exact kmid.straps.trans (hpub.trans (kpre.straps.trans (start.same .straps)))
  have hupos : u.pos = s.pos := by
    rw [← hu, quiet pre h.pre (h.after (publish_before_setVirtual rank)).2]
    exact start.same .pos
  have hvpos : v.pos = (positionBoundary u).pos := by
    rw [← hv]
    refine quiet mid (fun q => h.post ?_) (fun q => k.pre ?_) _
    · rw [hpost]; exact List.mem_append_left _ q
    · rw [hpre']; exact List.mem_append_right _ (List.mem_cons_of_mem _ q)
  have hlive := k.before (evaluate_before_setVirtual rank)
  refine ⟨t, u, v, e, hfc, hupos, kpre.straps.trans (start.same .straps), kpre.time, hvpos, hvs, ?_, ?_⟩
  · rw [ht]
    have h1 := runTakers_detail .handed (order := post')
      (fun y hy q => hlive.2 (by cases y <;> simp_all [takerDetails])) (takeBoundary .setVirtual v)
    have h2 := takeBoundary_details .setVirtual v .handed (by simp [takerDetails])
    exact (Eq.trans h1 h2).symm
  · rw [ht]
    refine quiet post' (fun q => h.post ?_) k.post _
    rw [hpost]; exact List.mem_append_right _ (List.mem_cons_of_mem _ q)

/-! ### The publications -/

/-- The silent count after a boundary (R106). -/
def silentAfter (p : Position) : Nat :=
  if p.pulses ≠ 0 ∧ p.adopted = false then min 25 (p.silent + 1) else p.silent

/-- A candidate that expires leaves the rest of the position as it was. -/
theorem expireCandidate_pos (s : State) : ∃ c n, (expireCandidate s).pos = { s.pos with candidate := c, tcRejects := n } := by
  unfold expireCandidate
  split
  · split
    · exact ⟨_, _, rfl⟩
    · exact ⟨_, _, rfl⟩
  · exact ⟨_, _, rfl⟩

theorem countSilence_pos (s : State) : (countSilence s).pos = { s.pos with silent := silentAfter s.pos } := by
  unfold countSilence silentAfter
  by_cases h : s.pos.pulses ≠ 0 ∧ s.pos.adopted = false
  · rw [if_pos (by simpa using h), if_pos h]; rfl
  · rw [if_neg (by simpa using h), if_neg h]

theorem expireSilence_pos (s : State) :
    (expireSilence s).pos
      = { s.pos with quality := if s.pos.quality = .ltc ∧ 25 ≤ s.pos.silent then .tach else s.pos.quality } := by
  unfold expireSilence
  split <;> rfl

/-- What a deck station publishes (R106, R108). -/
theorem publishDeck_pos (s : State) :
    let p := (publishDeck s).pos
    p.pulses = 0 ∧ p.adopted = false ∧ p.jammed = false ∧ p.held = s.pos.held ∧ p.silent = silentAfter s.pos
      ∧ p.record = p.published
      ∧ p.published =
        { position := s.pos.held
          quality := if s.pos.quality = .ltc ∧ 25 ≤ silentAfter s.pos then .tach else s.pos.quality
          motion := clampInt (-32768) 32767 (32 * s.pos.pulses), jammed := s.pos.jammed } := by
  obtain ⟨k, n, e⟩ := expireCandidate_pos s
  have e' : (expireSilence (countSilence (expireCandidate s))).pos =
      { s.pos with
        candidate := k, tcRejects := n, silent := silentAfter s.pos
        quality := if s.pos.quality = .ltc ∧ 25 ≤ silentAfter s.pos then .tach else s.pos.quality } := by
    rw [expireSilence_pos, countSilence_pos, e]
    rfl
  unfold publishDeck publishRecord deckRecord
  dsimp only [State.setPos_pos]
  rw [e']
  exact ⟨rfl, rfl, rfl, rfl, rfl, rfl, rfl⟩

theorem setVirtual_of_deck {s : State} (h : isDeck s = true) : setVirtual s = s := by
  rw [setVirtual, if_neg (by simp [h])]

theorem isDeck_congr {s t : State} (h : t.straps = s.straps) : isDeck t = isDeck s := by
  unfold isDeck; rw [role_congr h]

/-- Settles O10: the position after the boundary is the publication's, and on LIVE the chase record's taken after it. -/
theorem boundaryPublishesPosition : Obligations.BoundaryPublishesPosition := by
  intro c s hr hm
  obtain ⟨t, u, v, e, -, hu, hus, -, hv, hvs, hhanded, ht⟩ := boundary_positions hr hm
  have std_u : std u = std s := congrArg standardOf hus
  cases hd : isDeck s with
  | true =>
    have hp : t.pos = (publishDeck u).pos := by
      rw [ht, setVirtual_of_deck ((isDeck_congr hvs).trans hd), hv, positionBoundary,
        if_pos ((isDeck_congr hus).trans hd)]
    obtain ⟨h1, h2, h3, h4, h5, h6, h7⟩ := publishDeck_pos u
    rw [← hp] at h1 h2 h3 h4 h5 h6 h7
    rw [hu] at h4 h5 h7
    exact ⟨t, e, h1, h2, h3, fun _ => ⟨h4, h5, h6, h7⟩, fun k => by simp at k⟩
  | false =>
    have hdv : isDeck v = false := (isDeck_congr hvs).trans hd
    have hvp : v.pos = (publishLive u).pos := by
      rw [hv, positionBoundary, if_neg (by simp [(isDeck_congr hus).trans hd])]
    have base : v.pos.pulses = 0 ∧ v.pos.adopted = false ∧ v.pos.jammed = false ∧ v.pos.record = v.pos.published
        ∧ v.pos.held = v.pos.published.position ∧ v.pos.published = virtualRecord u := by
      rw [hvp]; exact ⟨rfl, rfl, rfl, rfl, rfl, rfl⟩
    obtain ⟨h1, h2, h3, h4, h5, h6⟩ := base
    have hpub : v.pos.published =
        { position := modSum (std s) s.pos.held 256, quality := .virtual
          motion := clampInt (-32768) 32767
            (signedDiff (std s) (modSum (std s) s.pos.held 256) s.pos.published.position)
          jammed := false } := by
      rw [h6, virtualRecord, std_u, hu]; rfl
    have cases : t.pos = v.pos ∧ (t.chase.handed.state = .free ∨ t.chase.handed.usable = false)
        ∨ t.pos = { v.pos with
            held := t.chase.handed.target
            record := { v.pos.record with position := t.chase.handed.target, quality := .virtual, jammed := false } }
          ∧ t.chase.handed.state ≠ .free ∧ t.chase.handed.usable = true := by
      rw [ht, ← hhanded]
      unfold setVirtual
      split
      · rename_i k
        simp only [Bool.and_eq_true, bne_iff_ne, ne_eq] at k
        exact .inr ⟨rfl, k.1.2, k.2⟩
      · rename_i k
        refine .inl ⟨rfl, ?_⟩
        simp only [hdv, Bool.not_false, Bool.true_and, Bool.and_eq_true, bne_iff_ne, ne_eq, not_and_or, not_not,
          Bool.not_eq_true] at k
        exact k
    refine ⟨t, e, ?_⟩
    obtain ⟨hp, k⟩ | ⟨hp, k⟩ := cases
    · refine ⟨hp ▸ h1, hp ▸ h2, hp ▸ h3, fun q => by simp at q, fun _ => ⟨hp ▸ hpub, fun q => ?_, fun _ => hp ▸ h5, ?_⟩⟩
      · obtain k | k := k
        · exact absurd k q.1
        · simp [q.2] at k
      · rw [hp, h4, h5]
    · refine ⟨by rw [hp]; exact h1, by rw [hp]; exact h2, by rw [hp]; exact h3, fun q => by simp at q,
        fun _ => ⟨by rw [hp]; exact hpub, fun _ => by rw [hp], fun q => ?_, ?_⟩⟩
      · obtain q | q := q
        · exact absurd q k.1
        · simp [k.2] at q
      · rw [hp]
        dsimp only
        rw [h4, hpub]

end Sys2Proof.Machine

/-! SUPPORT and O13. The link at a boundary: the new POSITION, the REPORTs that have expired and the register, in both
orders of the link and the composer. -/

namespace Sys2Proof.Machine

set_option Elab.async false

/-! ### Operations of the link, field by field -/

theorem bumpCounterBy_eq (k n : Nat) : bumpCounterBy k n = min (max 65535 n) (n + k) := by
  induction k generalizing n with
  | zero => rw [bumpCounterBy]; omega
  | succ k ih =>
    rw [bumpCounterBy, ih, bumpCounter]
    split <;> omega

/-- The phase once a POSITION on the line is let go (R46, R47). -/
def TxPhase.released : TxPhase → TxPhase
  | .sending f g => if f.kind = .position then .sending f true else .sending f g
  | .idle => .idle
  | .deferring k => .deferring k
  | .jamming => .jamming

theorem letGo_link (s : State) : (letGo s).link = { s.link with phase := s.link.phase.released } := by
  unfold letGo TxPhase.released
  cases h : s.link.phase with
  | sending f g =>
    dsimp only
    split
    · rfl
    · rw [← h]
  | idle => simp only [← h]
  | deferring k => simp only [← h]
  | jamming => simp only [← h]

theorem dropPosition_link (s : State) :
    (dropPosition s).link
      = { s.link with position := none, heldBack := false, txDropped := bumpCounterBy 1 s.link.txDropped } := rfl

theorem dropExpired_link (s : State) :
    (dropExpired s).link
      = { s.link with
          reports := s.link.reports.filter fun f => !f.expired s.time.fieldCount
          txDropped :=
            bumpCounterBy (s.link.reports.filter fun f => f.expired s.time.fieldCount).length s.link.txDropped } := rfl

/-- The POSITION that the composer queues. -/
def newPosition (s : State) : TxFrame :=
  { kind := .position, payload := bulletinBytes s, collisions := 0, joined := s.time.fieldCount }

/-- The station once the old POSITION is out of the new one's way (R46). -/
def positionCleared (s : State) : State := if s.link.position.isSome then dropPosition s else letGo s

theorem positionCleared_time (s : State) : (positionCleared s).time = s.time := by
  unfold positionCleared
  split
  · rfl
  · exact (letGo_frame s).same .time

theorem composeBulletin_eq (s : State) :
    composeBulletin s
      = headChanged ((positionCleared s).setLink
          { (positionCleared s).link with position := some (newPosition s), heldBack := false }) := by
  unfold composeBulletin joinPosition newPosition
  dsimp only
  rw [show (if s.link.position.isSome then dropPosition s else letGo s) = positionCleared s from rfl, positionCleared_time]

/-! ### The new POSITION stays -/

/-- The POSITION waits or is on the line. -/
def Queued (f : TxFrame) (l : Link) : Prop :=
  l.position = some f ∨ (l.position = none ∧ l.phase = .sending f false)

theorem startHead_position {f : TxFrame} {s : State} (h : s.link.position = some f) : Queued f (startHead s).link := by
  unfold startHead
  rw [h]
  dsimp only
  split
  · exact .inr ⟨rfl, rfl⟩
  · exact .inl h

theorem beginDeferral_position {f : TxFrame} {s : State} (h : s.link.position = some f) :
    Queued f (beginDeferral s).link := by
  unfold beginDeferral
  split
  · rw [headFrame, h]
    dsimp only
    unfold deferFor
    dsimp only
    split
    · exact startHead_position h
    · exact .inl h
  · exact .inl h

theorem abandonDeferral_link (s : State) : ∃ p, (abandonDeferral s).link = { s.link with phase := p } := by
  unfold abandonDeferral
  split <;> exact ⟨_, rfl⟩

theorem composeBulletin_queued (s : State) : Queued (newPosition s) (composeBulletin s).link := by
  rw [composeBulletin_eq, headChanged]
  refine beginDeferral_position ?_
  obtain ⟨p, e⟩ := abandonDeferral_link ((positionCleared s).setLink
    { (positionCleared s).link with position := some (newPosition s), heldBack := false })
  rw [e]; rfl

/-- While a frame is on the line no deferral begins. -/
theorem beginDeferral_of_busy {s : State} (h : s.link.phase ≠ .idle) : beginDeferral s = s := by
  rw [beginDeferral, if_neg (fun k => h k.2.1)]

theorem headChanged_of_sending {f : TxFrame} {g : Bool} {s : State} (h : s.link.phase = .sending f g) :
    headChanged s = s := by
  have e : abandonDeferral s = s := by unfold abandonDeferral; rw [h]
  rw [headChanged, e, beginDeferral_of_busy (by simp [h])]

theorem restartIfChanged_of_sending {f : TxFrame} {g : Bool} {before s : State} (h : s.link.phase = .sending f g) :
    restartIfChanged before s = s := by
  unfold restartIfChanged
  split
  · rfl
  · exact headChanged_of_sending h

theorem settlePosition_of_new {f : TxFrame} {s : State} (h : s.link.position = some f)
    (hj : f.joined = s.time.fieldCount) : settlePosition s = s := by
  unfold settlePosition; rw [h]; dsimp only; rw [if_pos hj]

theorem settlePosition_of_sent {f : TxFrame} {g : Bool} {s : State} (h : s.link.position = none)
    (hp : s.link.phase = .sending f g) (hj : f.joined = s.time.fieldCount) : settlePosition s = s := by
  unfold settlePosition letOldGo; rw [h]; dsimp only; rw [hp]; dsimp only; rw [if_pos hj]

/-- The link's own act at the boundary keeps the POSITION composed for it (R47). -/
theorem linkBoundary_queued {f : TxFrame} {s : State} (h : Queued f s.link) (hj : f.joined = s.time.fieldCount) :
    Queued f (linkBoundary s).link := by
  obtain h | ⟨h, hp⟩ := h
  · have e : linkBoundary s = dropExpired (stepBackoff s) := by
      rw [linkBoundary, settlePosition_of_new (s := stepBackoff s) h hj, restartIfChanged, if_pos]
      show headFrame (dropExpired (stepBackoff s)).link = headFrame s.link
      rw [headFrame, headFrame, dropExpired_link]
      simp only [stepBackoff, State.setLink_link, h]
    rw [e]
    exact .inl h
  · have e : linkBoundary s = dropExpired (stepBackoff s) := by
      rw [linkBoundary, settlePosition_of_sent (s := stepBackoff s) h hp hj]
      exact restartIfChanged_of_sending (s := dropExpired (stepBackoff s)) hp
    rw [e]
    exact .inr ⟨h, hp⟩

/-! ### REPORTs and the register -/

theorem stepRegisterBy_add (m n : Nat) (r : BitVec 15) :
    stepRegisterBy n (stepRegisterBy m r) = stepRegisterBy (m + n) r := by
  induction m generalizing r with
  | zero => rw [stepRegisterBy, Nat.zero_add]
  | succ m ih => rw [Nat.add_right_comm, stepRegisterBy, stepRegisterBy, ih]

/-- What may come of a link whose head may start: a frame that it starts is the head of the queue (R42, R46). -/
structure Starts (s t : Link) : Prop where
  reports : ∀ g ∈ t.reports, g ∈ s.reports
  sending : ∀ g gone, t.phase = .sending g gone →
    s.phase = .sending g gone ∨ s.position = some g ∨ (s.position = none ∧ g ∈ s.reports)
  register : ∃ n, t.backoff = stepRegisterBy n s.backoff

theorem Starts.refl (l : Link) : Starts l l := ⟨fun _ h => h, fun _ _ h => .inl h, 0, rfl⟩

theorem startHead_starts (s : State) : Starts s.link (startHead s).link := by
  unfold startHead
  split
  · rename_i f hf
    split
    · refine ⟨fun _ h => h, fun g gone h => ?_, 0, rfl⟩
      obtain ⟨rfl, -⟩ := TxPhase.sending.inj h
      exact .inr (.inl hf)
    · exact ⟨fun _ h => h, fun g gone h => by simp at h, 0, rfl⟩
  · rename_i hn
    unfold startReport
    split
    · exact .refl _
    · rename_i f rest hr
      refine ⟨fun g h => by rw [hr]; exact List.mem_cons_of_mem f h, fun g gone h => ?_, 0, rfl⟩
      obtain ⟨rfl, -⟩ := TxPhase.sending.inj h
      exact .inr (.inr ⟨hn, by rw [hr]; exact List.mem_cons_self⟩)

/-- A link with another register, or no frame on the line, does not start more. -/
theorem Starts.after {l m t : Link} (h : Starts m t) (hr : m.reports = l.reports) (hp : m.position = l.position)
    (hs : ∀ g gone, m.phase = .sending g gone → l.phase = .sending g gone)
    (hb : ∃ n, m.backoff = stepRegisterBy n l.backoff) : Starts l t := by
  obtain ⟨n, hn⟩ := hb
  obtain ⟨k, hk⟩ := h.register
  refine ⟨fun g hg => hr ▸ h.reports g hg, fun g gone hg => ?_, n + k, by rw [hk, hn, stepRegisterBy_add]⟩
  obtain k | k | ⟨k1, k2⟩ := h.sending g gone hg
  · exact .inl (hs g gone k)
  · exact .inr (.inl (hp ▸ k))
  · exact .inr (.inr ⟨hp ▸ k1, hr ▸ k2⟩)

theorem beginDeferral_starts (s : State) : Starts s.link (beginDeferral s).link := by
  unfold beginDeferral
  split
  · split
    · unfold deferFor
      dsimp only
      split
      · exact (startHead_starts (stepBackoff s)).after rfl rfl (fun _ _ h => h) ⟨1, rfl⟩
      · exact ⟨fun _ h => h, fun g gone h => by simp at h, 1, rfl⟩
    · exact .refl _
  · exact .refl _

theorem headChanged_starts (s : State) : Starts s.link (headChanged s).link := by
  refine (beginDeferral_starts (abandonDeferral s)).after ?_ ?_ ?_ ⟨0, ?_⟩
  all_goals unfold abandonDeferral; split <;> try rfl
  all_goals exact fun g gone h => by simp_all

/-- The composer starts no REPORT. -/
theorem composeBulletin_reports (s : State) :
    (∀ g ∈ (composeBulletin s).link.reports, g ∈ s.link.reports)
      ∧ (∀ g gone, (composeBulletin s).link.phase = .sending g gone → g.kind = .report → s.link.phase = .sending g gone)
      ∧ ∃ n, (composeBulletin s).link.backoff = stepRegisterBy n s.link.backoff := by
  have cleared : (positionCleared s).link.reports = s.link.reports ∧ (positionCleared s).link.backoff = s.link.backoff
      ∧ ∀ g gone, (positionCleared s).link.phase = .sending g gone → g.kind = .report →
        s.link.phase = .sending g gone := by
    unfold positionCleared
    split
    · exact ⟨rfl, rfl, fun _ _ h _ => h⟩
    · rw [letGo_link]
      refine ⟨rfl, rfl, fun g gone h hk => ?_⟩
      dsimp only at h
      cases hp : s.link.phase with
      | sending f b =>
        rw [hp, TxPhase.released] at h
        split at h
        · obtain ⟨rfl, -⟩ := TxPhase.sending.inj h
          simp_all
        · exact h
      | idle => simp [hp, TxPhase.released] at h
      | deferring k => simp [hp, TxPhase.released] at h
      | jamming => simp [hp, TxPhase.released] at h
  obtain ⟨hr, hb, hs⟩ := cleared
  rw [composeBulletin_eq]
  have st := headChanged_starts ((positionCleared s).setLink
    { (positionCleared s).link with position := some (newPosition s), heldBack := false })
  refine ⟨fun g hg => hr ▸ st.reports g hg, fun g gone hg hk => ?_, ?_⟩
  · obtain k | k | ⟨k, -⟩ := st.sending g gone hg
    · exact hs g gone k hk
    · obtain rfl := Option.some.inj k
      simp [newPosition] at hk
    · simp at k
  · obtain ⟨n, hn⟩ := st.register
    exact ⟨n, hn.trans (congrArg _ hb)⟩

/-- What settling the POSITION leaves: another phase for a POSITION on the line, and no waiting POSITION but a new one. -/
theorem settlePosition_spec (s : State) :
    (settlePosition s).link.reports = s.link.reports ∧ (settlePosition s).link.backoff = s.link.backoff
      ∧ (settlePosition s).time = s.time
      ∧ (∀ g gone, (settlePosition s).link.phase = .sending g gone → g.kind = .report → s.link.phase = .sending g gone)
      ∧ ((settlePosition s).link.position = none ∨ (settlePosition s).link.position = s.link.position) := by
  unfold settlePosition letOldGo
  split
  · split
    · exact ⟨rfl, rfl, rfl, fun _ _ h _ => h, .inr rfl⟩
    · exact ⟨rfl, rfl, rfl, fun _ _ h _ => h, .inl rfl⟩
  · split
    · rename_i f b hp
      split
      · exact ⟨rfl, rfl, rfl, fun _ _ h _ => h, .inr rfl⟩
      · rw [letGo_link]
        refine ⟨rfl, rfl, (letGo_frame s).same .time, fun g gone h hk => ?_, .inr rfl⟩
        dsimp only at h
        rw [hp, TxPhase.released] at h
        split at h
        · obtain ⟨rfl, -⟩ := TxPhase.sending.inj h
          simp_all
        · rw [hp]; exact h
    all_goals exact ⟨rfl, rfl, rfl, fun _ _ h _ => h, .inr rfl⟩

/-- After the link's act no expired REPORT waits or has been started, and the register has been stepped (R41, R48). -/
theorem linkBoundary_reports (s : State) :
    (∀ g ∈ (linkBoundary s).link.reports, g ∈ s.link.reports ∧ g.expired s.time.fieldCount = false)
      ∧ (∀ g gone, (linkBoundary s).link.phase = .sending g gone → g.kind = .report →
          s.link.phase = .sending g gone ∨ (g ∈ s.link.reports ∧ g.expired s.time.fieldCount = false))
      ∧ ∃ n, 1 ≤ n ∧ (linkBoundary s).link.backoff = stepRegisterBy n s.link.backoff := by
  obtain ⟨hr, hb, ht, hs, hp⟩ := settlePosition_spec (stepBackoff s)
  generalize hu : settlePosition (stepBackoff s) = u at hr hb ht hs hp
  have hkeep : ∀ g ∈ (dropExpired u).link.reports, g ∈ s.link.reports ∧ g.expired s.time.fieldCount = false := by
    intro g hg
    rw [dropExpired_link] at hg
    obtain ⟨h1, h2⟩ := List.mem_filter.mp hg
    rw [ht] at h2
    have h3 : (!g.expired s.time.fieldCount) = true := h2
    exact ⟨by rw [hr] at h1; exact h1, by simpa using h3⟩
  have e : linkBoundary s = restartIfChanged s (dropExpired u) := by rw [linkBoundary, hu]
  have hbb : (dropExpired u).link.backoff = stepRegisterBy 1 s.link.backoff := hb
  rw [e]
  unfold restartIfChanged
  split
  · exact ⟨hkeep, fun g gone h hk => .inl (hs g gone h hk), 1, Nat.le_refl 1, hbb⟩
  · rename_i hne
    have st := headChanged_starts (dropExpired u)
    refine ⟨fun g hg => hkeep g (st.reports g hg), fun g gone hg hk => ?_, ?_⟩
    · obtain k | k | ⟨-, k⟩ := st.sending g gone hg
      · exact .inl (hs g gone k hk)
      · obtain q | q := hp
        · rw [show (dropExpired u).link.position = u.link.position from rfl, q] at k
          simp at k
        · refine absurd ?_ hne
          have k' : s.link.position = some g := q.symm.trans k
          rw [headFrame, k, headFrame, k']
      · exact .inr (hkeep g k)
    · obtain ⟨n, hn⟩ := st.register
      exact ⟨1 + n, Nat.le_add_right 1 n, by rw [hn, hbb, stepRegisterBy_add]⟩

/-! ### The run of a boundary about the link and the composer -/

theorem link_writer {y : Taker} (q : Part.link ∈ takerParts y) : y = .link ∨ y = .compose := by
  cases y <;> simp [takerParts] at q ⊢

theorem bulletinDropped_writer {y : Taker} (q : .flag .bulletinDropped ∈ takerDetails y) : y = .link ∨ y = .compose := by
  cases y <;> simp [takerDetails, fireDetails] at q ⊢

theorem pos_writer {y : Taker} (q : Part.pos ∈ takerParts y) : y = .publish ∨ y = .setVirtual := by
  cases y <;> simp [takerParts] at q ⊢

theorem handed_writer {y : Taker} (q : .handed ∈ takerDetails y) : y = .evaluate := by
  cases y <;> simp [takerDetails, fireDetails] at q ⊢

/-- The two takers of the link in the order of the ranks, the others around them leaving the link; the composer's station
bears the publication and the chase record of the boundary. -/
theorem boundary_link {c : Instr} {s : State} (hr : Running s) (hm : MakesBoundary c s) :
    ∃ (t u v : State), exec c s = .next t ∧ t.time.fieldCount = s.time.fieldCount + 1
      ∧ (u.time = t.time ∧ u.pos.published = t.pos.published ∧ u.chase.handed = t.chase.handed ∧ u.req = s.req
          ∧ u.straps = s.straps)
      ∧ v.time = t.time
      ∧ ((u.link = s.link ∧ v.link = (composeBulletin u).link ∧ t.link = (linkBoundary v).link
            ∧ (hasFlag u .bulletinDropped = hasFlag s .bulletinDropped
              ∧ hasFlag v .bulletinDropped = hasFlag (composeBulletin u) .bulletinDropped
              ∧ hasFlag t .bulletinDropped = hasFlag (linkBoundary v) .bulletinDropped))
        ∨ (v.link = s.link ∧ u.link = (linkBoundary v).link ∧ t.link = (composeBulletin u).link
            ∧ (hasFlag v .bulletinDropped = hasFlag s .bulletinDropped
              ∧ hasFlag u .bulletinDropped = hasFlag (linkBoundary v) .bulletinDropped
              ∧ hasFlag t .bulletinDropped = hasFlag (composeBulletin u) .bulletinDropped))) := by
  obtain ⟨t, rank, e, hfc, split⟩ := boundary_split hr hm
  have start := boundaryStart_frame c s t
  have startFlag : hasFlag (boundaryStart c s t) .bulletinDropped = hasFlag s .bulletinDropped :=
    (boundaryStart_details c s t).same (.flag .bulletinDropped)
  obtain ⟨pre, post, h⟩ := takerOrder_split rank .compose
  obtain ⟨pre', post', k⟩ := takerOrder_split rank .link
  have quiet (order : List Taker) (h1 : Taker.link ∉ order) (h2 : Taker.compose ∉ order) (w : State) :
      (runTakers order w).link = w.link ∧ hasFlag (runTakers order w) .bulletinDropped = hasFlag w .bulletinDropped := by
    constructor
    · refine runTakers_same .link (fun y hy q => ?_) w
      obtain rfl | rfl := link_writer q
      · exact h1 hy
      · exact h2 hy
    · refine runTakers_detail (.flag .bulletinDropped) (fun y hy q => ?_) w
      obtain rfl | rfl := bulletinDropped_writer q
      · exact h1 hy
      · exact h2 hy
  -- The composer's station u, which the takers before it make of the boundary's start.
  have hu (u : State) (hu : u = runTakers pre (boundaryStart c s t)) : u.time = t.time
      ∧ u.pos.published = t.pos.published ∧ u.chase.handed = t.chase.handed ∧ u.req = s.req ∧ u.straps = s.straps := by
    have kpre := runTakers_keeps pre (boundaryStart c s t)
    have hev := h.before (evaluate_before_compose rank)
    have hpub := h.before (takerOrder_before (rank := rank) (a := .publish) (b := .compose)
      ((Nat.le_max_left _ _).trans (Nat.le_max_left _ _)) (by simp [allTakers]))
    have ht := split _ _ _ h
    rw [← hu] at ht kpre
    refine ⟨kpre.time, ?_, ?_, kpre.req.trans (start.same .req), kpre.straps.trans (start.same .straps)⟩
    · have pub : (runTakers post (takeBoundary .compose u)).pos.published = (takeBoundary .compose u).pos.published :=
        runTakers_induct (R := fun a b => b.pos.published = a.pos.published) (fun _ => rfl)
          (fun h k => k.trans h) (fun y hy w => by
            have hne : y ≠ .publish := fun q => hpub.2 (q ▸ hy)
            by_cases hv : y = .setVirtual
            · subst hv; show (setVirtual w).pos.published = _; unfold setVirtual; split <;> rfl
            · have : Part.pos ∉ takerParts y := fun q => (pos_writer q).elim hne hv
              exact congrArg Position.published (takeBoundary_frame y w .pos this)) _
      have own : (takeBoundary .compose u).pos = u.pos := (composeBulletin_frame u).same .pos
      conv_rhs => rw [ht, pub, own]
    · have hand : (runTakers post (takeBoundary .compose u)).chase.handed = (takeBoundary .compose u).chase.handed :=
        runTakers_detail .handed (fun y hy q => hev.2 (handed_writer q ▸ hy)) _
      have own : (takeBoundary .compose u).chase = u.chase := (composeBulletin_frame u).same .chase
      conv_rhs => rw [ht, hand, own]
  have hne : Taker.link ≠ .compose := by simp
  by_cases hin : Taker.link ∈ pre
  · obtain ⟨mid, hpre, hpost⟩ := k.between h hin
    have hc : Taker.compose ∉ pre' ∧ Taker.compose ∉ mid := by
      constructor
      · exact fun q => h.pre (by rw [hpre]; exact List.mem_append_left _ q)
      · exact fun q => h.pre (by rw [hpre]; exact List.mem_append_right _ (List.mem_cons_of_mem _ q))
    have hl : Taker.link ∉ mid ∧ Taker.link ∉ post := by
      constructor
      · exact fun q => k.post (by rw [hpost]; exact List.mem_append_left _ q)
      · exact fun q => k.post (by rw [hpost]; exact List.mem_append_right _ (List.mem_cons_of_mem _ q))
    have q1 := quiet pre' k.pre hc.1 (boundaryStart c s t)
    have q2 := quiet mid hl.1 hc.2 (linkBoundary (runTakers pre' (boundaryStart c s t)))
    have eu : runTakers pre (boundaryStart c s t) = runTakers mid (linkBoundary (runTakers pre' (boundaryStart c s t))) := by
      rw [hpre, runTakers_append]; rfl
    have q3 := quiet post hl.2 h.post (composeBulletin (runTakers pre (boundaryStart c s t)))
    have et : t = runTakers post (composeBulletin (runTakers pre (boundaryStart c s t))) := split _ _ _ h
    refine ⟨t, runTakers pre (boundaryStart c s t), runTakers pre' (boundaryStart c s t), e, hfc, hu _ rfl,
      (runTakers_keeps pre' _).time, .inr ⟨q1.1.trans (start.same .link), by rw [eu]; exact q2.1, ?_,
        q1.2.trans startFlag, by rw [eu]; exact q2.2, ?_⟩⟩
    · conv_lhs => rw [et]
      exact q3.1
    · conv_lhs => rw [et]
      exact q3.2
  · have hmem : Taker.link ∈ post := by
      have := mem_takerOrder rank .link
      rw [h.order] at this
      simpa [hin, hne] using this
    have hin' : Taker.compose ∈ pre' := by
      by_contra hno
      have hc := mem_takerOrder rank .compose
      rw [k.order] at hc
      have hpost : Taker.compose ∈ post' := by simpa [hno] using hc
      obtain ⟨a, b, hab⟩ := List.append_of_mem hpost
      have h2 : SplitAt rank .compose (pre' ++ .link :: a) b := by
        have ho : takerOrder rank = (pre' ++ .link :: a) ++ .compose :: b := by rw [k.order, hab]; simp
        have hn := takerOrder_nodup rank
        rw [ho, List.nodup_append] at hn
        exact ⟨ho, fun q => hn.2.2 _ q _ (by simp) rfl, (List.nodup_cons.mp hn.2.1).1⟩
      obtain ⟨l, e1, e2⟩ | ⟨l, e1, e2⟩ := List.append_eq_append_iff.mp (h.order.symm.trans h2.order)
      · cases l with
        | nil => exact hin (by rw [List.append_nil] at e1; rw [← e1]; simp)
        | cons y l =>
          have hy := (List.cons.inj e2).1
          exact h2.pre (by rw [e1, ← hy]; simp)
      · exact hin (by rw [e1]; simp)
    obtain ⟨mid, hpre, hpost⟩ := h.between k hin'
    have hl : Taker.link ∉ pre ∧ Taker.link ∉ mid :=
      ⟨hin, fun q => k.pre (by rw [hpre]; exact List.mem_append_right _ (List.mem_cons_of_mem _ q))⟩
    have hc : Taker.compose ∉ mid ∧ Taker.compose ∉ post' := by
      constructor
      · exact fun q => h.post (by rw [hpost]; exact List.mem_append_left _ q)
      · exact fun q => h.post (by rw [hpost]; exact List.mem_append_right _ (List.mem_cons_of_mem _ q))
    have q1 := quiet pre hl.1 h.pre (boundaryStart c s t)
    have q2 := quiet mid hl.2 hc.1 (composeBulletin (runTakers pre (boundaryStart c s t)))
    have ev : runTakers pre' (boundaryStart c s t) = runTakers mid (composeBulletin (runTakers pre (boundaryStart c s t))) := by
      rw [hpre, runTakers_append]; rfl
    have q3 := quiet post' k.post hc.2 (linkBoundary (runTakers pre' (boundaryStart c s t)))
    have et : t = runTakers post' (linkBoundary (runTakers pre' (boundaryStart c s t))) := split _ _ _ k
    refine ⟨t, runTakers pre (boundaryStart c s t), runTakers pre' (boundaryStart c s t), e, hfc, hu _ rfl,
      (runTakers_keeps pre' _).time, .inl ⟨q1.1.trans (start.same .link), by rw [ev]; exact q2.1, ?_,
        q1.2.trans startFlag, by rw [ev]; exact q2.2, ?_⟩⟩
    · conv_lhs => rw [et]
      exact q3.1
    · conv_lhs => rw [et]
      exact q3.2

end Sys2Proof.Machine

/-! O13. A boundary queues one new POSITION, whatever the order of the link and the composer. -/

namespace Sys2Proof.Machine

set_option Elab.async false

/-! ### A line that is not quiet -/

/-- On a line that is not quiet, with no deferral running, a change of the head starts nothing. -/
def Busy (l : Link) : Prop := l.quiet = false ∧ ∀ k, l.phase ≠ .deferring k

theorem headChanged_of_busy {s : State} (h : Busy s.link) : headChanged s = s := by
  obtain ⟨hq, hd⟩ := h
  have e : abandonDeferral s = s := by
    unfold abandonDeferral
    split
    · next k hk => exact absurd hk (hd k)
    all_goals rfl
  rw [headChanged, e, beginDeferral, if_neg (by simp [hq])]

theorem restartIfChanged_of_busy {before s : State} (h : Busy s.link) : restartIfChanged before s = s := by
  unfold restartIfChanged
  split
  · rfl
  · exact headChanged_of_busy h

theorem TxPhase.released_of_not_deferring {p : TxPhase} (h : ∀ k, p ≠ .deferring k) (k : Nat) : p.released ≠ .deferring k := by
  cases p with
  | deferring j => exact absurd rfl (h j)
  | sending f g => by_cases hf : f.kind = .position <;> simp [TxPhase.released, hf]
  | idle => simp [TxPhase.released]
  | jamming => simp [TxPhase.released]

theorem TxPhase.released_released (p : TxPhase) : p.released.released = p.released := by
  cases p with
  | sending f g => by_cases h : f.kind = .position <;> simp [TxPhase.released, h]
  | deferring k => rfl
  | idle => rfl
  | jamming => rfl

theorem TxPhase.released_report {f : TxFrame} (g : Bool) (h : f.kind = .report) :
    (TxPhase.sending f g).released = .sending f g := by simp [TxPhase.released, h]

theorem TxPhase.released_position {f : TxFrame} (g : Bool) (h : f.kind = .position) :
    (TxPhase.sending f g).released = .sending f true := by simp [TxPhase.released, h]

theorem TxPhase.released_silent {p : TxPhase} (h : ∀ f g, p ≠ .sending f g) : p.released = p := by
  cases p with
  | sending f g => exact absurd rfl (h f g)
  | deferring k => rfl
  | idle => rfl
  | jamming => rfl

/-! ### The two takers on such a line -/

theorem Busy.letGo {s : State} (h : Busy s.link) : Busy (letGo s).link := by
  rw [letGo_link]
  exact ⟨h.1, TxPhase.released_of_not_deferring h.2⟩

theorem composeBulletin_busy {s : State} (h : Busy s.link) :
    composeBulletin s
      = (positionCleared s).setLink
          { (positionCleared s).link with position := some (newPosition s), heldBack := false } := by
  rw [composeBulletin_eq]
  refine headChanged_of_busy ?_
  unfold positionCleared
  split
  · exact ⟨h.1, h.2⟩
  · exact ⟨h.letGo.1, h.letGo.2⟩

theorem composeBulletin_over {s : State} {p : TxFrame} (h : Busy s.link) (hp : s.link.position = some p) :
    (composeBulletin s).link
        = { s.link with
            position := some (newPosition s), heldBack := false, txDropped := bumpCounterBy 1 s.link.txDropped }
      ∧ hasFlag (composeBulletin s) .bulletinDropped = true := by
  have e : positionCleared s = dropPosition s := by rw [positionCleared, hp]; rfl
  rw [composeBulletin_busy h, e]
  exact ⟨rfl, hasFlag_setFlag_self ..⟩

theorem composeBulletin_alone {s : State} (h : Busy s.link) (hp : s.link.position = none) :
    (composeBulletin s).link
        = { s.link with phase := s.link.phase.released, position := some (newPosition s), heldBack := false }
      ∧ hasFlag (composeBulletin s) .bulletinDropped = hasFlag s .bulletinDropped := by
  have e : positionCleared s = letGo s := by rw [positionCleared, hp]; rfl
  rw [composeBulletin_busy h, e, State.setLink_link, letGo_link]
  have hf : (letGo s).flags = s.flags := (letGo_frame s).same .flags
  exact ⟨rfl, by unfold hasFlag; rw [State.setLink_flags, hf]⟩

/-- What every boundary does to the register and the REPORTs (R41, R48). -/
def Link.passed (fc : Word16) (l : Link) : Link :=
  { l with
    backoff := stepRegister l.backoff
    reports := l.reports.filter fun f => !f.expired fc
    txDropped := bumpCounterBy (l.reports.filter fun f => f.expired fc).length l.txDropped }

theorem settlePosition_busy {s : State} (h : Busy s.link) : Busy (settlePosition s).link := by
  unfold settlePosition letOldGo
  split
  · split
    · exact h
    · exact ⟨h.1, h.2⟩
  · split
    · split
      · exact h
      · exact h.letGo
    all_goals exact h

theorem linkBoundary_busy {s : State} (h : Busy s.link) :
    linkBoundary s = dropExpired (settlePosition (stepBackoff s)) := by
  have b : Busy (settlePosition (stepBackoff s)).link := settlePosition_busy ⟨h.1, h.2⟩
  exact restartIfChanged_of_busy ⟨b.1, b.2⟩

theorem linkBoundary_new {s : State} {p : TxFrame} (h : Busy s.link) (hp : s.link.position = some p)
    (hj : p.joined = s.time.fieldCount) :
    (linkBoundary s).link = s.link.passed s.time.fieldCount
      ∧ hasFlag (linkBoundary s) .bulletinDropped = hasFlag s .bulletinDropped := by
  rw [linkBoundary_busy h, settlePosition_of_new (s := stepBackoff s) hp hj]
  exact ⟨rfl, rfl⟩

theorem linkBoundary_old {s : State} {p : TxFrame} (h : Busy s.link) (hp : s.link.position = some p)
    (hj : p.joined ≠ s.time.fieldCount) :
    (linkBoundary s).link
        = Link.passed s.time.fieldCount
            { s.link with position := none, heldBack := false, txDropped := bumpCounterBy 1 s.link.txDropped }
      ∧ hasFlag (linkBoundary s) .bulletinDropped = true := by
  have e : settlePosition (stepBackoff s) = dropPosition (stepBackoff s) := by
    unfold settlePosition
    rw [show (stepBackoff s).link.position = some p from hp]
    exact if_neg hj
  rw [linkBoundary_busy h, e]
  exact ⟨rfl, hasFlag_setFlag_self ..⟩

theorem linkBoundary_alone {s : State} (h : Busy s.link) (hp : s.link.position = none) :
    ∃ p, (p = s.link.phase ∨ p = s.link.phase.released)
      ∧ (linkBoundary s).link = Link.passed s.time.fieldCount { s.link with phase := p }
      ∧ hasFlag (linkBoundary s) .bulletinDropped = hasFlag s .bulletinDropped := by
  have e : settlePosition (stepBackoff s) = letOldGo (stepBackoff s) := by
    unfold settlePosition
    rw [show (stepBackoff s).link.position = none from hp]
  rw [linkBoundary_busy h, e]
  unfold letOldGo
  split
  · split
    · exact ⟨s.link.phase, .inl rfl, rfl, rfl⟩
    · refine ⟨s.link.phase.released, .inr rfl, ?_, ?_⟩
      · rw [dropExpired_link, letGo_link, (letGo_frame (stepBackoff s)).same .time]
        rfl
      · have hf : (letGo (stepBackoff s)).flags = s.flags := (letGo_frame (stepBackoff s)).same .flags
        show (letGo (stepBackoff s)).flags.getLsbD _ = _
        rw [hf, hasFlag]
  all_goals exact ⟨s.link.phase, .inl rfl, rfl, rfl⟩

/-! ### Both orders -/

theorem bumpCounterBy_bumpCounterBy (j k n : Nat) : bumpCounterBy j (bumpCounterBy k n) = bumpCounterBy (k + j) n := by
  rw [bumpCounterBy_eq, bumpCounterBy_eq, bumpCounterBy_eq]
  omega

/-- How many frames a boundary drops: the expired REPORTs, and the waiting POSITION. -/
def droppedAt (fc : Word16) (l : Link) : Nat :=
  let expired := (l.reports.filter fun g => g.expired fc).length
  if l.position.isSome then expired + 1 else expired

/-- A link that both takers have settled on a line that is not quiet. -/
structure Settled (fc : Word16) (f : TxFrame) (a b : Link) : Prop where
  link : b = { a with
    phase := b.phase, position := some f, heldBack := false, backoff := stepRegister a.backoff
    reports := a.reports.filter fun g => !g.expired fc, txDropped := bumpCounterBy (droppedAt fc a) a.txDropped }
  phase : b.phase = a.phase ∨ b.phase = a.phase.released
  released : a.position = none → b.phase = a.phase.released

/-- What the two takers make of BULLETIN_DROPPED. -/
def Counted (a : Link) (before after : Bool) : Prop :=
  (a.position.isSome = true → after = true) ∧ (a.position = none → after = before)

theorem composed_then_linked {u v : State} (h : Busy u.link) (hv : v.link = (composeBulletin u).link)
    (ht : v.time = u.time) :
    Settled u.time.fieldCount (newPosition u) u.link (linkBoundary v).link
      ∧ hasFlag (linkBoundary v) .bulletinDropped = hasFlag v .bulletinDropped
      ∧ Counted u.link (hasFlag u .bulletinDropped) (hasFlag (composeBulletin u) .bulletinDropped) := by
  have hj : (newPosition u).joined = v.time.fieldCount := by rw [ht]; rfl
  have hx : v.time.fieldCount = u.time.fieldCount := by rw [ht]
  cases hp : u.link.position with
  | some p =>
    obtain ⟨e, hf⟩ := composeBulletin_over h hp
    rw [← hv] at e
    obtain ⟨k, hk⟩ := linkBoundary_new (s := v) (by rw [e]; exact h) (by rw [e]) hj
    rw [hx, e] at k
    refine ⟨⟨?_, .inl (by rw [k]; rfl), fun q => by rw [hp] at q; simp at q⟩, hk, fun _ => hf,
      fun q => by rw [hp] at q; simp at q⟩
    have hd : droppedAt u.time.fieldCount u.link = 1 + (u.link.reports.filter fun g => g.expired u.time.fieldCount).length := by
      unfold droppedAt
      rw [hp]
      exact Nat.add_comm _ _
    rw [k, hd, ← bumpCounterBy_bumpCounterBy]
    rfl
  | none =>
    obtain ⟨e, hf⟩ := composeBulletin_alone h hp
    rw [← hv] at e
    obtain ⟨k, hk⟩ := linkBoundary_new (s := v) (by rw [e]; exact ⟨h.1, TxPhase.released_of_not_deferring h.2⟩) (by rw [e]) hj
    rw [hx, e] at k
    refine ⟨⟨?_, .inr (by rw [k]; rfl), fun _ => by rw [k]; rfl⟩, hk, fun q => by rw [hp] at q; simp at q, fun _ => hf⟩
    have hd : droppedAt u.time.fieldCount u.link = (u.link.reports.filter fun g => g.expired u.time.fieldCount).length := by
      unfold droppedAt
      rw [hp]
      rfl
    rw [k, hd]
    rfl

theorem linked_then_composed {u v : State} (h : Busy v.link) (hu : u.link = (linkBoundary v).link) :
    Settled v.time.fieldCount (newPosition u) v.link (composeBulletin u).link
      ∧ (hasFlag u .bulletinDropped = hasFlag (linkBoundary v) .bulletinDropped →
          Counted v.link (hasFlag v .bulletinDropped) (hasFlag (composeBulletin u) .bulletinDropped)) := by
  cases hp : v.link.position with
  | some p =>
    have hd : droppedAt v.time.fieldCount v.link = 1 + (v.link.reports.filter fun g => g.expired v.time.fieldCount).length := by
      unfold droppedAt
      rw [hp]
      exact Nat.add_comm _ _
    by_cases hj : p.joined = v.time.fieldCount
    · obtain ⟨e, -⟩ := linkBoundary_new h hp hj
      rw [← hu] at e
      obtain ⟨k, hk⟩ := composeBulletin_over (s := u) (p := p) (by rw [e]; exact h) (by rw [e]; exact hp)
      rw [e] at k
      refine ⟨⟨?_, .inl (by rw [k]; rfl), fun q => by rw [hp] at q; simp at q⟩, fun _ => ⟨fun _ => hk,
        fun q => by rw [hp] at q; simp at q⟩⟩
      rw [k, hd, Nat.add_comm, ← bumpCounterBy_bumpCounterBy]
      rfl
    · obtain ⟨e, hf⟩ := linkBoundary_old h hp hj
      rw [← hu] at e
      obtain ⟨k, hk⟩ := composeBulletin_alone (s := u) (by rw [e]; exact h) (by rw [e]; rfl)
      rw [e] at k
      refine ⟨⟨?_, .inr (by rw [k]; rfl), fun q => by rw [hp] at q; simp at q⟩, fun hs => ⟨fun _ => ?_,
        fun q => by rw [hp] at q; simp at q⟩⟩
      · rw [k, hd, ← bumpCounterBy_bumpCounterBy]
        rfl
      · rw [hk, hs, hf]
  | none =>
    have hd : droppedAt v.time.fieldCount v.link = (v.link.reports.filter fun g => g.expired v.time.fieldCount).length := by
      unfold droppedAt
      rw [hp]
      rfl
    obtain ⟨p, hpp, e, hf⟩ := linkBoundary_alone h hp
    rw [← hu] at e
    have hr : p.released = v.link.phase.released := by
      obtain rfl | rfl := hpp
      · rfl
      · exact TxPhase.released_released _
    have hb : ∀ k, p ≠ .deferring k := by
      obtain rfl | rfl := hpp
      · exact h.2
      · exact TxPhase.released_of_not_deferring h.2
    obtain ⟨k, hk⟩ := composeBulletin_alone (s := u) (by rw [e]; exact ⟨h.1, hb⟩) (by rw [e]; exact hp)
    rw [e] at k
    have hph : (composeBulletin u).link.phase = v.link.phase.released := by rw [k]; exact hr
    refine ⟨⟨?_, .inr hph, fun _ => hph⟩, fun hs => ⟨fun q => by rw [hp] at q; simp at q, fun _ => ?_⟩⟩
    · rw [k, hd]
      rfl
    · rw [hk, hs, hf]

theorem waiting_filter_eq (fc : Word16) (l : List TxFrame) :
    (l.filter fun g => !g.expired fc) = l.filter fun g => elapsed g.joined fc < 25 := by
  refine List.filter_congr fun g _ => ?_
  rw [TxFrame.expired, ← decide_not, decide_eq_decide]
  exact Nat.not_le

theorem not_expired {g : TxFrame} {fc : Word16} (h : g.expired fc = false) : elapsed g.joined fc < 25 := by
  simpa [TxFrame.expired] using h

/-- What a settled link says about the line. -/
theorem Settled.line {fc : Word16} {f : TxFrame} {a b : Link} (h : Settled fc f a b) :
    (∀ g gone, a.phase = .sending g gone →
        (g.kind = .report → b.phase = .sending g gone)
          ∧ (g.kind = .position → a.position = none → g.joined ≠ fc → b.phase = .sending g true))
      ∧ ((∀ g gone, a.phase ≠ .sending g gone) → b.phase = a.phase) := by
  refine ⟨fun g gone hg => ⟨fun hk => ?_, fun hk hp _ => ?_⟩, fun hn => ?_⟩
  · obtain q | q := h.phase
    · rw [q, hg]
    · rw [q, hg, TxPhase.released_report gone hk]
  · rw [h.released hp, hg, TxPhase.released_position gone hk]
  · obtain q | q := h.phase
    · exact q
    · rw [q, TxPhase.released_silent hn]

/-- Settles O13: the run of the boundary about the link and the composer in their two orders. -/
theorem boundaryQueuesBulletin : Obligations.BoundaryQueuesBulletin := by
  unfold Obligations.BoundaryQueuesBulletin
  refine ⟨fun c s hr hm => ?_, fun c s hr hm hquiet hdef => ?_⟩
  · obtain ⟨t, u, v, e, hfc, ⟨hut, hpub, hhand, hreq, hstr⟩, hvt, horder⟩ := boundary_link hr hm
    have hju : (newPosition u).joined = s.time.fieldCount + 1 := by rw [newPosition, hut, hfc]
    have hjv : (newPosition u).joined = v.time.fieldCount := by rw [hju, hvt, hfc]
    have hv : v.time.fieldCount = s.time.fieldCount + 1 := by rw [hvt, hfc]
    refine ⟨t, e, ⟨newPosition u, u, rfl, rfl, hju, rfl, hut, hpub, hhand, hreq, hstr, ?_⟩, ?_⟩
    · obtain ⟨-, hvl, htl, -⟩ | ⟨-, -, htl, -⟩ := horder
      · rw [htl]
        exact linkBoundary_queued (by rw [hvl]; exact composeBulletin_queued u) hjv
      · rw [htl]
        exact composeBulletin_queued u
    · obtain ⟨cr, cs, nc, cn⟩ := composeBulletin_reports u
      obtain ⟨lr, ls, nl, hn, ln⟩ := linkBoundary_reports v
      rw [hv] at lr ls
      obtain ⟨hul, hvl, htl, -⟩ | ⟨hvl, hul, htl, -⟩ := horder
      · rw [hul] at cr cs cn
        rw [hvl] at lr ls ln
        refine ⟨fun g hg => ?_, fun g gone hg hk => ?_, nc + nl, hn.trans (Nat.le_add_left ..), ?_⟩
        · obtain ⟨h1, h2⟩ := lr g (htl ▸ hg)
          exact ⟨cr g h1, not_expired h2⟩
        · obtain h1 | ⟨h1, h2⟩ := ls g gone (htl ▸ hg) hk
          · exact .inl (cs g gone h1 hk)
          · exact .inr ⟨cr g h1, not_expired h2⟩
        · rw [htl, ln, cn, stepRegisterBy_add]
      · rw [hul] at cr cs cn
        rw [hvl] at lr ls ln
        refine ⟨fun g hg => ?_, fun g gone hg hk => ?_, nl + nc, hn.trans (Nat.le_add_right ..), ?_⟩
        · obtain ⟨h1, h2⟩ := lr g (cr g (htl ▸ hg))
          exact ⟨h1, not_expired h2⟩
        · obtain h1 | ⟨h1, h2⟩ := ls g gone (cs g gone (htl ▸ hg) hk) hk
          · exact .inl h1
          · exact .inr ⟨h1, not_expired h2⟩
        · rw [htl, cn, ln, stepRegisterBy_add]
  · obtain ⟨t, u, v, e, hfc, ⟨hut, -⟩, hvt, horder⟩ := boundary_link hr hm
    have hju : (newPosition u).joined = s.time.fieldCount + 1 := by rw [newPosition, hut, hfc]
    have hbusy : Busy s.link := ⟨hquiet, hdef⟩
    have key : Settled (s.time.fieldCount + 1) (newPosition u) s.link t.link
        ∧ Counted s.link (hasFlag s .bulletinDropped) (hasFlag t .bulletinDropped) := by
      obtain ⟨hul, hvl, htl, fu, fv, ft⟩ | ⟨hvl, hul, htl, fv, fu, ft⟩ := horder
      · obtain ⟨h1, h2, h3⟩ := composed_then_linked (by rw [hul]; exact hbusy) hvl (hvt.trans hut.symm)
        rw [hul, hut, hfc, ← htl] at h1
        rw [hul, fu, ← fv, ← h2, ← ft] at h3
        exact ⟨h1, h3⟩
      · obtain ⟨h1, h2⟩ := linked_then_composed (v := v) (by rw [hvl]; exact hbusy) hul
        have h3 := h2 fu
        rw [hvl, hvt, hfc, ← htl] at h1
        rw [hvl, fv, ← ft] at h3
        exact ⟨h1, h3⟩
    obtain ⟨hset, hcount⟩ := key
    have hlink := hset.link
    rw [waiting_filter_eq, bumpCounterBy_eq] at hlink
    exact ⟨t, newPosition u, e, hlink, rfl, hju, rfl, hcount.1, hcount.2, hset.line⟩

end Sys2Proof.Machine

/-! SUPPORT, O17 and O18. The timecode word: its delivery, its label, and the word with and without a candidate held. -/

namespace Sys2Proof.Machine

set_option Elab.async false

/-! ### Labels and counts -/

theorem labelValid_iff (x : Standard) (l : Label) :
    labelValid x l = true
      ↔ l.hours ≤ 23 ∧ l.minutes ≤ 59 ∧ l.seconds ≤ 59 ∧ l.frames < if x = .f25 then 25 else 30 := by
  have hrate : x.labelRate = if x = .f25 then 25 else 30 := by cases x <;> rfl
  simp [labelValid, hrate, and_assoc]

theorem labelOmitted_iff (x : Standard) (l : Label) :
    labelOmitted x l = true ↔ x = .f30df ∧ l.seconds = 0 ∧ l.frames ≤ 1 ∧ l.minutes % 10 ≠ 0 := by
  simp [labelOmitted, and_assoc]

theorem labelCount_of_plain {x : Standard} (h : x ≠ .f30df) (l : Label) :
    labelCount x l = (if x = .f25 then 25 else 30) * labelSeconds l + l.frames := by
  cases x with
  | f30df => exact absurd rfl h
  | f25 => rfl
  | f30nd => rfl
  | f30 => rfl

/-- The two frames dropped in each minute not divisible by 10 make up the difference to the plain count (R7). -/
theorem labelCount_of_drop (l : Label) :
    labelCount .f30df l + 2 * (60 * l.hours + l.minutes - (60 * l.hours + l.minutes) / 10)
      = 30 * labelSeconds l + l.frames := by
  unfold labelCount labelSeconds
  dsimp only
  omega

/-! ### The word -/

theorem exec_timecodeWord (label : Label) (backward : Bool) (s : State) :
    exec (.timecodeWord label backward) s = inRun (timecodeWord label backward) s := rfl

theorem wordsDelivered_iff (s : State) :
    wordsDelivered s = true
      ↔ isDeck s = true ∧ s.pins.threaded = true ∧ 32 ≤ s.pos.published.motion.natAbs
        ∧ s.pos.published.motion.natAbs ≤ 4096 := by
  simp [wordsDelivered, and_assoc]

theorem timecodeWord_undelivered {label : Label} {backward : Bool} {s : State} (h : wordsDelivered s = false) :
    timecodeWord label backward s = s := by simp [timecodeWord, h]

theorem timecodeWord_rejected {label : Label} {backward : Bool} {s : State} (h : wordsDelivered s = true)
    (hl : labelValid (std s) label = false ∨ labelOmitted (std s) label = true) :
    timecodeWord label backward s = bumpRejects s := by
  have hbad : (labelValid (std s) label && !labelOmitted (std s) label) = false := by
    obtain hl | hl := hl
    · rw [hl, Bool.false_and]
    · rw [hl, Bool.not_true, Bool.and_false]
  rw [timecodeWord, if_pos h, hbad]
  rfl

theorem timecodeWord_valid {label : Label} {backward : Bool} {s : State} (h : wordsDelivered s = true)
    (hv : labelValid (std s) label = true) (ho : labelOmitted (std s) label = false) :
    timecodeWord label backward s = takeWord (labelCount (std s) label) backward s := by
  rw [timecodeWord, if_pos h, hv, ho]
  rfl

theorem judgeWord_near {c : Nat} {backward : Bool} {s : State}
    (h : (signedDiff (std s) (wordPosition (std s) c backward) s.pos.held).natAbs ≤ 1024) :
    judgeWord c backward s = trimTo (wordPosition (std s) c backward) s := if_pos h

theorem judgeWord_far {c : Nat} {backward : Bool} {s : State}
    (h : 1024 < (signedDiff (std s) (wordPosition (std s) c backward) s.pos.held).natAbs) :
    judgeWord c backward s
      = s.setPos
          { s.pos with candidate := some { count := c, backward := backward, arrival := s.time.fieldCount } } :=
  if_neg (Nat.not_le.mpr h)

theorem takeWord_alone {c : Nat} {backward : Bool} {s : State} (h : s.pos.candidate = none) :
    takeWord c backward s = judgeWord c backward s := by rw [takeWord, h]

/-- Settles O17: the label's arithmetic, then the word that is not delivered, rejected, a trim or the candidate. -/
theorem timecodeWordWithoutCandidate : Obligations.TimecodeWordWithoutCandidate := by
  unfold Obligations.TimecodeWordWithoutCandidate
  refine ⟨fun x l => ⟨labelValid_iff x l, labelOmitted_iff x l, fun h => labelCount_of_plain h l, ?drop, rfl⟩,
    fun label backward s hr => ⟨fun h => ?undelivered, fun hd ht hlo hhi hl => ?rejected⟩,
    fun label backward s hr hd hv ho hc => ⟨fun h => ?trim, fun h => ?candidate⟩⟩
  case drop =>
    rintro rfl
    exact labelCount_of_drop l
  case undelivered =>
    have hd : wordsDelivered s = false := by rwa [← wordsDelivered_iff, Bool.not_eq_true] at h
    rw [exec_timecodeWord, inRun_of_running _ hr, timecodeWord_undelivered hd]
  case rejected =>
    have hd : wordsDelivered s = true := (wordsDelivered_iff s).mpr ⟨hd, ht, hlo, hhi⟩
    rw [exec_timecodeWord, inRun_of_running _ hr, timecodeWord_rejected hd hl, bumpRejects]
  case trim =>
    rw [exec_timecodeWord, inRun_of_running _ hr, timecodeWord_valid hd hv ho, takeWord_alone hc, judgeWord_near h]
    rfl
  case candidate =>
    rw [exec_timecodeWord, inRun_of_running _ hr, timecodeWord_valid hd hv ho, takeWord_alone hc, judgeWord_far h]

/-! ### The word that meets a candidate -/

theorem confirms_iff (x : Standard) (k : Candidate) (c : Nat) (backward : Bool) (fc : Word16) :
    confirms x k c backward fc = true
      ↔ k.backward = backward
        ∧ c = (if backward then (k.count + x.fpd - 1) % x.fpd else (k.count + 1) % x.fpd)
        ∧ elapsed k.arrival fc ≤ 3 := by
  unfold confirms prevCount nextCount
  rw [Bool.and_eq_true, Bool.and_eq_true, decide_eq_true_iff, decide_eq_true_iff, decide_eq_true_iff, and_assoc]

/-- A jam moves the position and sets TC_JUMP where the quality was usable. -/
theorem jamTo_eq (x : Nat) (s : State) :
    jamTo x s
      = (s.setPos
          { s.pos with
            held := x, quality := .ltc, adopted := true, jammed := true, silent := 0, candidate := none
            jams := bumpCounter s.pos.jams
            record := { s.pos.record with position := x, quality := .ltc, jammed := true } }).setFlags
          (if s.pos.quality = .tach ∨ s.pos.quality = .ltc then s.flags ||| Flag.tcJump.mask else s.flags) := by
  unfold jamTo jumpFlag
  split <;> rfl

theorem takeWord_confirmed {c : Nat} {backward : Bool} {k : Candidate} {s : State} (h : s.pos.candidate = some k)
    (hk : confirms (std s) k c backward s.time.fieldCount = true) :
    takeWord c backward s = jamTo (wordPosition (std s) c backward) s := by
  rw [takeWord, h]
  exact if_pos hk

theorem takeWord_discarded {c : Nat} {backward : Bool} {k : Candidate} {s : State} (h : s.pos.candidate = some k)
    (hk : ¬confirms (std s) k c backward s.time.fieldCount = true) :
    takeWord c backward s = judgeWord c backward (discardCandidate s) := by
  rw [takeWord, h]
  exact if_neg hk

theorem expireCandidate_old {k : Candidate} {s : State} (h : s.pos.candidate = some k)
    (hk : 4 ≤ elapsed k.arrival s.time.fieldCount) : expireCandidate s = discardCandidate s := by
  rw [expireCandidate, h]
  exact if_pos hk

/-- Settles O18: the word confirms the candidate, or discards it and is judged as one that met none; and the two limits. -/
theorem timecodeWordMeetsCandidate : Obligations.TimecodeWordMeetsCandidate := by
  unfold Obligations.TimecodeWordMeetsCandidate
  refine ⟨fun label backward k s hr hd hv ho hc => ⟨fun hb hn he => ?jam, fun h => ?discard⟩,
    fun k s hr hc he => ?expiry, fun s hr hq hs => ?silence⟩
  case jam =>
    have hk := (confirms_iff (std s) k _ backward s.time.fieldCount).mpr ⟨hb, hn, he⟩
    rw [exec_timecodeWord, inRun_of_running _ hr, timecodeWord_valid hd hv ho, takeWord_confirmed hc hk, jamTo_eq]
    rfl
  case discard =>
    have hk := (confirms_iff (std s) k _ backward s.time.fieldCount).not.mpr h
    have hd' : wordsDelivered (discardCandidate s) = true := hd
    show _ = exec (.timecodeWord label backward) (discardCandidate s)
    rw [exec_timecodeWord, exec_timecodeWord, inRun_of_running _ hr, inRun_of_running (s := discardCandidate s) _ hr,
      timecodeWord_valid hd hv ho, takeWord_discarded hc hk, timecodeWord_valid hd' hv ho, takeWord_alone rfl]
    rfl
  case expiry =>
    show inRun expireCandidate s = _
    rw [inRun_of_running _ hr, expireCandidate_old hc he]
    rfl
  case silence =>
    show inRun expireSilence s = _
    rw [inRun_of_running _ hr, expireSilence, if_pos ⟨hq, Nat.le_of_eq hs.symm⟩]

end Sys2Proof.Machine

/-! SUPPORT. A record that is broken or kept, command by command: the transport's operations with their effect on the
lines, the cues and the sticky flags (R95, R96, R149). -/

namespace Sys2Proof.Machine

set_option Elab.async false

/-! ### A state from the parts that a change writes -/

/-- The GPI Unit is the same when its inputs and its outputs are. -/
theorem Frame.gpi {w : List Part} {s t : State} (h : Frame w s t) (hi : Part.inputs ∉ w := by simp)
    (ho : Part.outputs ∉ w := by simp) : t.gpi = s.gpi := by
  have a : t.gpi.inputs = s.gpi.inputs := h _ hi
  have b : t.gpi.outputs = s.gpi.outputs := h _ ho
  cases ht : t.gpi
  cases hs : s.gpi
  rw [ht, hs] at a b
  exact congrArg₂ Gpi.mk a b

/-- The Cue Engine is the same when its list and its samples are. -/
theorem Frame.cueEngine {w : List Part} {s t : State} (h : Frame w s t) (hc : Part.cues ∉ w := by simp)
    (hs : Part.samples ∉ w := by simp) : t.cues = s.cues := by
  have a : t.cues.list = s.cues.list := h _ hc
  obtain ⟨b, c⟩ : t.cues.ownSample = s.cues.ownSample ∧ t.cues.leadSample = s.cues.leadSample := h _ hs
  cases ht : t.cues
  cases hs : s.cues
  rw [ht, hs] at a b c
  dsimp only at a b c
  rw [a, b, c]

/-- What a change of the transport, the lines, the cues and the flags says of itself. -/
theorem Frame.self_record {s t : State} (h : Frame [.transport, .lines, .cues, .samples, .flags] s t) :
    t = ((s.setTr t.tr).setCues t.cues).setFlags t.flags :=
  State.eq_of_fields (h.same .power) (h.same .straps) (h.same .pins) (h.same .time) (h.same .pos) (h.same .peers)
    (h.same .req) (h.same .link) rfl (h.same .chase) rfl (h.same .fader) (h.same .mix) h.gpi (h.same .marks) rfl
    (h.same .choices) (h.same .pending)

theorem Frame.self_line {s t : State} (h : Frame [.pins, .transport, .lines, .cues, .samples, .flags] s t) :
    t = (((s.setPins t.pins).setTr t.tr).setCues t.cues).setFlags t.flags :=
  State.eq_of_fields (h.same .power) (h.same .straps) rfl (h.same .time) (h.same .pos) (h.same .peers)
    (h.same .req) (h.same .link) rfl (h.same .chase) rfl (h.same .fader) (h.same .mix) h.gpi (h.same .marks) rfl
    (h.same .choices) (h.same .pending)

theorem Frame.self_deck {s t : State}
    (h : Frame [.pins, .transport, .lines, .pos, .chase, .cues, .samples, .flags] s t) :
    t = (((((s.setPins t.pins).setTr t.tr).setPos t.pos).setChase t.chase).setCues t.cues).setFlags t.flags :=
  State.eq_of_fields (h.same .power) (h.same .straps) rfl (h.same .time) rfl (h.same .peers)
    (h.same .req) (h.same .link) rfl rfl rfl (h.same .fader) (h.same .mix) h.gpi (h.same .marks) rfl
    (h.same .choices) (h.same .pending)

/-! ### Breaking a record -/

/-- The record's lines, the cues, the field and the record's flag are the same. -/
structure RecordSame (s u : State) : Prop where
  punch : u.tr.punch = s.tr.punch
  cues : u.cues = s.cues
  field : u.time.fieldCount = s.time.fieldCount
  flag : hasFlag u .cueAborted = hasFlag s .cueAborted

theorem RecordSame.refl (s : State) : RecordSame s s := ⟨rfl, rfl, rfl, rfl⟩

theorem RecordSame.trans {s u v : State} (h : RecordSame s u) (k : RecordSame u v) : RecordSame s v :=
  ⟨k.punch.trans h.punch, k.cues.trans h.cues, k.field.trans h.field, k.flag.trans h.flag⟩

theorem RecordSame.symm {s u : State} (h : RecordSame s u) : RecordSame u s :=
  ⟨h.punch.symm, h.cues.symm, h.field.symm, h.flag.symm⟩

theorem RecordSame.activeRecord {s u : State} (h : RecordSame s u) : Machine.activeRecord u = Machine.activeRecord s := by
  unfold Machine.activeRecord; rw [h.cues]

theorem RecordBroken.congr {s s' t t' : State} (h : RecordBroken s t) (hs : RecordSame s s')
    (hp : t'.tr.punch = t.tr.punch) (hc : t'.cues = t.cues)
    (hf : hasFlag t' .cueAborted = hasFlag t .cueAborted) : RecordBroken s' t' := by
  obtain ⟨h1, h2, h3, h4, h5⟩ := h
  refine ⟨hp.trans h1, ?_, ?_, fun k => ?_, fun k => ?_⟩
  · unfold Machine.activeRecord at *; rw [hc]; exact h2
  · rw [hc, h3, hs.cues, hs.field]
  · rw [hf]; exact h4 (hs.activeRecord ▸ k)
  · rw [hf, hs.flag]; exact h5 (hs.activeRecord ▸ k)

theorem RecordKept.congr {s s' t t' : State} (h : RecordKept s t) (hp : s'.tr.punch = s.tr.punch)
    (hc : s'.cues = s.cues) (hf : s'.flags = s.flags) (hp' : t'.tr.punch = t.tr.punch) (hc' : t'.cues = t.cues)
    (hf' : t'.flags = t.flags) : RecordKept s' t' := by
  obtain ⟨h1, h2, h3⟩ := h
  exact ⟨by rw [hp', h1, hp], by rw [hc', h2, hc], by rw [hf', h3, hf]⟩

theorem map_not_recording {cs : List Cue} (f : Cue → Cue) (h : cs.find? Cue.recording = none) :
    (cs.map fun c => if c.recording then f c else c) = cs := by
  rw [List.find?_eq_none] at h
  refine (List.map_congr_left fun c hc => ?_).trans (List.map_id cs)
  rw [if_neg (h c hc)]
  rfl

/-- Aborting the ACTIVE RECORD cue, if there is one. -/
theorem abortActiveRecord_cues (s : State) :
    (abortActiveRecord s).cues
      = { s.cues with
          list := s.cues.list.map fun c => if c.recording then
            { c with state := .aborted, finish := some s.time.fieldCount } else c } := by
  unfold abortActiveRecord
  split
  · rfl
  · next h => rw [map_not_recording _ (by simpa [Machine.activeRecord] using h)]

theorem abortActiveRecord_idle {s : State} (h : activeRecord s = none) : abortActiveRecord s = s := by
  simp [abortActiveRecord, h]

theorem abortActiveRecord_cueAborted {s : State} (h : (activeRecord s).isSome = true) :
    hasFlag (abortActiveRecord s) .cueAborted = true := by
  rw [abortActiveRecord, if_pos h]
  exact hasFlag_setFlag_self _ _

theorem abortActiveRecord_tr (s : State) : (abortActiveRecord s).tr = s.tr := (abortActiveRecord_frame s).tr

theorem breakRecord_kept {s : State} (h : s.tr.punch = none ∨ transportState s = .play) : breakRecord s = s := by
  obtain ⟨hplay, hnone, -⟩ := breakRecord_spec s
  exact h.elim hnone hplay

theorem breakRecord_out {s : State} (hp : s.tr.punch.isSome = true) (h : transportState s ≠ .play) :
    breakRecord s = abortActiveRecord (punchOut s) := by
  rw [breakRecord, if_pos (by simp [hp, h])]

theorem recordBroken_out (s : State) : RecordBroken s (abortActiveRecord (punchOut s)) := by
  refine ⟨?_, abortActiveRecord_none _, abortActiveRecord_cues _, fun h => abortActiveRecord_cueAborted h, fun h => ?_⟩
  · rw [abortActiveRecord_tr]; rfl
  · rw [abortActiveRecord_idle (s := punchOut s) h]; rfl

/-- A record that meets a change to u: broken where the state of u is not PLAY, else kept. -/
theorem breakRecord_broken {s u : State} (h : RecordSame s u) (hp : s.tr.punch.isSome = true)
    (hs : transportState u ≠ .play) : RecordBroken s (breakRecord u) := by
  rw [breakRecord_out (by rw [h.punch]; exact hp) hs]
  exact (recordBroken_out u).congr h.symm rfl rfl rfl

theorem breakRecord_keeps {s u : State} (h : RecordSame s u) (hf : u.flags = s.flags)
    (hs : s.tr.punch = none ∨ transportState u = .play) : RecordKept s (breakRecord u) := by
  rw [breakRecord_kept (by rwa [h.punch])]
  exact ⟨h.punch, h.cues, hf⟩

/-- `breakRecord` writes the lines, the cues and the flags. -/
theorem breakRecord_eq (s : State) :
    breakRecord s
      = ((s.setTr { s.tr with punch := (breakRecord s).tr.punch }).setCues (breakRecord s).cues).setFlags
          (breakRecord s).flags := by
  obtain ⟨p, b, c, e⟩ := breakRecord_touches s
  rw [e]
  rfl

theorem breakRecord_state (s : State) : transportState (breakRecord s) = transportState s :=
  transportState_congr ((breakRecord_frame s).same .straps) ((breakRecord_frame s).same .pins)
    ((breakRecord_frame s).same .transport)

theorem breakRecord_tr (s : State) : (breakRecord s).tr = { s.tr with punch := (breakRecord s).tr.punch } :=
  (breakRecord_frame s).same .transport

theorem breakRecord_released {s : State} (h : transportState s ≠ .play) : (breakRecord s).tr.punch = none := by
  rw [breakRecord_punch, if_neg h]

theorem breakRecord_flag {f : Flag} (s : State) (h : f ≠ .cueAborted) : hasFlag (breakRecord s) f = hasFlag s f := by
  obtain ⟨-, -, -, -, -, hf⟩ := breakRecord_spec s
  exact hf f h

/-! ### Commands -/

/-- The transport with a command taken, before a record is judged (R87). -/
def commanded (c : Command) (s : State) : State :=
  s.setTr { s.tr with command := c, locate := none, parkedMark := markAfter s.tr.parkedMark c }

theorem takeCommand_ready {c : Command} {s : State} (h : deckReady s = true) :
    takeCommand c s = breakRecord (commanded c s) := if_pos h

theorem commanded_same (c : Command) (s : State) : RecordSame s (commanded c s) := ⟨rfl, rfl, rfl, rfl⟩

/-- A deck that takes commands: in LOCATING with a locate, else in the state of its drive. -/
theorem transportState_ready {s : State} (h : deckReady s = true) :
    transportState s
      = if s.tr.locate.isSome then .locating else driveState s.tr.parkedMark (eotDrive s.pins.eot s.tr.command) := by
  obtain ⟨hrole, ht, hl⟩ : role s ≠ .live ∧ s.pins.threaded = true ∧ s.pins.localOn = false := by
    simpa [deckReady, isDeck, and_assoc] using h
  simp [transportState, hrole, ht, hl]

theorem deckReady_iff (s : State) :
    deckReady s = true ↔ role s ≠ .live ∧ s.pins.threaded = true ∧ s.pins.localOn = false := by
  simp [deckReady, isDeck, and_assoc]

theorem deckReady_congr {s t : State} (hz : t.straps = s.straps) (hp : t.pins = s.pins) : deckReady t = deckReady s := by
  unfold deckReady; rw [isDeck_congr hz, hp]

theorem not_ready_state {s : State} (h : deckReady s = false) : transportState s ≠ .play := by
  unfold transportState
  split
  · simp
  · next hrole =>
    split
    · simp
    · next ht =>
      split
      · simp
      · next hl =>
        have : deckReady s = true := (deckReady_iff s).mpr ⟨hrole, by simpa using ht, by simpa using hl⟩
        rw [h] at this
        cases this

/-- In STOP no deck is in PLAY (R82). -/
theorem stopped_not_play {s : State} (hl : s.tr.locate = none) (hc : s.tr.command = .stop) : transportState s ≠ .play := by
  cases h : deckReady s with
  | false => exact not_ready_state h
  | true =>
    have hd : eotDrive s.pins.eot .stop = .stop := by simp [eotDrive]
    rw [transportState_ready h, hl, hc, hd, Option.isSome_none, if_neg (by simp), driveState]
    split <;> simp

theorem commanded_stop_state (s : State) : transportState (commanded .stop s) ≠ .play := stopped_not_play rfl rfl

/-! ### Locates -/

/-- The locate that a locate command leaves running (R89, R91). -/
def locateGiven (skips : Option Word16) (target : Nat) (s : State) : Locate :=
  match s.tr.locate with
  | some l => l.retarget skips target
  | none => Locate.start skips target s.pos.record.quality s.tr.command

/-- The transport with a locate started, before a record is judged (R91). -/
def located (skips : Option Word16) (target : Nat) (s : State) : State :=
  s.setTr
    { s.tr with
      locate := some (Locate.start skips target s.pos.record.quality s.tr.command), parkedMark := false }

theorem giveLocate_start {skips : Option Word16} {target : Nat} {s : State} (h : deckReady s = true)
    (hl : s.tr.locate = none) : giveLocate skips target s = breakRecord (located skips target s) := by
  rw [giveLocate, if_pos h, hl]
  rfl

theorem giveLocate_retarget {skips : Option Word16} {target : Nat} {l : Locate} {s : State} (h : deckReady s = true)
    (hl : s.tr.locate = some l) :
    giveLocate skips target s = s.setTr { s.tr with locate := some (l.retarget skips target) } := by
  rw [giveLocate, if_pos h, hl]

theorem giveLocate_of_not_ready {skips : Option Word16} {target : Nat} {s : State} (h : deckReady s = false) :
    giveLocate skips target s = s := by simp [giveLocate, h]

theorem located_same (skips : Option Word16) (target : Nat) (s : State) : RecordSame s (located skips target s) :=
  ⟨rfl, rfl, rfl, rfl⟩

theorem located_state {skips : Option Word16} {target : Nat} {s : State} (h : deckReady s = true) :
    transportState (located skips target s) = .locating := by
  rw [transportState_ready (s := located skips target s) h]
  rfl

end Sys2Proof.Machine

/-! O19. The fall and the rise of THREADED and of LOCAL. -/

namespace Sys2Proof.Machine

set_option Elab.async false

theorem exec_threadedChange (level : Bool) (s : State) : exec (.threadedChange level) s = .next (threadedChange level s) := rfl

theorem exec_localChange (level : Bool) (s : State) : exec (.localChange level) s = .next (localChange level s) := rfl

/-! ### The operations of the lines -/

/-- A locate that fails, where one runs (R83, R93). -/
theorem failLocate_none {s : State} (h : s.tr.locate = none) : failLocate s = s := by rw [failLocate, h]

theorem failLocate_some {l : Locate} {s : State} (h : s.tr.locate = some l) : failLocate s = locateFail l s := by
  rw [failLocate, h]

theorem locateFail_flag (l : Locate) (s : State) : hasFlag (locateFail l s) .locateFail = true := hasFlag_setFlag_self _ _

theorem locateFail_other {f : Flag} (l : Locate) (s : State) (h : f ≠ .locateFail) :
    hasFlag (locateFail l s) f = hasFlag s f := by
  rw [locateFail, hasFlag_setFlag_other _ h, noteParkEnd_touches]
  rfl

theorem locateFail_tr (l : Locate) (s : State) :
    (locateFail l s).tr = { s.tr with command := .stop, locate := none, parkedMark := false } := by
  rw [locateFail_touches]
  rfl

theorem locateFail_same (l : Locate) (s : State) : RecordSame s (locateFail l s) := by
  refine ⟨by rw [locateFail_tr], ?_, ?_, locateFail_other l s (by simp)⟩
  · rw [locateFail_touches]; rfl
  · rw [locateFail_touches]; rfl

theorem locateFail_chase (l : Locate) (s : State) :
    (locateFail l s).chase = if s.chase.parkFrame = some l.target then { s.chase with parkDone := true } else s.chase := by
  rw [locateFail_touches]
  rfl

theorem failLocate_same (s : State) : RecordSame s (failLocate s) := by
  cases h : s.tr.locate with
  | none => rw [failLocate_none h]; exact RecordSame.refl s
  | some l => rw [failLocate_some h]; exact locateFail_same l s

theorem failLocate_chase (s : State) :
    (failLocate s).chase.state = s.chase.state ∧ (failLocate s).chase.lead = s.chase.lead := by
  cases h : s.tr.locate with
  | none => rw [failLocate_none h]; exact ⟨rfl, rfl⟩
  | some l =>
    rw [failLocate_some h, locateFail_chase]
    split <;> exact ⟨rfl, rfl⟩

theorem failLocate_armed (s : State) : (failLocate s).tr.armed = s.tr.armed := by
  cases h : s.tr.locate with
  | none => rw [failLocate_none h]
  | some l => rw [failLocate_some h, locateFail_tr]

/-- The transport as the controller loses the deck, before a record is judged (R83, R84). -/
def dropped (s : State) : State := s.setTr { s.tr with command := .stop, parkedMark := false, locate := none }

theorem dropDeck_eq (s : State) : dropDeck s = breakRecord (dropped s) := rfl

theorem dropped_same (s : State) : RecordSame s (dropped s) := ⟨rfl, rfl, rfl, rfl⟩

theorem dropped_state (s : State) : transportState (dropped s) ≠ .play := stopped_not_play rfl rfl

theorem dropDeck_tr (s : State) :
    (dropDeck s).tr = { s.tr with command := .stop, parkedMark := false, locate := none, punch := none } := by
  rw [dropDeck_eq, breakRecord_tr, breakRecord_released (dropped_state s)]
  rfl

theorem dropDeck_broken {s u : State} (h : RecordSame s u) (hp : s.tr.punch.isSome = true) :
    RecordBroken s (dropDeck u) := breakRecord_broken (h.trans (dropped_same u)) hp (dropped_state u)

theorem dropDeck_idle {s : State} (h : s.tr.punch = none) : dropDeck s = dropped s := breakRecord_kept (.inl h)

theorem dropDeck_flag {f : Flag} (s : State) (h : f ≠ .cueAborted) : hasFlag (dropDeck s) f = hasFlag s f :=
  breakRecord_flag (dropped s) h

theorem quietPort_released {s : State} (h : drive s = none) : quietPort s = stopSpeedWord s := by
  simp [quietPort, h]

/-- A running deck in LOCAL has its port released (R79). -/
theorem drive_local {s : State} (hr : Running s) (ht : s.pins.threaded = true) (hl : s.pins.localOn = true) :
    drive s = none := by
  unfold drive
  rw [hr, ht, hl]
  simp

theorem speedWordChars_unsent {s : State} (h : s.tr.speedSent = false) : speedWordChars s = [] := by
  simp [speedWordChars, h]

/-! ### The changes -/

theorem threadedChange_of_change {level : Bool} {s : State} (hr : Running s) (hd : isDeck s = true)
    (h : s.pins.threaded ≠ level) :
    threadedChange level s = threadedTaken level (s.setPins { s.pins with threaded := level }) := if_pos ⟨hr, hd, h⟩

theorem threadedChange_of_same (s : State) : threadedChange s.pins.threaded s = s := by simp [threadedChange]; rfl

theorem threadedChange_of_live {level : Bool} {s : State} (h : isDeck s = false) :
    threadedChange level s = s.setPins { s.pins with threaded := level } := by simp [threadedChange, h]

theorem localChange_of_change {level : Bool} {s : State} (hr : Running s) (hd : isDeck s = true)
    (ht : s.pins.threaded = true) (h : s.pins.localOn ≠ level) :
    localChange level s = localTaken level (s.setPins { s.pins with localOn := level }) := if_pos ⟨hr, hd, ht, h⟩

theorem localChange_of_same (s : State) : localChange s.pins.localOn s = s := by simp [localChange]; rfl

theorem localChange_of_live {level : Bool} {s : State} (h : isDeck s = false) :
    localChange level s = s.setPins { s.pins with localOn := level } := by simp [localChange, h]

theorem localChange_unthreaded {level : Bool} {s : State} (h : s.pins.threaded = false) :
    localChange level s = s.setPins { s.pins with localOn := level } := by simp [localChange, h]

/-- The station as THREADED has fallen. -/
theorem threaded_falls {s : State} (hd : isDeck s = true) (u : State)
    (hu : u = s.setPins { s.pins with threaded := false }) :
    let t := threadedTaken false u
    t.pins = u.pins ∧ transportState t = .offline ∧ t.tr.command = .stop ∧ t.tr.parkedMark = false
      ∧ t.tr.locate = none ∧ t.tr.punch = none ∧ t.tr.armed = s.tr.armed
      ∧ t.pos = { s.pos with quality := .none, candidate := none }
      ∧ (s.tr.locate.isSome = true → hasFlag t .locateFail = true)
      ∧ t.chase.state = s.chase.state ∧ t.chase.lead = s.chase.lead
      ∧ (s.tr.punch.isSome = true → RecordBroken s t)
      ∧ (s.tr.punch = none → t.cues = s.cues ∧ hasFlag t .cueAborted = hasFlag s .cueAborted)
      ∧ t = (((((s.setPins t.pins).setTr t.tr).setPos t.pos).setChase t.chase).setCues t.cues).setFlags t.flags := by
  intro t
  have et : t = loseTape (dropDeck (failLocate u)) := rfl
  have e0 : RecordSame s u := by subst hu; exact ⟨rfl, rfl, rfl, rfl⟩
  have esame : RecordSame s (failLocate u) := e0.trans (failLocate_same u)
  have frame := dropDeck_frame (failLocate u)
  have ff := failLocate_frame u
  have epins : (failLocate u).pins = u.pins := ff.same .pins
  have estraps : (failLocate u).straps = s.straps := Eq.trans (ff.same .straps) (by rw [hu]; rfl)
  have epos : (failLocate u).pos = s.pos := Eq.trans (ff.same .pos) (by rw [hu]; rfl)
  have hpins : t.pins = u.pins := by rw [et]; exact Eq.trans (frame.same .pins) epins
  have htr : t.tr = _ := dropDeck_tr (failLocate u)
  have hpos : t.pos = { s.pos with quality := .none, candidate := none } := by
    have hp : (dropDeck (failLocate u)).pos = s.pos := Eq.trans (frame.same .pos) epos
    rw [et, loseTape, hp]
    rfl
  have hchase : t.chase = (failLocate u).chase := frame.same .chase
  have hflag {f : Flag} (hf : f ≠ .cueAborted) : hasFlag t f = hasFlag (failLocate u) f := dropDeck_flag _ hf
  refine ⟨hpins, ?_, by rw [htr], by rw [htr], by rw [htr], by rw [htr], ?_, hpos, fun hl => ?_, ?_, ?_, fun hp => ?_,
    fun hp => ?_, ?_⟩
  · have hrole : role t ≠ .live := by
      have h1 : t.straps = s.straps := Eq.trans (frame.same .straps) estraps
      rw [role_congr h1]
      exact not_live_of_deck hd
    have ht : t.pins.threaded = false := by rw [hpins, hu]; rfl
    simp [transportState, hrole, ht]
  · rw [htr]
    exact (failLocate_armed u).trans (by rw [hu]; rfl)
  · rw [hflag (by simp)]
    obtain ⟨l, hl⟩ := Option.isSome_iff_exists.mp hl
    rw [failLocate_some (l := l) (by rw [hu]; exact hl)]
    exact locateFail_flag l u
  · rw [hchase, (failLocate_chase u).1, hu]; rfl
  · rw [hchase, (failLocate_chase u).2, hu]; rfl
  · exact (dropDeck_broken esame hp).congr (RecordSame.refl s) rfl rfl rfl
  · have hidle := dropDeck_idle (s := failLocate u) (by rw [esame.punch]; exact hp)
    rw [et, hidle]
    exact ⟨esame.cues, esame.flag⟩
  · have ft := threadedTaken_frame false u
    have fr : Frame [.pins] s u := hu ▸ setPins_frame s _
    exact Frame.self_deck ((fr.trans ft).mono (by simp [deckParts]))

/-- THREADED rises in LOCAL: the port is released (R79). -/
theorem threaded_rises_local {s : State} (hr : Running s) (hl : s.pins.localOn = true) :
    threadedTaken true (s.setPins { s.pins with threaded := true })
      = (s.setPins { s.pins with threaded := true }).setTr
          { s.tr with command := .stop, speedWord := 0, speedSent := false } :=
  quietPort_released
    (s := (s.setPins { s.pins with threaded := true }).setTr { s.tr with command := .stop }) (drive_local hr rfl hl)

theorem threaded_rises {s : State} (hr : Running s) (hd : isDeck s = true) (hl : s.pins.localOn = false) :
    threadedTaken true (s.setPins { s.pins with threaded := true })
      = (s.setPins { s.pins with threaded := true }).setTr { s.tr with command := .stop } :=
  if_pos ((drive_isSome ((s.setPins { s.pins with threaded := true }).setTr { s.tr with command := .stop })).mpr
    ⟨hr, hd, .inr hl⟩)

/-- The station as LOCAL has risen. -/
theorem local_rises {s : State} (hr : Running s) (hd : isDeck s = true) (ht : s.pins.threaded = true) (u : State)
    (hu : u = s.setPins { s.pins with localOn := true }) :
    let t := localTaken true u
    t.pins = u.pins ∧ transportState t = .localControl ∧ drive t = none ∧ t.tr.command = .stop
      ∧ t.tr.parkedMark = false ∧ t.tr.locate = none ∧ t.tr.punch = none
      ∧ hasFlag t .locateFail = hasFlag s .locateFail ∧ speedWordChars t = [] ∧ t.tr.armed = s.tr.armed
      ∧ (s.tr.punch.isSome = true → RecordBroken s t) ∧ (s.tr.punch = none → RecordKept s t)
      ∧ t = (((s.setPins t.pins).setTr t.tr).setCues t.cues).setFlags t.flags := by
  intro t
  have e0 : RecordSame s u := by subst hu; exact ⟨rfl, rfl, rfl, rfl⟩
  have frame := dropDeck_frame u
  have fr : Frame [.pins] s u := hu ▸ setPins_frame s _
  have hpower : (dropDeck u).power = s.power := Eq.trans (frame.same .power) (fr.same .power)
  have hstraps : (dropDeck u).straps = s.straps := Eq.trans (frame.same .straps) (fr.same .straps)
  have hpins : (dropDeck u).pins = u.pins := frame.same .pins
  have hthreaded : (dropDeck u).pins.threaded = true := by rw [hpins, hu]; exact ht
  have hlocal : (dropDeck u).pins.localOn = true := by rw [hpins, hu]; rfl
  have hrun : Running (dropDeck u) := by rw [Running, hpower]; exact hr
  have hdrive : drive (dropDeck u) = none := drive_local hrun hthreaded hlocal
  have et : t = stopSpeedWord (dropDeck u) := quietPort_released hdrive
  have htr : t.tr = { u.tr with
      command := .stop, parkedMark := false, locate := none, punch := none, speedWord := 0, speedSent := false } := by
    rw [et, stopSpeedWord, dropDeck_tr]
    rfl
  have hpt : t.pins = u.pins := by rw [et]; exact hpins
  refine ⟨hpt, ?_, drive_local (by rw [et]; exact hrun) (by rw [et]; exact hthreaded) (by rw [et]; exact hlocal),
    by rw [htr], by rw [htr], by rw [htr], by rw [htr], ?_, speedWordChars_unsent (by rw [htr]), ?_, fun hp => ?_,
    fun hp => ?_, ?_⟩
  · have hrole : role t ≠ .live := by
      rw [role_congr (show t.straps = s.straps by rw [et]; exact hstraps)]
      exact not_live_of_deck hd
    have ht' : t.pins.threaded = true := by rw [et]; exact hthreaded
    have hl' : t.pins.localOn = true := by rw [et]; exact hlocal
    simp [transportState, hrole, ht', hl']
  · rw [et]
    show hasFlag (dropDeck u) .locateFail = _
    rw [dropDeck_flag u (by simp), hu]
    rfl
  · rw [htr, hu]; rfl
  · rw [et]
    refine (dropDeck_broken e0 hp).congr (RecordSame.refl s) ?_ rfl rfl
    rw [← et, htr, dropDeck_tr]
  · have hidle := dropDeck_idle (s := u) (by rw [e0.punch]; exact hp)
    rw [et, hidle]
    refine ⟨?_, ?_, ?_⟩
    · exact e0.punch
    · exact e0.cues
    · rw [hu]; rfl
  · have f : Frame ([.pins] ++ [.transport, .lines, .cues, .flags] ++ [.transport, .lines]) s t := by
      rw [et]
      exact (fr.trans frame).trans (setTr_frame (dropDeck u) _)
    exact f.mono.self_line

/-- Settles O19: the changes of the two lines in turn, then the level that does not change and the station without a
deck. -/
theorem threadedAndLocalTaken : Obligations.ThreadedAndLocalTaken := by
  unfold Obligations.ThreadedAndLocalTaken
  refine ⟨fun s hr hd => ⟨fun ht => ?falls, fun ht hl => ?rises, fun ht hl => ?risesLocal⟩,
    fun s hr hd => ⟨fun ht hl => ?on, fun ht hl => ?off, fun level ht => ?unthreaded⟩,
    fun s hr => ⟨?sameThreaded, ?sameLocal, fun level hd => ⟨?liveThreaded, ?liveLocal⟩⟩⟩
  case falls =>
    refine ⟨_, ?_, threaded_falls hd _ rfl⟩
    rw [exec_threadedChange, threadedChange_of_change hr hd (by simp [ht])]
  case rises => rw [exec_threadedChange, threadedChange_of_change hr hd (by simp [ht]), threaded_rises hr hd hl]
  case risesLocal =>
    refine ⟨(s.setPins { s.pins with threaded := true }).setTr
      { s.tr with command := .stop, speedWord := 0, speedSent := false }, ?_, rfl, drive_local hr rfl hl,
      speedWordChars_unsent rfl, rfl⟩
    rw [exec_threadedChange, threadedChange_of_change hr hd (by simp [ht]), threaded_rises_local hr hl]
  case on =>
    refine ⟨_, ?_, local_rises hr hd ht _ rfl⟩
    rw [exec_localChange, localChange_of_change hr hd ht (by simp [hl])]
  case off =>
    rw [exec_localChange, localChange_of_change hr hd ht (by simp [hl])]
    rfl
  case unthreaded => rw [exec_localChange, localChange_unthreaded ht]
  case sameThreaded => rw [exec_threadedChange, threadedChange_of_same]
  case sameLocal => rw [exec_localChange, localChange_of_same]
  case liveThreaded => rw [exec_threadedChange, threadedChange_of_live hd]
  case liveLocal => rw [exec_localChange, localChange_of_live hd]

end Sys2Proof.Machine

/-! O20. The drive, the mode line and the transport state; EOT, SERVO and RECTALLY. -/

namespace Sys2Proof.Machine

set_option Elab.async false

/-! ### The drive of a running station -/

theorem live_of_isDeck {s : State} (h : isDeck s = false) : role s = .live := live_of_not_deck h

theorem deck_not_live {s : State} (h : isDeck s = true) : role s ≠ .live := not_live_of_deck h

theorem drive_live {s : State} (hr : Running s) (h : isDeck s = false) : drive s = none := by
  simp [drive, hr, live_of_isDeck h]

theorem drive_offline {s : State} (hr : Running s) (h : isDeck s = true) (ht : s.pins.threaded = false) :
    drive s = some .stop := by
  simp [drive, hr, deck_not_live h, ht]

theorem drive_ready {s : State} (hr : Running s) (h : deckReady s = true) :
    drive s = some (eotDrive s.pins.eot (wantedDrive s.tr)) := by
  obtain ⟨hrole, ht, hl⟩ := (deckReady_iff s).mp h
  simp [drive, hr, hrole, ht, hl]

theorem deckReady_of {s : State} (h : isDeck s = true) (ht : s.pins.threaded = true) (hl : s.pins.localOn = false) :
    deckReady s = true := (deckReady_iff s).mpr ⟨deck_not_live h, ht, hl⟩

theorem eotDrive_eq (eot : Bool) (c : Command) :
    eotDrive eot c
      = match c with
        | .speed v => if eot = true ∧ 0 < v then .stop else .speed v
        | .stop => .stop := by
  cases c with
  | stop => simp [eotDrive]
  | speed v => simp [eotDrive, Command.forward]

/-- A speed takes the mode line of its range (Table 6.2). -/
theorem modeLine_speed (v : Int) :
    (-768 ≤ v → v ≤ 768 → (Command.speed v).modeLine = .play) ∧ (768 < v → (Command.speed v).modeLine = .fwdWind)
      ∧ (v < -768 → (Command.speed v).modeLine = .revWind) := by
  refine ⟨fun h k => ?_, fun h => ?_, fun h => ?_⟩
  · simp [Command.modeLine, slowSpeed, h, k]
  · have h1 : slowSpeed v = false := by simp [slowSpeed]; omega
    have h2 : 0 < v := by omega
    simp [Command.modeLine, h1, h2]
  · have h1 : slowSpeed v = false := by simp [slowSpeed]; omega
    have h2 : ¬0 < v := by omega
    simp [Command.modeLine, h1, h2]

/-- A speed gives the transport state of its range (Table 6.3). -/
theorem driveState_speed (parked : Bool) (v : Int) :
    (192 ≤ v → v ≤ 320 → driveState parked (.speed v) = .play)
      ∧ (-768 ≤ v → v ≤ 768 → (v < 192 ∨ 320 < v) → driveState parked (.speed v) = .vari)
      ∧ ((768 < v ∨ v < -768) → driveState parked (.speed v) = .wind) := by
  refine ⟨fun h k => ?_, fun h k hv => ?_, fun h => ?_⟩
  · simp [driveState, playSpeed, h, k]
  · have h1 : playSpeed v = false := by simp [playSpeed]; omega
    simp [driveState, h1, slowSpeed, h, k]
  · have h1 : playSpeed v = false := by simp [playSpeed]; omega
    have h2 : slowSpeed v = false := by simp [slowSpeed]; omega
    simp [driveState, h1, h2]

/-- The drive, the mode line and the state of a deck that takes commands, range by range. -/
theorem drive_ranges {s : State} (hr : Running s) (h : deckReady s = true) :
    let asked := match s.tr.locate with | some l => l.drive | none => s.tr.command
    ∃ d, drive s = some d
      ∧ d = (match asked with
          | .speed v => if s.pins.eot = true ∧ 0 < v then .stop else .speed v
          | .stop => .stop)
      ∧ (d = .stop → modeLine s = some .stop)
      ∧ (∀ v, d = .speed v →
          (-768 ≤ v → v ≤ 768 → modeLine s = some .play) ∧ (768 < v → modeLine s = some .fwdWind)
            ∧ (v < -768 → modeLine s = some .revWind))
      ∧ (s.tr.locate.isSome = true → transportState s = .locating)
      ∧ (s.tr.locate = none → d = .stop →
          transportState s = if s.tr.parkedMark = true then .parked else .stopped)
      ∧ ∀ v, s.tr.locate = none → d = .speed v →
          (192 ≤ v → v ≤ 320 → transportState s = .play)
            ∧ (-768 ≤ v → v ≤ 768 → (v < 192 ∨ 320 < v) → transportState s = .vari)
            ∧ ((768 < v ∨ v < -768) → transportState s = .wind) := by
  intro asked
  have hd := drive_ready hr h
  have hm : modeLine s = some (eotDrive s.pins.eot (wantedDrive s.tr)).modeLine := by rw [modeLine, hd]; rfl
  have hst := transportState_ready h
  have hidle (hl : s.tr.locate = none) : transportState s = driveState s.tr.parkedMark (eotDrive s.pins.eot (wantedDrive s.tr)) := by
    rw [hst, wantedDrive, hl]
    rfl
  refine ⟨_, hd, eotDrive_eq _ _, fun e => ?_, fun v e => ?_, fun hl => ?_, fun hl e => ?_, fun v hl e => ?_⟩
  · rw [hm, e]; rfl
  · obtain ⟨h1, h2, h3⟩ := modeLine_speed v
    rw [hm, e]
    exact ⟨fun a b => congrArg some (h1 a b), fun a => congrArg some (h2 a), fun a => congrArg some (h3 a)⟩
  · rw [hst, if_pos hl]
  · rw [hidle hl, e]; rfl
  · rw [hidle hl, e]
    exact driveState_speed _ v

/-! ### EOT -/

theorem eotChange_deck {level : Bool} {s : State} (hr : Running s) (hd : isDeck s = true) :
    eotChange level s = breakRecord (s.setPins { s.pins with eot := level }) := if_pos ⟨hr, hd⟩

theorem eot_taken (level : Bool) {s : State} (hr : Running s) (hd : isDeck s = true) (u : State)
    (hu : u = s.setPins { s.pins with eot := level }) :
    let t := breakRecord u
    t.pins = u.pins ∧ t.tr = { s.tr with punch := t.tr.punch }
      ∧ (s.tr.punch.isSome = true → transportState t ≠ .play → RecordBroken s t)
      ∧ (s.tr.punch = none ∨ transportState t = .play → RecordKept s t)
      ∧ (∀ f : Flag, f ≠ .cueAborted → hasFlag t f = hasFlag s f)
      ∧ (s.pins.threaded = true → s.pins.localOn = false →
          drive t = some (if level = true ∧ (wantedDrive s.tr).forward = true then .stop else wantedDrive s.tr))
      ∧ (transportState t ≠ .play → t.tr.punch = none)
      ∧ t = (((s.setPins t.pins).setTr t.tr).setCues t.cues).setFlags t.flags := by
  intro t
  have e0 : RecordSame s u := by subst hu; exact ⟨rfl, rfl, rfl, rfl⟩
  have hutr : u.tr = s.tr := by rw [hu]; rfl
  have huf : u.flags = s.flags := by rw [hu]; rfl
  have frame : Frame [.transport, .lines, .cues, .flags] u t := (breakRecord_frame u).mono
  have fr : Frame [.pins] s u := hu ▸ setPins_frame s _
  have htr : t.tr = { s.tr with punch := t.tr.punch } := by rw [← hutr]; exact breakRecord_tr u
  have hst : transportState t = transportState u := breakRecord_state u
  refine ⟨frame.same .pins, htr, fun hp hs => ?_, fun h => ?_, fun f hf => ?_, fun ht hl => ?_, fun hs => ?_, ?_⟩
  · exact breakRecord_broken e0 hp (hst ▸ hs)
  · exact breakRecord_keeps e0 huf (hst ▸ h)
  · rw [breakRecord_flag u hf, hasFlag, huf, hasFlag]
  · have hpower : t.power = s.power := Eq.trans (frame.same .power) (fr.same .power)
    have hstraps : t.straps = s.straps := Eq.trans (frame.same .straps) (fr.same .straps)
    have hpins : t.pins = { s.pins with eot := level } := Eq.trans (frame.same .pins) (by rw [hu]; rfl)
    have hready : deckReady t = true := deckReady_of ((isDeck_congr hstraps).trans hd) (by rw [hpins]; exact ht)
      (by rw [hpins]; exact hl)
    have hwant : wantedDrive t.tr = wantedDrive s.tr := by rw [htr]; rfl
    rw [drive_ready (by rw [Running, hpower]; exact hr) hready, hwant, hpins]
    simp [eotDrive]
  · exact breakRecord_released (hst ▸ hs)
  · exact (fr.trans frame).mono.self_line

/-! ### SERVO and RECTALLY -/

theorem loseLock_unlocked {s : State} (h : s.chase.state ≠ .locked) : loseLock s = s := if_neg h

theorem servoChange_rise (s : State) : servoChange true s = s.setPins { s.pins with servo := true } := by
  simp [servoChange]

theorem servoChange_keeps {s : State} (h : isDeck s = false ∨ s.chase.state ≠ .locked) :
    servoChange false s = s.setPins { s.pins with servo := false } := by
  unfold servoChange
  dsimp only
  split
  · next hc =>
    obtain ⟨-, hd, -⟩ := hc
    have hn : s.chase.state ≠ .locked := h.resolve_left (by simp [hd])
    exact loseLock_unlocked (s := s.setPins { s.pins with servo := false }) hn
  · rfl

theorem rectallyChange_fall (s : State) : rectallyChange false s = s.setPins { s.pins with rectally := false } := by
  simp [rectallyChange]

theorem confirm_idle {p : Option Punch} (h : ∀ tracks n, p ≠ some { tracks := tracks, tally := .running n }) :
    p.map Punch.confirm = p := by
  cases p with
  | none => rfl
  | some q =>
    obtain ⟨tracks, tally⟩ := q
    cases tally with
    | running n => exact absurd rfl (h tracks n)
    | confirmed => rfl
    | expired => rfl

theorem rectallyChange_keeps {s : State}
    (h : isDeck s = false ∨ s.pins.rectally = true
      ∨ ∀ tracks n, s.tr.punch ≠ some { tracks := tracks, tally := .running n }) :
    rectallyChange true s = s.setPins { s.pins with rectally := true } := by
  unfold rectallyChange
  dsimp only
  split
  · next hc =>
    obtain ⟨-, hd, -, hl⟩ := hc
    have hn : ∀ tracks n, s.tr.punch ≠ some { tracks := tracks, tally := .running n } := by
      obtain h | h | h := h
      · rw [hd] at h; cases h
      · rw [h] at hl; cases hl
      · exact h
    rw [State.setPins_tr, confirm_idle hn]
    rfl
  · rfl

theorem eotChange_live {level : Bool} {s : State} (h : isDeck s = false) :
    eotChange level s = s.setPins { s.pins with eot := level } := by simp [eotChange, h]

/-- Settles O20: the tables of the drive, then each line's change on a deck station and on LIVE. -/
theorem eotServoAndRectallyTaken : Obligations.EotServoAndRectallyTaken := by
  unfold Obligations.EotServoAndRectallyTaken
  refine ⟨fun s hr => ⟨fun hd => ?live, fun hd ht => ?offline, fun hd ht hl => ?localOn, fun hd ht hl => ?ready⟩,
    fun level s hr hd => ?eot, fun s hr => ⟨fun hd hs hc => ?unlocks, fun h => ?servo, fun tracks n hd hl hp => ?confirms⟩,
    fun s hr => ⟨?rise, ?fall, fun h => ?rectally, fun level hd => ?eotLive⟩⟩
  case live =>
    have h := drive_live hr hd
    exact ⟨h, by rw [modeLine, h]; rfl, by simp [transportState, live_of_isDeck hd]⟩
  case offline =>
    have h := drive_offline hr hd ht
    exact ⟨h, by rw [modeLine, h]; rfl, by simp [transportState, deck_not_live hd, ht]⟩
  case localOn =>
    have h := drive_local hr ht hl
    exact ⟨h, by rw [modeLine, h]; rfl, by simp [transportState, deck_not_live hd, ht, hl]⟩
  case ready => exact drive_ranges hr (deckReady_of hd ht hl)
  case eot => exact ⟨_, congrArg Host.Outcome.next (eotChange_deck hr hd), eot_taken level hr hd _ rfl⟩
  case unlocks =>
    have h1 : servoChange false s = loseLock (s.setPins { s.pins with servo := false }) := if_pos ⟨hr, hd, hs, rfl⟩
    have h2 : loseLock (s.setPins { s.pins with servo := false }) = _ := if_pos hc
    exact congrArg _ (h1.trans h2)
  case servo => exact congrArg _ (servoChange_keeps h)
  case confirms =>
    have h1 : rectallyChange true s
        = (s.setPins { s.pins with rectally := true }).setTr { s.tr with punch := s.tr.punch.map Punch.confirm } :=
      if_pos ⟨hr, hd, rfl, by rw [hl]; rfl⟩
    rw [hp] at h1
    exact congrArg _ h1
  case rise => exact congrArg _ (servoChange_rise s)
  case fall => exact congrArg _ (rectallyChange_fall s)
  case rectally => exact congrArg _ (rectallyChange_keeps h)
  case eotLive => exact congrArg _ (eotChange_live hd)

end Sys2Proof.Machine

/-! SUPPORT and O21. The locate at a published record, its ends and its limits, and the timers' limits. -/

namespace Sys2Proof.Machine

set_option Elab.async false

/-! ### The ends of a locate -/

/-- Park done after a locate to a target has ended (R120). -/
def parkNotedAt (target : Nat) (c : Chase) : Chase := if c.parkFrame = some target then { c with parkDone := true } else c

theorem locateFail_eq (l : Locate) (s : State) :
    locateFail l s
      = ((s.setTr { s.tr with command := .stop, locate := none, parkedMark := false }).setChase
          (parkNotedAt l.target s.chase)).setFlags (s.flags ||| Flag.locateFail.mask) := by
  rw [locateFail, setFlag_touches, noteParkEnd_touches]
  rfl

theorem locateSucceed_eq (l : Locate) (s : State) :
    locateSucceed l s
      = (s.setTr { s.tr with command := .stop, locate := none, parkedMark := true }).setChase
          (parkNotedAt l.target s.chase) := by
  rw [locateSucceed_touches]
  rfl

/-! ### The limits -/

theorem locateAcquireLimit_some {l : Locate} {s : State} (h : s.tr.locate = some l) :
    locateAcquireLimit s
      = if l.phase = .acquire ∧ 250 ≤ l.records ∧ s.pos.published.quality = .none then locateFail l s else s := by
  rw [locateAcquireLimit, h]

theorem locateEotLimit_some {l : Locate} {s : State} (h : s.tr.locate = some l) :
    locateEotLimit s = if 2 ≤ l.eotCount then locateFail l s else s := by rw [locateEotLimit, h]

theorem locateRecordLimit_some {l : Locate} {s : State} (h : s.tr.locate = some l) :
    locateRecordLimit s = if 3000 ≤ l.records then locateFail l s else s := by rw [locateRecordLimit, h]

theorem locateSettle_some {l : Locate} {s : State} (h : s.tr.locate = some l) :
    locateSettle s
      = if l.phase = .settle ∧ 2 ≤ l.settle then
          if (locateDistance l s).natAbs ≤ 512 then locateSucceed l s
          else if 4 ≤ l.attempts + 1 then locateFail l s
          else s.setTr { s.tr with locate := some (l.retry (locateDistance l s)) }
        else s := by rw [locateSettle, h]

theorem servoExpiry_due {s : State} (h : s.tr.servoTimer = 120) (hp : transportState s = .play)
    (hs : s.pins.servo = false) : servoExpiry s = setFlag .transportFault s := if_pos ⟨h, hp, by rw [hs]; rfl⟩

theorem tallyExpiry_running {tracks : Tracks} {n : Nat} {s : State}
    (h : s.tr.punch = some { tracks := tracks, tally := .running n }) :
    tallyExpiry s
      = if 4 ≤ n then
          setFlag .recordFault (s.setTr { s.tr with punch := some { tracks := tracks, tally := .expired } })
        else s := by rw [tallyExpiry, h]

theorem tallyExpiry_idle {s : State} (h : ∀ tracks n, s.tr.punch ≠ some { tracks := tracks, tally := .running n }) :
    tallyExpiry s = s := by
  unfold tallyExpiry
  split
  · next tracks n e => exact absurd e (h tracks n)
  · rfl

/-- Settles O21: each limit is met where its command finds it. -/
theorem locateLimitsAndTimers : Obligations.LocateLimitsAndTimers := by
  unfold Obligations.LocateLimitsAndTimers
  refine ⟨fun l s hr hl => ⟨fun hp hn hq => ?acquire, fun hn => ?records, fun hn => ?eot⟩,
    fun s hr => ⟨fun hn hp hs => ?servo, fun tracks hp => ?tally⟩⟩
  case acquire =>
    show inRun locateAcquireLimit s = _
    rw [inRun_of_running _ hr, locateAcquireLimit_some hl, if_pos ⟨hp, Nat.le_of_eq hn.symm, hq⟩, locateFail_eq]
    rfl
  case records =>
    show inRun locateRecordLimit s = _
    rw [inRun_of_running _ hr, locateRecordLimit_some hl, if_pos (Nat.le_of_eq hn.symm), locateFail_eq]
    rfl
  case eot =>
    show inRun locateEotLimit s = _
    rw [inRun_of_running _ hr, locateEotLimit_some hl, if_pos (Nat.le_of_eq hn.symm), locateFail_eq]
    rfl
  case servo =>
    show inRun servoExpiry s = _
    rw [inRun_of_running _ hr, servoExpiry_due hn hp hs, setFlag_touches]
  case tally =>
    show inRun tallyExpiry s = _
    rw [inRun_of_running _ hr, tallyExpiry_running hp, if_pos (Nat.le_refl 4), setFlag_touches]
    rfl

/-! ### A record taken -/

theorem locateTake_some {l : Locate} {s : State} (h : s.tr.locate = some l) :
    locateTake s
      = s.setTr { s.tr with locate := some (l.take s.pos.published s.pins.eot (locateDistance l s)) } := by
  rw [locateTake, h]

/-- A record in DRIVE (R92). -/
def DriveTaken (dist : Int) (m : Locate) : Prop :=
  (dist.natAbs ≤ 256 → m.phase = .settle ∧ m.settle = 0 ∧ m.drive = .stop)
    ∧ (256 < dist.natAbs → m.phase = .drive ∧ m.drive = locateSpeed dist)

theorem inDrive_taken (l : Locate) (dist : Int) : DriveTaken dist (l.inDrive dist) := by
  refine ⟨fun h => ?_, fun h => ?_⟩
  · rw [Locate.inDrive, if_pos h]; exact ⟨rfl, rfl, rfl⟩
  · rw [Locate.inDrive, if_neg (Nat.not_le.mpr h)]; exact ⟨rfl, rfl⟩

/-- What a record in DRIVE and one in SETTLE leave of the locate. -/
theorem inDrive_rest (l : Locate) (dist : Int) :
    (l.inDrive dist).target = l.target ∧ (l.inDrive dist).attempts = l.attempts
      ∧ (l.inDrive dist).records = l.records ∧ (l.inDrive dist).eotCount = l.eotCount := by
  unfold Locate.inDrive
  split <;> exact ⟨rfl, rfl, rfl, rfl⟩

/-- The locate as it counts a record, before its phase acts. -/
def Locate.counted (l : Locate) (motion : Int) (eot : Bool) : Locate :=
  { l with records := l.records + 1, eotCount := l.eotStill eot motion, skips := none }

theorem take_drive {l : Locate} (h : l.phase = .drive) (r : PosRecord) (eot : Bool) (dist : Int) :
    l.take r eot dist = (l.counted r.motion eot).inDrive dist := by
  unfold Locate.take
  simp only [h]
  rw [Locate.counted, h]

theorem take_settle {l : Locate} (h : l.phase = .settle) (r : PosRecord) (eot : Bool) (dist : Int) :
    l.take r eot dist = (l.counted r.motion eot).inSettle r.motion := by
  unfold Locate.take
  simp only [h]
  rw [Locate.counted, h]

theorem take_acquire {l : Locate} (h : l.phase = .acquire) (r : PosRecord) (eot : Bool) (dist : Int) :
    l.take r eot dist
      = if r.quality = .none then l.counted r.motion eot else (l.counted r.motion eot).inDrive dist := by
  unfold Locate.take
  simp only [h]
  rw [Locate.counted, h]

theorem take_rest (l : Locate) (r : PosRecord) (eot : Bool) (dist : Int) :
    (l.take r eot dist).target = l.target ∧ (l.take r eot dist).attempts = l.attempts
      ∧ (l.take r eot dist).records = l.records + 1 ∧ (l.take r eot dist).eotCount = l.eotStill eot r.motion := by
  cases h : l.phase with
  | drive => rw [take_drive h]; exact inDrive_rest _ _
  | settle => rw [take_settle h]; exact ⟨rfl, rfl, rfl, rfl⟩
  | acquire =>
    rw [take_acquire h]
    split
    · exact ⟨rfl, rfl, rfl, rfl⟩
    · exact inDrive_rest _ _

theorem eotStill_forward {l : Locate} {v : Int} (h : l.drive = .speed v) (hv : 0 < v) (motion : Int) :
    l.eotStill true motion = if motion = 0 then l.eotCount + 1 else 0 := by
  simp [Locate.eotStill, h, Command.forward, hv]

theorem eotStill_other {l : Locate} {eot : Bool} (h : ¬(eot = true ∧ ∃ v : Int, l.drive = .speed v ∧ 0 < v))
    (motion : Int) : l.eotStill eot motion = 0 := by
  have : (eot && l.drive.forward) = false := by
    rw [Bool.eq_false_iff]
    intro k
    obtain ⟨he, hf⟩ := Bool.and_eq_true_iff.mp k
    cases hd : l.drive with
    | stop => rw [hd] at hf; cases hf
    | speed v =>
      rw [hd] at hf
      exact h ⟨he, v, hd, by simpa [Command.forward] using hf⟩
  rw [Locate.eotStill, this]
  rfl

/-- The sign of the DRIVE formula where the distance is not 0. -/
theorem locateSpeed_eq {dist : Int} (h : dist ≠ 0) :
    locateSpeed dist
      = .speed ((if dist < 0 then -1 else 1) * (min 12800 (max 64 (dist.natAbs / 32)) : Nat)) := by
  have : signOf dist = if dist < 0 then -1 else 1 := by
    rw [signOf, if_neg h]
  rw [locateSpeed, this]

/-! ### The act on a record -/

/-- The three limits in their order. -/
def locateLimits (s : State) : State := locateRecordLimit (locateEotLimit (locateAcquireLimit s))

theorem locateRecord_eq (s : State) : locateRecord s = locateLimits (locateSettle (locateTake s)) := rfl

theorem locateLimits_none {s : State} (h : s.tr.locate = none) : locateLimits s = s := by
  have h1 : locateAcquireLimit s = s := by rw [locateAcquireLimit, h]
  have h2 : locateEotLimit s = s := by rw [locateEotLimit, h]
  have h3 : locateRecordLimit s = s := by rw [locateRecordLimit, h]
  rw [locateLimits, h1, h2, h3]

/-- A limit that the locate has come to at a record of this quality. -/
def AtLimit (m : Locate) (q : Quality) : Prop :=
  (m.phase = .acquire ∧ 250 ≤ m.records ∧ q = .none) ∨ 2 ≤ m.eotCount ∨ 3000 ≤ m.records

theorem locateFail_locate (l : Locate) (s : State) : (locateFail l s).tr.locate = none := by rw [locateFail_tr]

theorem locateLimits_due {m : Locate} {s : State} (h : s.tr.locate = some m)
    (k : AtLimit m s.pos.published.quality) : locateLimits s = locateFail m s := by
  have hn := locateFail_locate m s
  unfold locateLimits
  rw [locateAcquireLimit_some h]
  by_cases h1 : m.phase = .acquire ∧ 250 ≤ m.records ∧ s.pos.published.quality = .none
  · rw [if_pos h1, locateEotLimit, hn]
    dsimp only
    rw [locateRecordLimit, hn]
  · rw [if_neg h1, locateEotLimit_some h]
    by_cases h2 : 2 ≤ m.eotCount
    · rw [if_pos h2, locateRecordLimit, hn]
    · rw [if_neg h2, locateRecordLimit_some h, if_pos ((k.resolve_left h1).resolve_left h2)]

theorem locateLimits_clear {m : Locate} {s : State} (h : s.tr.locate = some m)
    (k : ¬AtLimit m s.pos.published.quality) : locateLimits s = s := by
  obtain ⟨h1, h2, h3⟩ : ¬(m.phase = .acquire ∧ 250 ≤ m.records ∧ s.pos.published.quality = .none)
      ∧ ¬2 ≤ m.eotCount ∧ ¬3000 ≤ m.records := by simpa [AtLimit, not_or] using k
  unfold locateLimits
  rw [locateAcquireLimit_some h, if_neg h1, locateEotLimit_some h, if_neg h2, locateRecordLimit_some h, if_neg h3]

/-- The station whose locate has failed (R93). -/
def LocateFailed (s t : State) : Prop :=
  t.tr = { s.tr with command := .stop, locate := none, parkedMark := false } ∧ hasFlag t .locateFail = true

theorem locateFailed_after {l m : Locate} {s u : State} (hu : u = s.setTr { s.tr with locate := some l }) :
    LocateFailed s (locateFail m u) := by
  refine ⟨?_, locateFail_flag m u⟩
  rw [locateFail_tr, hu]
  rfl

/-- A locate that has settled its second record (R92). -/
abbrev HasSettled (m : Locate) : Prop := m.phase = .settle ∧ 2 ≤ m.settle

/-- The station with its locate at m. -/
def withLocate (m : Locate) (s : State) : State := s.setTr { s.tr with locate := some m }

/-- How a locate that has taken a record goes on (R85, R91 to R93); `v` is the station with the record taken. -/
theorem locateRecord_course {l m : Locate} {s : State} (hl : s.tr.locate = some l)
    (hm : m = l.take s.pos.published s.pins.eot (locateDistance l s)) :
    let dist := locateDistance l s
    let t := locateRecord s
    let limit := 2 ≤ m.eotCount ∨ 3000 ≤ m.records
    (¬HasSettled m → ¬AtLimit m s.pos.published.quality → t = locateTake s)
      ∧ (HasSettled m → dist.natAbs ≤ 512 →
        t.tr = { s.tr with command := .stop, locate := none, parkedMark := true } ∧ t.flags = s.flags)
      ∧ (HasSettled m → 512 < dist.natAbs → m.attempts < 3 → ¬limit →
        t = withLocate (m.retry dist) s)
      ∧ (HasSettled m → 512 < dist.natAbs → 3 ≤ m.attempts → LocateFailed s t)
      ∧ (HasSettled m → 512 < dist.natAbs → limit → LocateFailed s t)
      ∧ (¬HasSettled m → AtLimit m s.pos.published.quality → LocateFailed s t) := by
  intro dist t limit
  have htake : locateTake s = withLocate m s := by rw [locateTake_some hl, hm]; rfl
  have ht : t = locateLimits (locateSettle (withLocate m s)) := by
    rw [← htake]; rfl
  have hdist : locateDistance m (withLocate m s) = dist := by
    have : m.target = l.target := by rw [hm]; exact (take_rest l _ _ _).1
    show signedDiff _ (512 * m.target) _ = signedDiff _ (512 * l.target) _
    rw [this]
    rfl
  have hretry : (withLocate m s).setTr { (withLocate m s).tr with locate := some (m.retry dist) }
      = withLocate (m.retry dist) s := rfl
  have hsettle := locateSettle_some (l := m) (s := withLocate m s) rfl
  rw [hdist, hretry] at hsettle
  have hfar {n : Nat} (h : 512 < n) : ¬n ≤ 512 := Nat.not_le.mpr h
  refine ⟨fun h k => ?_, fun h k => ?_, fun h k ha hlim => ?_, fun h k ha => ?_, fun h k hlim => ?_, fun h k => ?_⟩
  · rw [ht, hsettle, if_neg h, locateLimits_clear (m := m) (s := withLocate m s) rfl k, htake]
  · rw [ht, hsettle, if_pos h, if_pos k, locateLimits_none (by rw [locateSucceed_eq]; rfl), locateSucceed_eq]
    exact ⟨rfl, rfl⟩
  · have hr : ¬AtLimit (m.retry dist) s.pos.published.quality := by
      rintro (⟨hp, -⟩ | k)
      · cases hp
      · exact hlim k
    rw [ht, hsettle, if_pos h, if_neg (hfar k), if_neg (by omega), locateLimits_clear (m := m.retry dist) (s := withLocate (m.retry dist) s) rfl hr]
  · rw [ht, hsettle, if_pos h, if_neg (hfar k), if_pos (by omega), locateLimits_none (locateFail_locate _ _)]
    exact locateFailed_after rfl
  · rw [ht, hsettle, if_pos h, if_neg (hfar k)]
    split
    · rw [locateLimits_none (locateFail_locate _ _)]
      exact locateFailed_after rfl
    · rw [locateLimits_due (m := m.retry dist) (s := withLocate (m.retry dist) s) rfl (.inr hlim)]
      exact locateFailed_after (l := m.retry dist) rfl
  · rw [ht, hsettle, if_neg h, locateLimits_due (m := m) (s := withLocate m s) rfl k]
    exact locateFailed_after rfl

end Sys2Proof.Machine

/-! SUPPORT, O23 and O24. The codes of chapter 12, what fails FORMAT, and what every judgement keeps to: a refusal leaves
the subject as it was. -/

namespace Sys2Proof.Machine

set_option Elab.async false

/-! ### Codes as tables -/

theorem bindingOfCode_eq (n : Nat) :
    bindingOfCode n = [Binding.cue, .mark, .play, .stop, .abort, .none][n]? := by
  match n with
  | 0 | 1 | 2 | 3 | 4 | 5 | _ + 6 => rfl

theorem edgeOfCode_eq (n : Nat) : edgeOfCode n = [EdgeSelect.fall, .rise, .both][n]? := by
  match n with
  | 0 | 1 | 2 | _ + 3 => rfl

theorem sourceOfCode_eq (n : Nat) :
    sourceOfCode n = [TallySource.none, .record, .air, .lock, .ready, .fault][n]? := by
  match n with
  | 0 | 1 | 2 | 3 | 4 | 5 | _ + 6 => rfl

theorem tallyPatternOfCode_eq (n : Nat) : tallyPatternOfCode n = [TallyPattern.steady, .slow, .fast][n]? := by
  match n with
  | 0 | 1 | 2 | _ + 3 => rfl

theorem curveOfCode_eq (n : Nat) : curveOfCode n = [Curve.linear, .smooth, .fast][n]? := by
  match n with
  | 0 | 1 | 2 | _ + 3 => rfl

theorem patternOfCode_eq (n : Nat) : patternOfCode n = [Pattern.left, .top, .box, .split, .sparkle][n]? := by
  match n with
  | 0 | 1 | 2 | 3 | 4 | _ + 5 => rfl

theorem lawOfCode_eq (n : Nat) : lawOfCode n = [AudioLaw.linear, .power, .cut][n]? := by
  match n with
  | 0 | 1 | 2 | _ + 3 => rfl

theorem kindOfCode_eq (n : Nat) : kindOfCode n = [TransKind.dissolve, .wipe][n]? := by
  match n with
  | 0 | 1 | _ + 2 => rfl

theorem directionOfCode_eq (n : Nat) : directionOfCode n = [Direction.inward, .outward][n]? := by
  match n with
  | 0 | 1 | _ + 2 => rfl

theorem flagOfCode_eq (n : Nat) : flagOfCode n = [false, true][n]? := by
  match n with
  | 0 | 1 | _ + 2 => rfl

/-- A code past the end of its table names nothing. -/
theorem table_none {α : Type} {l : List α} {n : Nat} : l[n]? = none ↔ l.length ≤ n := List.getElem?_eq_none_iff

theorem bindingOfCode_none {n : Nat} : bindingOfCode n = none ↔ 5 < n := by rw [bindingOfCode_eq]; exact table_none

theorem edgeOfCode_none {n : Nat} : edgeOfCode n = none ↔ 2 < n := by rw [edgeOfCode_eq]; exact table_none

theorem sourceOfCode_none {n : Nat} : sourceOfCode n = none ↔ 5 < n := by rw [sourceOfCode_eq]; exact table_none

theorem tallyPatternOfCode_none {n : Nat} : tallyPatternOfCode n = none ↔ 2 < n := by
  rw [tallyPatternOfCode_eq]; exact table_none

theorem curveOfCode_none {n : Nat} : curveOfCode n = none ↔ 2 < n := by rw [curveOfCode_eq]; exact table_none

theorem patternOfCode_none {n : Nat} : patternOfCode n = none ↔ 4 < n := by rw [patternOfCode_eq]; exact table_none

theorem lawOfCode_none {n : Nat} : lawOfCode n = none ↔ 2 < n := by rw [lawOfCode_eq]; exact table_none

theorem kindOfCode_none {n : Nat} : kindOfCode n = none ↔ 1 < n := by rw [kindOfCode_eq]; exact table_none

theorem directionOfCode_none {n : Nat} : directionOfCode n = none ↔ 1 < n := by rw [directionOfCode_eq]; exact table_none

theorem flagOfCode_none {n : Nat} : flagOfCode n = none ↔ 1 < n := by rw [flagOfCode_eq]; exact table_none

theorem lineOfCode_some {n : Nat} {line : GpiLine} : lineOfCode n = some line ↔ line.val + 1 = n := by
  match n with
  | 0 => simp [lineOfCode]
  | 1 | 2 | 3 | 4 => simp only [lineOfCode, Option.some.injEq, Fin.ext_iff]; omega
  | k + 5 =>
    have := line.isLt
    simp only [lineOfCode, reduceCtorEq, false_iff]
    omega

theorem lineOfCode_none {n : Nat} : lineOfCode n = none ↔ noLine n := by
  match n with
  | 0 => simp [lineOfCode, noLine]
  | 1 | 2 | 3 | 4 => simp [lineOfCode, noLine]
  | k + 5 => simp [lineOfCode, noLine]

theorem readLabel_none {x : Standard} {l : Label} : readLabel x l = none ↔ labelValid x l = false := by
  simp [readLabel]

theorem readLabel_valid {x : Standard} {l : Label} (h : labelValid x l = true) :
    readLabel x l = some { value := requestCount x l, coerced := labelOmitted x l } := if_pos h

/-! ### The cue record -/

theorem readTrigger_timed {x : Standard} {bs : List Byte} (h : byteAt bs 1 = 0 ∨ byteAt bs 1 = 1) :
    readTrigger x bs = none ↔ labelValid x (labelAt bs 2) = false := by
  rw [← readLabel_none]
  obtain h | h := h <;> simp [readTrigger, h]

/-- The trigger kinds of a cue record (Table 12.5). -/
theorem readTrigger_none {x : Standard} {bs : List Byte} :
    readTrigger x bs = none ↔ 6 < byteAt bs 1 ∨ (byteAt bs 1 ≤ 1 ∧ labelValid x (labelAt bs 2) = false) := by
  by_cases h : byteAt bs 1 ≤ 1
  · rw [readTrigger_timed (by omega)]
    exact ⟨fun k => .inr ⟨h, k⟩, fun k => k.elim (fun k => by omega) And.right⟩
  · have hn : ¬(byteAt bs 1 ≤ 1 ∧ labelValid x (labelAt bs 2) = false) := fun k => h k.1
    rw [or_iff_left hn]
    unfold readTrigger
    split <;> simp_all
    omega

theorem readTransition_none {bs : List Byte} :
    readTransition bs = none
      ↔ 1 < byteAt bs 10 ∨ 1 < byteAt bs 11 ∨ 2 < byteAt bs 16 ∨ 4 < byteAt bs 17 ∨ 2 < byteAt bs 20 := by
  rw [← kindOfCode_none, ← directionOfCode_none, ← curveOfCode_none, ← patternOfCode_none, ← lawOfCode_none]
  unfold readTransition
  split
  · next h1 h2 h3 h4 h5 => simp [h1, h2, h3, h4, h5]
  · next h =>
    refine ⟨fun _ => ?_, fun _ => rfl⟩
    by_contra hn
    simp only [not_or, ← Option.isSome_iff_ne_none] at hn
    obtain ⟨h1, h2, h3, h4, h5⟩ := hn
    obtain ⟨a, ha⟩ := Option.isSome_iff_exists.mp h1
    obtain ⟨b, hb⟩ := Option.isSome_iff_exists.mp h2
    obtain ⟨c, hc⟩ := Option.isSome_iff_exists.mp h3
    obtain ⟨d, hd⟩ := Option.isSome_iff_exists.mp h4
    obtain ⟨e, he⟩ := Option.isSome_iff_exists.mp h5
    exact h a b c d e ha hb hc hd he

theorem readTransport_none {x : Standard} {bs : List Byte} :
    readTransport x bs = none
      ↔ 2 < byteAt bs 10 ∨ (byteAt bs 10 = 2 ∧ labelValid x (labelAt bs 11) = false) := by
  rw [← readLabel_none]
  unfold readTransport
  split <;> simp_all
  omega

theorem readAction_none {x : Standard} {r : Request} : readAction x r.params = none ↔ badAction x r := by
  have e10 : paramAt r 10 = byteAt r.params 10 := rfl
  have e9 : paramAt r 9 = byteAt r.params 9 := rfl
  unfold badAction
  rw [e9]
  unfold readAction
  split
  · next h => simp [h]
  · next h =>
    rw [readTransition_none]
    simp only [h, OfNat.one_ne_ofNat, false_and, or_false, true_and, Nat.reduceLT]
    exact Iff.rfl
  · next h =>
    rw [readTransport_none]
    simp only [h, OfNat.ofNat_ne_one, false_and, false_or, or_false, true_and, Nat.reduceLT, Nat.reduceEqDiff]
    exact Iff.rfl
  · next h =>
    rw [Option.map_eq_none_iff, lineOfCode_none]
    simp only [h, OfNat.ofNat_ne_one, false_and, false_or, or_false, true_and, Nat.reduceLT, Nat.reduceEqDiff]
    exact Iff.rfl
  · next h => simp [h]
  · next h0 h1 h2 h3 h4 =>
    refine ⟨fun _ => .inr (.inr (.inr ?_)), fun _ => rfl⟩
    have a0 : byteAt r.params 9 ≠ 0 := h0
    have a1 : byteAt r.params 9 ≠ 1 := h1
    have a2 : byteAt r.params 9 ≠ 2 := h2
    have a3 : byteAt r.params 9 ≠ 3 := h3
    have a4 : byteAt r.params 9 ≠ 4 := h4
    omega

/-- A record of the right length is read unless it fails FORMAT (R69, R135). -/
theorem readCue_none {x : Standard} {r : Request} (h : r.params.length = 21) :
    readCue x r.params = none ↔ badCue x r := by
  have e0 : paramAt r 0 = byteAt r.params 0 := rfl
  have e1 : paramAt r 1 = byteAt r.params 1 := rfl
  have e6 : paramAt r 6 = byteAt r.params 6 := rfl
  have el : labelFrom r 2 = labelAt r.params 2 := rfl
  unfold badCue
  rw [e0, e1, e6, el, ← readAction_none, ← flagOfCode_none, ← or_assoc (a := 6 < _), ← readTrigger_none]
  unfold readCue
  split
  · next hc =>
    split
    · next h1 h2 h3 => simp [h1, h2, h3, hc.2]
    · next hn =>
      refine ⟨fun _ => ?_, fun _ => rfl⟩
      by_contra hb
      simp only [not_or, ← Option.isSome_iff_ne_none] at hb
      obtain ⟨-, h1, h2, h3⟩ := hb
      obtain ⟨a, ha⟩ := Option.isSome_iff_exists.mp h1
      obtain ⟨b, hb⟩ := Option.isSome_iff_exists.mp h2
      obtain ⟨c, hc⟩ := Option.isSome_iff_exists.mp h3
      exact hn a b c ha hb hc
  · next hc =>
    have h0 : byteAt r.params 0 = 0 := by
      by_contra hn
      exact hc ⟨h, hn⟩
    exact ⟨fun _ => .inl h0, fun _ => rfl⟩

theorem readCue_wrong {x : Standard} {bs : List Byte} (h : bs.length ≠ 21) : readCue x bs = none := by
  simp [readCue, h]

end Sys2Proof.Machine

/-! O23 and O24. Every request's judgement: what it is given to, that a refusal keeps the subject, and when it is a
refusal for FORMAT. -/

namespace Sys2Proof.Machine

set_option Elab.async false

/-! ### The judgement of a command -/

/-- The judgement of the request that a command brings. -/
def judgementOf : Instr → State → Judged
  | .stop r => judgeStop r
  | .play r => judgePlay r
  | .shuttle r => judgeShuttle r
  | .locate r => judgeLocate r
  | .arm r => judgeArm r
  | .chase r => judgeChase r
  | .unchase r => judgeUnchase r
  | .cueLoad r => judgeCueLoad r
  | .cueDrop r => judgeCueDrop r
  | .cueClear r => judgeCueClear r
  | .fire r => judgeFire r
  | .abort r => judgeAbort r
  | .fader r => judgeFader r
  | .mark r => judgeMark r
  | .markDrop r => judgeMarkDrop r
  | .locateMark r => judgeLocateMark r
  | .gpiBind r => judgeGpiBind r
  | .tallyMap r => judgeTallyMap r
  | .readStatus r => judgeReadStatus r
  | .readCues r => judgeReadCues r
  | .readMarks r => judgeReadMarks r
  | .clearFlags r => judgeClearFlags r
  | .sessionClear r => judgeSessionClear r
  | _ => fun s => (.ok, s)

theorem exec_request {c : Instr} {r : Request} (h : requestOf c = some r) (s : State) :
    exec c s = inRun (takeRequest r (judgementOf c)) s := by
  cases c <;> cases h <;> rfl

theorem exec_request_taken {c : Instr} {r : Request} {s : State} (h : requestOf c = some r) (ht : Taken r s) :
    exec c s = .next (record r.tag (judgementOf c (received s))) := by
  rw [exec_request h, inRun_takeRequest_taken ht]

/-- What each request may write beside its record. -/
theorem judgementOf_frame {c : Instr} {r : Request} (h : requestOf c = some r) (s : State) :
    Frame (.link :: requestParts) s (judgementOf c s).2 := by
  cases c <;> cases h
  case stop => exact (judgeStop_frame r s).mono
  case play => exact (judgePlay_frame r s).mono
  case shuttle => exact (judgeShuttle_frame r s).mono
  case locate => exact (judgeLocate_frame r s).mono
  case arm => exact (judgeArm_frame r s).mono
  case chase => exact (judgeChase_frame r s).mono
  case unchase => exact (judgeUnchase_frame r s).mono
  case cueLoad => exact (judgeCueLoad_frame r s).mono
  case cueDrop => exact (judgeCueDrop_frame r s).mono
  case cueClear => exact (judgeCueClear_frame r s).mono
  case fire => exact (judgeFire_frame r s).mono
  case abort => exact (judgeAbort_frame r s).mono
  case fader => exact (judgeFader_frame r s).mono
  case mark => exact (judgeMark_frame r s).mono
  case markDrop => exact (judgeMarkDrop_frame r s).mono
  case locateMark => exact (judgeLocateMark_frame r s).mono
  case gpiBind => exact (judgeGpiBind_frame r s).mono
  case tallyMap => exact (judgeTallyMap_frame r s).mono
  case readStatus => exact (judgeReadStatus_frame r s).mono
  case readCues => exact (judgeReadCues_frame r s).mono
  case readMarks => exact (judgeReadMarks_frame r s).mono
  case clearFlags => exact (judgeClearFlags_frame r s).mono
  case sessionClear => exact (judgeSessionClear_frame r s).mono

/-! ### What every judgement keeps to -/

/-- A judgement in a state: a refusal leaves the subject as it was (R67), and it is a refusal for FORMAT exactly where
the parameters are bad (R69). -/
structure Judges (bad : Prop) (j : Judged) (s : State) : Prop where
  keeps : refusal j.1 = true → j.2 = s
  refuses : bad → j = (.refusedFormat, s)
  passes : ¬bad → j.1 ≠ .refusedFormat

theorem Judges.mono {p q : Prop} {j : Judged} {s : State} (h : Judges p j s) (e : q ↔ p) : Judges q j s :=
  ⟨h.keeps, fun k => h.refuses (e.mp k), fun k => h.passes fun b => k (e.mpr b)⟩

theorem judges_format (s : State) : Judges True (.refusedFormat, s) s :=
  ⟨fun _ => rfl, fun _ => rfl, fun h => absurd trivial h⟩

theorem judges_refused {x : ReqResult} (s : State) (h : x ≠ .refusedFormat) : Judges False (x, s) s :=
  ⟨fun _ => rfl, False.elim, fun _ => h⟩

theorem judges_accepted {x : ReqResult} (h : refusal x = false) (s t : State) : Judges False (x, t) s :=
  ⟨fun k => absurd (h.symm.trans k) (by simp), False.elim, fun _ k => absurd ((congrArg refusal k).symm.trans h) (by simp [refusal])⟩

theorem resultOf_accepts (b : Bool) : refusal (resultOf b) = false := by cases b <;> rfl

theorem judges_answer {x : Option ReqResult} {result : ReqResult} {effect : State → State} {s : State}
    (hx : x ≠ some .refusedFormat) (hr : refusal result = false) : Judges False (answer x result effect s) s := by
  cases x with
  | none => exact judges_accepted hr s (effect s)
  | some y => exact judges_refused s fun e => hx (congrArg some e)

theorem judges_withLength {n : Nat} {r : Request} {judge : State → Judged} {bad : Prop} {s : State}
    (h : r.params.length = n → Judges bad (judge s) s) :
    Judges (r.params.length ≠ n ∨ bad) (withLength n r judge s) s := by
  by_cases hn : r.params.length = n
  · rw [withLength_ok _ hn]
    exact (h hn).mono (by simp [hn])
  · rw [withLength_wrong _ _ hn]
    exact (judges_format s).mono (by simp [hn])

/-! ### The checks name other refusals -/

theorem deckRefusal_other (s : State) : deckRefusal s ≠ some .refusedFormat := by
  unfold deckRefusal; repeat' split
  all_goals simp

theorem motionRefusal_other (s : State) : motionRefusal s ≠ some .refusedFormat := by
  unfold motionRefusal; split
  · next x hx => exact fun e => deckRefusal_other s (hx.trans e)
  · split <;> simp

theorem armRefusal_other (s : State) : armRefusal s ≠ some .refusedFormat := by
  unfold armRefusal; repeat' split
  all_goals simp

theorem chaseRefusal_other (s : State) : chaseRefusal s ≠ some .refusedFormat := by
  unfold chaseRefusal; split <;> simp

theorem loadRefusal_other (c : Cue) (s : State) : loadRefusal c s ≠ some .refusedFormat := by
  unfold loadRefusal; repeat' split
  all_goals simp

theorem dropRefusal_other (tag : Byte) (s : State) : dropRefusal tag s ≠ some .refusedFormat := by
  unfold dropRefusal; repeat' split
  all_goals simp

theorem faderRefusal_other (s : State) : faderRefusal s ≠ some .refusedFormat := by
  unfold faderRefusal; repeat' split
  all_goals simp

theorem readRefusal_other (s : State) : readRefusal s ≠ some .refusedFormat := by
  unfold readRefusal; split <;> simp

/-! ### Judgement by judgement -/

theorem judgeLocate_judges (r : Request) (s : State) :
    Judges (r.params.length ≠ 4 ∨ labelValid (std s) (labelFrom r 0) = false) (judgeLocate r s) s := by
  refine judges_withLength fun _ => ?_
  have e : labelFrom r 0 = labelAt r.params 0 := rfl
  rw [e]
  split
  · next h => exact (judges_format s).mono (by simp [readLabel_none.mp h])
  · next c h =>
    refine (judges_answer (motionRefusal_other s) (resultOf_accepts _)).mono (iff_false_intro fun k => ?_)
    rw [readLabel_none.mpr k] at h
    cases h

theorem judgeChase_judges (r : Request) (s : State) :
    Judges (r.params.length ≠ 6
        ∨ (15 < paramAt r 0 ∨ 1 < paramAt r 1 ∨ labelValid (std s) (labelFrom r 2) = false)) (judgeChase r s) s := by
  refine judges_withLength fun _ => ?_
  have e0 : paramAt r 0 = byteAt r.params 0 := rfl
  have e1 : paramAt r 1 = byteAt r.params 1 := rfl
  have el : labelFrom r 2 = labelAt r.params 2 := rfl
  rw [e0, e1, el, ← flagOfCode_none, ← readLabel_none]
  split
  · next minus c hm hc =>
    split
    · next hb =>
      have hbad : ¬15 < byteAt r.params 0 := Nat.not_lt.mpr hb
      unfold judgeChaseWith
      split
      · exact (judges_answer (chaseRefusal_other s) rfl).mono (by simp [hm, hc, hbad])
      · exact (judges_answer (chaseRefusal_other s) (resultOf_accepts _)).mono (by simp [hm, hc, hbad])
    · next hb => exact (judges_format s).mono (by simp [Nat.lt_of_not_le hb])
  · next hn =>
    refine (judges_format s).mono (iff_true_intro ?_)
    by_contra hb
    simp only [not_or, ← Option.isSome_iff_ne_none] at hb
    obtain ⟨-, h1, h2⟩ := hb
    obtain ⟨a, ha⟩ := Option.isSome_iff_exists.mp h1
    obtain ⟨b, hb⟩ := Option.isSome_iff_exists.mp h2
    exact hn a b ha hb

theorem judgeCueLoad_judges (r : Request) (s : State) :
    Judges (r.params.length ≠ 21 ∨ badCue (std s) r) (judgeCueLoad r s) s := by
  have hbad : (r.params.length ≠ 21 ∨ badCue (std s) r) ↔ readCue (std s) r.params = none := by
    by_cases h : r.params.length = 21
    · rw [readCue_none h]; simp [h]
    · simp [h, readCue_wrong h]
  rw [hbad]
  unfold judgeCueLoad
  split
  · next h => exact (judges_format s).mono (by simp [h])
  · next c h => exact (judges_answer (loadRefusal_other _ s) (resultOf_accepts _)).mono (by simp [h])

theorem judgeLocateMark_judges (r : Request) (s : State) :
    Judges (r.params.length ≠ 0 ∨ False) (judgeLocateMark r s) s := by
  refine judges_withLength fun _ => ?_
  split
  · next x _ hx =>
    exact judges_refused s fun e => motionRefusal_other s (by rw [hx, e])
  · exact judges_refused s (by simp)
  · exact judges_accepted rfl s _

theorem judgeGpiBind_judges (r : Request) (s : State) :
    Judges (r.params.length ≠ 3 ∨ (noLine (paramAt r 0) ∨ 5 < paramAt r 1 ∨ 2 < paramAt r 2)) (judgeGpiBind r s) s := by
  refine judges_withLength fun _ => ?_
  have e0 : paramAt r 0 = byteAt r.params 0 := rfl
  have e1 : paramAt r 1 = byteAt r.params 1 := rfl
  have e2 : paramAt r 2 = byteAt r.params 2 := rfl
  rw [e0, e1, e2, ← lineOfCode_none, ← bindingOfCode_none, ← edgeOfCode_none]
  split
  · next h1 h2 h3 => exact (judges_accepted rfl s _).mono (by simp [h1, h2, h3])
  · next hn =>
    refine (judges_format s).mono (iff_true_intro ?_)
    by_contra hb
    simp only [not_or, ← Option.isSome_iff_ne_none] at hb
    obtain ⟨h1, h2, h3⟩ := hb
    obtain ⟨a, ha⟩ := Option.isSome_iff_exists.mp h1
    obtain ⟨b, hb⟩ := Option.isSome_iff_exists.mp h2
    obtain ⟨c, hc⟩ := Option.isSome_iff_exists.mp h3
    exact hn a b c ha hb hc

theorem judgeTallyMap_judges (r : Request) (s : State) :
    Judges (r.params.length ≠ 3 ∨ (noLine (paramAt r 0) ∨ 5 < paramAt r 1 ∨ 2 < paramAt r 2)) (judgeTallyMap r s) s := by
  refine judges_withLength fun _ => ?_
  have e0 : paramAt r 0 = byteAt r.params 0 := rfl
  have e1 : paramAt r 1 = byteAt r.params 1 := rfl
  have e2 : paramAt r 2 = byteAt r.params 2 := rfl
  rw [e0, e1, e2, ← lineOfCode_none, ← sourceOfCode_none, ← tallyPatternOfCode_none]
  split
  · next h1 h2 h3 => exact (judges_accepted rfl s _).mono (by simp [h1, h2, h3])
  · next hn =>
    refine (judges_format s).mono (iff_true_intro ?_)
    by_contra hb
    simp only [not_or, ← Option.isSome_iff_ne_none] at hb
    obtain ⟨h1, h2, h3⟩ := hb
    obtain ⟨a, ha⟩ := Option.isSome_iff_exists.mp h1
    obtain ⟨b, hb⟩ := Option.isSome_iff_exists.mp h2
    obtain ⟨c, hc⟩ := Option.isSome_iff_exists.mp h3
    exact hn a b c ha hb hc

theorem judgeReadCues_judges (r : Request) (s : State) :
    Judges (r.params.length ≠ 1 ∨ 23 < paramAt r 0) (judgeReadCues r s) s := by
  refine judges_withLength fun _ => ?_
  have e0 : paramAt r 0 = byteAt r.params 0 := rfl
  rw [e0]
  split
  · next h => exact (judges_answer (readRefusal_other s) rfl).mono (by simp [h])
  · next h => exact (judges_format s).mono (by simp [Nat.lt_of_not_le h])

theorem judgeFire_judges (r : Request) (s : State) : Judges (r.params.length ≠ 1 ∨ False) (judgeFire r s) s := by
  refine judges_withLength fun _ => ?_
  split
  · exact judges_accepted rfl s _
  · exact judges_refused s (by simp)

theorem judgeMark_judges (r : Request) (s : State) : Judges (r.params.length ≠ 0 ∨ False) (judgeMark r s) s :=
  judges_withLength fun _ => judges_answer (by split <;> simp) rfl

theorem judgeMarkDrop_judges (r : Request) (s : State) : Judges (r.params.length ≠ 0 ∨ False) (judgeMarkDrop r s) s :=
  judges_withLength fun _ => judges_answer (by split <;> simp) rfl

/-- Every request's judgement. -/
theorem judgementOf_judges {c : Instr} {r : Request} (h : requestOf c = some r) (s : State) :
    Judges (badFormat (std s) c r) (judgementOf c s) s := by
  cases c <;> cases h
  case stop => exact judges_withLength fun _ => judges_answer (deckRefusal_other s) rfl
  case play => exact judges_withLength fun _ => judges_answer (motionRefusal_other s) rfl
  case shuttle => exact judges_withLength fun _ => judges_answer (motionRefusal_other s) (resultOf_accepts _)
  case locate => exact judgeLocate_judges r s
  case arm => exact judges_withLength fun _ => judges_answer (armRefusal_other s) rfl
  case chase => exact judgeChase_judges r s
  case unchase => exact judges_withLength fun _ => judges_answer (by simp) rfl
  case cueLoad => exact judgeCueLoad_judges r s
  case cueDrop => exact judges_withLength fun _ => judges_answer (dropRefusal_other _ s) rfl
  case cueClear => exact judges_withLength fun _ => judges_answer (by simp) rfl
  case fire => exact judgeFire_judges r s
  case abort => exact judges_withLength fun _ => judges_answer (by simp) rfl
  case fader => exact judges_withLength fun _ => judges_answer (faderRefusal_other s) (resultOf_accepts _)
  case mark => exact judgeMark_judges r s
  case markDrop => exact judgeMarkDrop_judges r s
  case locateMark => exact judgeLocateMark_judges r s
  case gpiBind => exact judgeGpiBind_judges r s
  case tallyMap => exact judgeTallyMap_judges r s
  case readStatus => exact judges_withLength fun _ => judges_answer (readRefusal_other s) rfl
  case readCues => exact judgeReadCues_judges r s
  case readMarks => exact judges_withLength fun _ => judges_answer (readRefusal_other s) rfl
  case clearFlags => exact judges_withLength fun _ => judges_answer (by simp) rfl
  case sessionClear => exact judges_withLength fun _ => judges_answer (by simp) rfl

/-! ### The two statements -/

theorem record_refused (r : Request) (x : ReqResult) (s : State) :
    record r.tag (x, received s) = (received s).setReq (requestRecord r x s) := rfl

/-- Settles O23: the judgement's result is recorded, and a refusal has kept its subject. -/
theorem requestsAreRecorded : Obligations.RequestsAreRecorded := by
  unfold Obligations.RequestsAreRecorded
  refine ⟨fun c r s h ht => ⟨_, (judgementOf c (received s)).1, exec_request_taken h ht, ?_⟩, fun c r s t h ht e hx => ?_⟩
  · have f : (judgementOf c (received s)).2.req = s.req := (judgementOf_frame h (received s)).same .req
    rw [record, requestRecord, ← f]
    rfl
  · rw [exec_request_taken h ht] at e
    cases e
    have hk := (judgementOf_judges h (received s)).keeps hx
    rw [← record_refused]
    exact congrArg (record r.tag) (Prod.ext rfl hk)

/-- Settles O24: bad parameters are refused for FORMAT and others are not, request by request. -/
theorem formatRefusals : Obligations.FormatRefusals := by
  unfold Obligations.FormatRefusals
  intro c r s h ht
  have hj := judgementOf_judges h (received s)
  rw [received_std] at hj
  refine ⟨fun hb => ?_, fun hb => ⟨_, exec_request_taken h ht, hj.passes hb⟩⟩
  rw [exec_request_taken h ht, hj.refuses hb, record_refused]

end Sys2Proof.Machine

/-! O25. Frames that bring the station no request. -/

namespace Sys2Proof.Machine

set_option Elab.async false

/-- Station n's bit of a TARGET of two characters, the high byte first (R184, Table 12.3). -/
def targetBit (n : Nat) (high low : Byte) : Bool := if n < 8 then low.getLsbD n else high.getLsbD (n - 8)

theorem addressed_bytes (high low : Byte) (s : State) :
    addressed (high ++ low) s = targetBit s.straps.station.val high low := by
  unfold addressed targetBit own
  rw [BitVec.getLsbD_append]

theorem addressed_target (r : Request) (s : State) :
    addressed (targetOf r) s = targetBit s.straps.station.val r.targetHigh r.targetLow := by
  rw [targetOf_eq, addressed_bytes]

/-- A request addressed elsewhere is taken off the line and nothing is recorded (R66). -/
theorem exec_request_elsewhere {c : Instr} {r : Request} {s : State} (h : requestOf c = some r) (hr : Running s)
    (hx : s.link.rx = .frame) (hf : foreignStandard r.source s = false) (ha : addressed (targetOf r) s = false) :
    exec c s = .next (received s) := by
  rw [exec_request h, inRun_of_running _ hr, takeRequest_elsewhere hx hf ha]

theorem exec_requestNotAddressed {source : Byte} {payload : List Byte} {s : State} (hr : Running s)
    (hx : s.link.rx = .frame) (hf : foreignStandard source s = false) (h : notTaken payload s = true) :
    exec (.requestNotAddressed source payload) s = .next (received s) := by
  show inRun (requestNotAddressed source payload) s = _
  rw [inRun_of_running _ hr, requestNotAddressed, if_pos h, arrive_taken hx hf]
  rfl

theorem notTaken_short {payload : List Byte} (h : payload.length < 4) (s : State) : notTaken payload s = true := by
  simp [notTaken, h]

theorem notTaken_elsewhere {high low : Byte} {rest : List Byte} {s : State}
    (h : targetBit s.straps.station.val high low = false) : notTaken (high :: low :: rest) s = true := by
  rw [notTaken, targetAt_cons, addressed_bytes, h]
  simp

theorem refusedUnknown_other {code : Byte} {r : Request} {s : State} (h : code ∉ requestCodes) :
    refusedUnknown code r s = takeRequest r (fun t => (.refusedUnknown, t)) s := by
  simp [refusedUnknown, h]

/-- Settles O25: the TARGET's bit, the requests it keeps from the station, the unknown code, and the other frames. -/
theorem framesThatAreNoRequest : Obligations.FramesThatAreNoRequest := by
  unfold Obligations.FramesThatAreNoRequest
  refine ⟨fun s => ⟨fun r => addressed_target r s, fun hr hx => ⟨fun c r hc hf hb => ?elsewhere,
    fun source hf => ⟨fun payload hl => ?short, fun high low rest hb => ?lacking⟩⟩⟩,
    fun code r s ht hc => ?unknown, fun kind source payload s hr hx hf => ⟨?report, ?other⟩⟩
  case elsewhere => exact exec_request_elsewhere hc hr hx hf ((addressed_target r s).trans hb)
  case short => exact exec_requestNotAddressed hr hx hf (notTaken_short hl s)
  case lacking => exact exec_requestNotAddressed hr hx hf (notTaken_elsewhere hb)
  case unknown =>
    show inRun (refusedUnknown code r) s = _
    rw [inRun_of_running _ ht.1, refusedUnknown_other hc, takeRequest_taken ht, record_refused]
  case report =>
    show inRun (arrive source id) s = _
    rw [inRun_of_running _ hr, arrive_taken hx hf]
    rfl
  case other =>
    show inRun (arrive source id) s = _
    rw [inRun_of_running _ hr, arrive_taken hx hf]
    rfl

end Sys2Proof.Machine

/-! SUPPORT and O26. STOP, PLAY and SHUTTLE: their checks, and a command taken from a request. -/

namespace Sys2Proof.Machine

set_option Elab.async false

/-! ### Requests that write the transport -/

theorem Frame.self_command {s t : State} (h : Frame [.req, .transport, .lines, .cues, .samples, .flags] s t) :
    t = (((s.setReq t.req).setTr t.tr).setCues t.cues).setFlags t.flags :=
  State.eq_of_fields (h.same .power) (h.same .straps) (h.same .pins) (h.same .time) (h.same .pos) (h.same .peers)
    rfl (h.same .link) rfl (h.same .chase) rfl (h.same .fader) (h.same .mix) h.gpi (h.same .marks) rfl
    (h.same .choices) (h.same .pending)

theorem Frame.self_disable {s t : State} (h : Frame [.req, .chase, .transport, .lines, .cues, .samples, .flags] s t) :
    t = ((((s.setReq t.req).setChase t.chase).setTr t.tr).setCues t.cues).setFlags t.flags :=
  State.eq_of_fields (h.same .power) (h.same .straps) (h.same .pins) (h.same .time) (h.same .pos) (h.same .peers)
    rfl (h.same .link) rfl rfl rfl (h.same .fader) (h.same .mix) h.gpi (h.same .marks) rfl
    (h.same .choices) (h.same .pending)

theorem received_same (s : State) : RecordSame s (received s) := ⟨rfl, rfl, rfl, rfl⟩

theorem RecordBroken.request {s t : State} (h : RecordBroken (received s) t) (x : RequestUnit) :
    RecordBroken s (t.setReq x) := h.congr (received_same s).symm rfl rfl rfl

theorem RecordKept.request {s t : State} (h : RecordKept (received s) t) (x : RequestUnit) :
    RecordKept s (t.setReq x) := h.congr rfl rfl rfl rfl rfl rfl

/-- An accepted judgement, recorded. -/
theorem exec_accepted {c : Instr} {r : Request} {result : ReqResult} {effect : State → State} {s : State}
    (h : requestOf c = some r) (ht : Taken r s)
    (hj : judgementOf c (received s) = (result, effect (received s))) :
    exec c s = .next ((effect (received s)).setReq (requestRecord r result s)) := by
  have f : (judgementOf c (received s)).2.req = s.req := (judgementOf_frame h (received s)).same .req
  rw [hj] at f
  rw [exec_request_taken h ht, hj, record, requestRecord, ← f]

theorem exec_refused {c : Instr} {r : Request} {x : ReqResult} {s : State} (h : requestOf c = some r) (ht : Taken r s)
    (hj : judgementOf c (received s) = (x, received s)) :
    exec c s = .next ((received s).setReq (requestRecord r x s)) := by
  rw [exec_request_taken h ht, hj, record_refused]

/-! ### The checks of the transport requests -/

theorem deckRefusal_live {s : State} (h : role s = .live) : deckRefusal s = some .refusedRole := if_pos h

theorem not_live_of_local {s : State} (h : transportState s = .localControl) : role s ≠ .live := by
  intro k
  rw [transportState, if_pos k] at h
  cases h

theorem deckRefusal_local {s : State} (h : transportState s = .localControl) : deckRefusal s = some .refusedLocal := by
  rw [deckRefusal, if_neg (not_live_of_local h), if_pos h]

theorem deckRefusal_none {s : State} (h : role s ≠ .live) (hl : transportState s ≠ .localControl) :
    deckRefusal s = none := by
  rw [deckRefusal, if_neg h, if_neg hl]

theorem motionRefusal_deck {x : ReqResult} {s : State} (h : deckRefusal s = some x) : motionRefusal s = some x := by
  rw [motionRefusal, h]

theorem motionRefusal_state {s : State} (h : deckRefusal s = none)
    (hs : s.chase.state ≠ .free ∨ transportState s = .offline) : motionRefusal s = some .refusedState := by
  rw [motionRefusal, h]
  exact if_pos hs

theorem motionRefusal_none {s : State} (h : deckRefusal s = none) (hc : s.chase.state = .free)
    (hs : transportState s ≠ .offline) : motionRefusal s = none := by
  rw [motionRefusal, h]
  exact if_neg (by simp [hc, hs])

/-- A deck that takes commands is in neither OFFLINE nor LOCAL. -/
theorem ready_states {s : State} (h : deckReady s = true) :
    transportState s ≠ .offline ∧ transportState s ≠ .localControl := by
  rw [transportState_ready h]
  split
  · simp
  · unfold driveState
    split
    · split <;> simp
    · repeat' split
      all_goals simp

theorem motionRefusal_ready {s : State} (h : deckReady s = true) (hc : s.chase.state = .free) :
    motionRefusal s = none := by
  obtain ⟨hrole, -, -⟩ := (deckReady_iff s).mp h
  obtain ⟨ho, hl⟩ := ready_states h
  exact motionRefusal_none (deckRefusal_none hrole hl) hc ho

/-- STOP, PLAY, SHUTTLE, LOCATE MARK and LOCATE, with parameters that pass FORMAT. -/
def TransportRequest (x : Standard) (c : Instr) (r : Request) : Prop :=
  (c = .stop r ∧ r.params.length = 0) ∨ (c = .play r ∧ r.params.length = 0)
    ∨ (c = .shuttle r ∧ r.params.length = 2) ∨ (c = .locateMark r ∧ r.params.length = 0)
    ∨ (c = .locate r ∧ r.params.length = 4 ∧ labelValid x (labelFrom r 0) = true)

theorem TransportRequest.request {x : Standard} {c : Instr} {r : Request} (h : TransportRequest x c r) :
    requestOf c = some r := by
  obtain ⟨rfl, -⟩ | ⟨rfl, -⟩ | ⟨rfl, -⟩ | ⟨rfl, -⟩ | ⟨rfl, -⟩ := h <;> rfl

theorem motion_refused {c : Instr} {r : Request} {x : ReqResult} {s : State} (h : TransportRequest (std s) c r)
    (hc : c ≠ .stop r) (hx : motionRefusal s = some x) : judgementOf c s = (x, s) := by
  obtain ⟨rfl, -⟩ | ⟨rfl, hn⟩ | ⟨rfl, hn⟩ | ⟨rfl, hn⟩ | ⟨rfl, hn, hv⟩ := h
  · exact absurd rfl hc
  · show judgePlay r s = _
    rw [judgePlay, withLength_ok _ hn, hx]; rfl
  · show judgeShuttle r s = _
    rw [judgeShuttle, withLength_ok _ hn, hx]; rfl
  · show judgeLocateMark r s = _
    rw [judgeLocateMark, withLength_ok _ hn, hx]
  · show judgeLocate r s = _
    have e : labelAt r.params 0 = labelFrom r 0 := rfl
    rw [judgeLocate, withLength_ok _ hn, e, readLabel_valid hv, hx]; rfl

theorem deck_refused {c : Instr} {r : Request} {x : ReqResult} {s : State} (h : TransportRequest (std s) c r)
    (hx : deckRefusal s = some x) : judgementOf c s = (x, s) := by
  by_cases hc : c = .stop r
  · subst hc
    obtain ⟨-, hn⟩ | ⟨k, -⟩ | ⟨k, -⟩ | ⟨k, -⟩ | ⟨k, -⟩ := h
    · show judgeStop r s = _
      rw [judgeStop, withLength_ok _ hn, hx]; rfl
    all_goals cases k
  · exact motion_refused h hc (motionRefusal_deck hx)

/-! ### A command taken -/

/-- The station t once a deck has taken a command in s (R87, R96). -/
structure CommandTaken (c : Command) (s t : State) : Prop where
  command : t.tr.command = c
  locate : t.tr.locate = none
  mark : t.tr.parkedMark = markAfter s.tr.parkedMark c
  armed : t.tr.armed = s.tr.armed
  released : transportState t ≠ .play → t.tr.punch = none
  broken : s.tr.punch.isSome = true → transportState t ≠ .play → RecordBroken s t
  kept : s.tr.punch = none ∨ transportState t = .play → RecordKept s t

theorem takeCommand_taken {c : Command} {s : State} (h : deckReady s = true) : CommandTaken c s (takeCommand c s) := by
  rw [takeCommand_ready h]
  have htr : (breakRecord (commanded c s)).tr = _ := breakRecord_tr (commanded c s)
  have hst := breakRecord_state (commanded c s)
  exact ⟨by rw [htr]; rfl, by rw [htr]; rfl, by rw [htr]; rfl, by rw [htr]; rfl, fun k => breakRecord_released (hst ▸ k),
    fun hp k => breakRecord_broken (commanded_same c s) hp (hst ▸ k),
    fun k => breakRecord_keeps (commanded_same c s) rfl (hst ▸ k)⟩

theorem CommandTaken.request {c : Command} {s t : State} (h : CommandTaken c (received s) t) (x : RequestUnit) :
    CommandTaken c s (t.setReq x) :=
  ⟨h.command, h.locate, h.mark, h.armed, h.released, fun hp k => (h.broken hp k).request x, fun k => (h.kept k).request x⟩

/-- Two characters as a signed number, the high byte first (R184). -/
theorem signedWord_bytes (hi lo : Byte) : signedWord (wordAt [hi, lo] 0) = (hi ++ lo).toInt := by
  have h : (hi ++ lo).toNat = wordAt [hi, lo] 0 := by
    rw [← targetAt_cons hi lo [], targetAt, BitVec.toNat_ofNat]
    refine Nat.mod_eq_of_lt ?_
    have := hi.isLt
    have := lo.isLt
    show 256 * hi.toNat + lo.toNat < 2 ^ 16
    omega
  rw [BitVec.toInt_eq_toNat_cond, h, signedWord]
  have : wordAt [hi, lo] 0 < 65536 := h ▸ (hi ++ lo).isLt
  split <;> split <;> omega

theorem judgeShuttle_accepted {r : Request} {hi lo : Byte} {s : State} (hp : r.params = [hi, lo])
    (h : motionRefusal s = none) :
    judgeShuttle r s
      = (if clampInt (-12800) 12800 (hi ++ lo).toInt = (hi ++ lo).toInt then .ok else .clamped,
          takeCommand (.speed (clampInt (-12800) 12800 (hi ++ lo).toInt)) s) := by
  have hs : shuttleSpeed r = (hi ++ lo).toInt := by rw [shuttleSpeed, hp]; exact signedWord_bytes hi lo
  have hc : shuttleClamped r = clampInt (-12800) 12800 (hi ++ lo).toInt := by rw [shuttleClamped, hs]
  rw [judgeShuttle, withLength_ok _ (by rw [hp]; rfl), h, hc, hs, answer, resultOf]
  split <;> split <;> simp_all

theorem judgePlay_accepted {r : Request} {s : State} (hp : r.params = []) (h : motionRefusal s = none) :
    judgePlay r s = (.ok, takeCommand (.speed 256) s) := by
  rw [judgePlay, withLength_ok _ (by rw [hp]; rfl), h]
  rfl

theorem judgeStop_accepted {r : Request} {s : State} (hp : r.params = []) (h : deckRefusal s = none) :
    judgeStop r s = (.ok, commandStop s) := by
  rw [judgeStop, withLength_ok _ (by rw [hp]; rfl), h]
  rfl

/-! ### STOP -/

/-- Disabling the chase (R114). -/
theorem disableChase_of_free {s : State} (h : s.chase.state = .free) : disableChase s = s := if_pos h

theorem disableChase_of_enabled {s : State} (h : s.chase.state ≠ .free) : disableChase s = freeChase s := if_neg h

theorem disableChase_chase (s : State) :
    (disableChase s).chase.state = .free ∧ (disableChase s).chase.offset = s.chase.offset
      ∧ (s.chase.state = .free → (disableChase s).chase = s.chase)
      ∧ (s.chase.state ≠ .free → (disableChase s).chase.lead = own s) := by
  by_cases h : s.chase.state = .free
  · rw [disableChase_of_free h]
    exact ⟨h, rfl, fun _ => rfl, fun k => absurd h k⟩
  · rw [disableChase_of_enabled h]
    exact ⟨rfl, rfl, fun k => absurd k h, fun _ => rfl⟩

theorem disableChase_self (s : State) : disableChase s = s.setChase (disableChase s).chase := by
  obtain ⟨a, h⟩ := disableChase_touches s
  rw [h]
  rfl

theorem disableChase_ready (s : State) : deckReady (disableChase s) = deckReady s := by
  rw [disableChase_self]
  rfl

theorem disableChase_same (s : State) : RecordSame s (disableChase s) := by
  rw [disableChase_self]
  exact ⟨rfl, rfl, rfl, rfl⟩

theorem takeCommand_chase (c : Command) (s : State) : (takeCommand c s).chase = s.chase :=
  (takeCommand_frame c s).same .chase

theorem commandStop_taken {s : State} (h : deckReady s = true) : CommandTaken .stop (disableChase s) (commandStop s) :=
  takeCommand_taken ((disableChase_ready s).trans h)

theorem commandStop_unready {s : State} (h : deckReady s = false) : commandStop s = disableChase s :=
  takeCommand_of_not_ready ((disableChase_ready s).trans h)

theorem commandStop_chase (s : State) : (commandStop s).chase = (disableChase s).chase := takeCommand_chase _ _

/-- A STOP that a deck has taken ends every record (R96). -/
theorem commandStop_record {s : State} (h : deckReady s = true) :
    (commandStop s).tr.punch = none ∧ (s.tr.punch.isSome = true → RecordBroken s (commandStop s))
      ∧ (s.tr.punch = none → RecordKept s (commandStop s)) := by
  have k := commandStop_taken h
  have hstop : transportState (commandStop s) ≠ .play := stopped_not_play k.locate k.command
  have e := disableChase_same s
  refine ⟨k.released hstop, fun hp => (k.broken (by rw [e.punch]; exact hp) hstop).congr e.symm rfl rfl rfl, fun hp => ?_⟩
  refine (k.kept (.inl (by rw [e.punch]; exact hp))).congr e.punch.symm e.cues.symm ?_ rfl rfl rfl
  rw [disableChase_self]
  rfl

/-- Settles O26: the checks in their order, then PLAY and SHUTTLE as commands taken, then STOP. -/
theorem transportCommandRequests : Obligations.TransportCommandRequests := by
  unfold Obligations.TransportCommandRequests
  refine ⟨fun c r s ht hc => ⟨fun hl => ?live, fun hl => ?inLocal, fun hns hl hlc hst => ?state⟩,
    fun c r v result s ht hrole hth hlo hfree hc => ?speeds, fun r s ht hp hrole hlo => ?stop⟩
  case live => exact exec_refused (TransportRequest.request hc) ht (deck_refused hc (deckRefusal_live hl))
  case inLocal => exact exec_refused (TransportRequest.request hc) ht (deck_refused hc (deckRefusal_local hl))
  case state =>
    exact exec_refused (TransportRequest.request hc) ht
      (motion_refused hc hns (motionRefusal_state (deckRefusal_none hl hlc) hst))
  case speeds =>
    have hready : deckReady (received s) = true := (deckReady_iff s).mpr ⟨hrole, hth, hlo⟩
    have hm : motionRefusal (received s) = none := motionRefusal_ready hready hfree
    have hj : requestOf c = some r ∧ judgementOf c (received s) = (result, takeCommand (.speed v) (received s)) := by
      obtain ⟨rfl, hp, rfl, rfl⟩ | ⟨hi, lo, rfl, hp, rfl, rfl⟩ := hc
      · exact ⟨rfl, judgePlay_accepted hp hm⟩
      · exact ⟨rfl, judgeShuttle_accepted hp hm⟩
    have k := (takeCommand_taken (c := .speed v) hready).request (requestRecord r result s)
    exact ⟨_, exec_accepted hj.1 ht hj.2, rfl, k.command, k.locate, k.mark, k.armed, k.released, k.broken, k.kept,
      ((takeCommand_frame (.speed v) (received s)).trans (setReq_frame _ _)).mono.self_command⟩
  case stop =>
    have hj : judgementOf (.stop r) (received s) = (.ok, commandStop (received s)) :=
      judgeStop_accepted hp (deckRefusal_none (s := received s) hrole hlo)
    have hch := commandStop_chase (received s)
    obtain ⟨h1, h2, h3, h4⟩ := disableChase_chase (received s)
    rw [← hch] at h1 h2 h3 h4
    have hlocal (hth : s.pins.threaded = true) : deckReady (received s) = true := by
      refine (deckReady_iff s).mpr ⟨hrole, hth, ?_⟩
      by_contra hl
      exact hlo (by simp [transportState, hrole, hth, hl])
    have hun (hth : s.pins.threaded = false) : deckReady (received s) = false := by simp [deckReady, hth]
    have hidle (hth : s.pins.threaded = false) : commandStop (received s) = disableChase (received s) :=
      commandStop_unready (hun hth)
    refine ⟨_, exec_accepted rfl ht hj, rfl, h1, h2, h3, h4, fun hth => ?_, fun hth => ?_, ?_, fun hth hpu => ?_,
      fun hk => ?_, ((commandStop_frame (received s)).trans (setReq_frame _ _)).mono.self_disable⟩
    · have k := commandStop_taken (hlocal hth)
      have hmark := k.mark
      rw [disableChase_self] at hmark
      exact ⟨k.command, k.locate, hmark, (commandStop_record (hlocal hth)).1⟩
    · show (commandStop (received s)).tr = s.tr
      rw [hidle hth, disableChase_self]
      rfl
    · show (commandStop (received s)).tr.armed = s.tr.armed
      cases hd : deckReady (received s) with
      | true =>
        have k := (commandStop_taken hd).armed
        rw [disableChase_self] at k
        exact k
      | false =>
        rw [commandStop_unready hd, disableChase_self]
        rfl
    · exact ((commandStop_record (hlocal hth)).2.1 hpu).request _
    · cases hd : deckReady (received s) with
      | true =>
        refine ((commandStop_record hd).2.2 (hk.resolve_left fun hth => ?_)).request _
        rw [hun hth] at hd
        cases hd
      | false =>
        rw [commandStop_unready hd, disableChase_self]
        exact ⟨rfl, rfl, rfl⟩

end Sys2Proof.Machine

/-! SUPPORT, O27 and O45. A locate given by a request; ARM; the Mark Stack's requests. -/

namespace Sys2Proof.Machine

set_option Elab.async false

/-! ### A locate given -/

/-- The station t and its locate l once a deck has been given a locate in s (R89, R91, R96). -/
structure LocateTaken (skips : Option Word16) (target : Nat) (s t : State) (l : Locate) : Prop where
  locate : t.tr.locate = some l
  target : l.target = target
  attempts : l.attempts = 0
  settle : l.settle = 0
  eot : l.eotCount = 0
  skips : l.skips = skips
  state : transportState t = .locating
  started : s.tr.locate = none →
    l.records = 0 ∧ t.tr.parkedMark = false ∧ t.tr.punch = none
      ∧ (s.tr.punch.isSome = true → RecordBroken s t) ∧ (s.tr.punch = none → RecordKept s t)
      ∧ (s.pos.record.quality = .none → l.phase = .acquire ∧ l.drive = .speed 256)
      ∧ (s.pos.record.quality ≠ .none → l.phase = .drive ∧ l.drive = s.tr.command)
  retargeted : ∀ o, s.tr.locate = some o →
    l.records = o.records ∧ l.drive = o.drive ∧ l.phase = (if o.phase = .acquire then .acquire else .drive)
      ∧ t.tr.parkedMark = s.tr.parkedMark ∧ RecordKept s t
  command : t.tr.command = s.tr.command
  armed : t.tr.armed = s.tr.armed

theorem giveLocate_taken {skips : Option Word16} {target : Nat} {s : State} (h : deckReady s = true) :
    ∃ l, LocateTaken skips target s (giveLocate skips target s) l := by
  cases hl : s.tr.locate with
  | some o =>
    rw [giveLocate_retarget h hl]
    refine ⟨o.retarget skips target, rfl, rfl, rfl, rfl, rfl, rfl, ?_, fun k => ?_, fun p hp => ?_, rfl, rfl⟩
    · exact transportState_ready (s := s.setTr _) h
    · rw [hl] at k; cases k
    · rw [hl] at hp
      cases hp
      exact ⟨rfl, rfl, rfl, rfl, rfl, rfl, rfl⟩
  | none =>
    rw [giveLocate_start h hl]
    have hstate := located_state (skips := skips) (target := target) h
    have hn : transportState (located skips target s) ≠ .play := by rw [hstate]; simp
    have htr : (breakRecord (located skips target s)).tr = _ := breakRecord_tr (located skips target s)
    have same := located_same skips target s
    refine ⟨Locate.start skips target s.pos.record.quality s.tr.command, by rw [htr]; rfl, rfl, rfl, rfl, rfl, rfl,
      (breakRecord_state _).trans hstate, fun _ => ⟨rfl, by rw [htr]; rfl, breakRecord_released hn,
        fun hp => breakRecord_broken same hp hn, fun hp => breakRecord_keeps same rfl (.inl hp),
        fun hq => ?_, fun hq => ?_⟩, fun o hp => ?_, by rw [htr]; rfl, by rw [htr]; rfl⟩
    · simp [Locate.start, hq]
    · simp [Locate.start, hq]
    · rw [hl] at hp; cases hp

/-! ### LOCATE and ARM -/

theorem judgeLocate_accepted {r : Request} {s : State} (hn : r.params.length = 4)
    (hv : labelValid (std s) (labelFrom r 0) = true) (h : motionRefusal s = none) :
    judgeLocate r s
      = (if labelOmitted (std s) (labelFrom r 0) then .clamped else .ok,
          takeLocate (requestCount (std s) (labelFrom r 0)) s) := by
  have e : labelAt r.params 0 = labelFrom r 0 := rfl
  rw [judgeLocate, withLength_ok _ hn, e, readLabel_valid hv, h]
  rfl

theorem judgeArm_one {r : Request} {tracks : Byte} (hp : r.params = [tracks]) (s : State) :
    judgeArm r s = answer (armRefusal s) .ok (setArmed (tracks.setWidth 4)) s := by
  have e : BitVec.ofNat 4 (byteAt r.params 0) = tracks.setWidth 4 := by
    rw [hp]
    exact BitVec.ofNat_toNat 4 tracks
  rw [judgeArm, withLength_ok _ (by rw [hp]; rfl), e]

theorem armRefusal_role {s : State} (h : role s ≠ .recorder) : armRefusal s = some .refusedRole := if_pos h

theorem armRefusal_active {s : State} (h : role s = .recorder) (ha : (activeRecord s).isSome = true) :
    armRefusal s = some .refusedState := by
  rw [armRefusal, if_neg (by simp [h]), if_pos ha]

theorem armRefusal_none {s : State} (h : role s = .recorder) (ha : activeRecord s = none) : armRefusal s = none := by
  rw [armRefusal, if_neg (by simp [h]), if_neg (by simp [ha])]

/-- Settles O27: LOCATE as a locate given, and ARM by its checks. -/
theorem locateAndArmRequests : Obligations.LocateAndArmRequests := by
  unfold Obligations.LocateAndArmRequests
  refine ⟨fun r h m sec f s ht hrole hth hlo hfree hp => ?locate,
    fun r tracks s ht hp => ⟨fun hr ha => ?arm, fun hr => ?role, fun hr ha => ?active⟩⟩
  case locate =>
    intro label hv
    have el : labelFrom r 0 = label := by unfold labelFrom paramAt; rw [hp]; rfl
    have hready : deckReady (received s) = true := (deckReady_iff s).mpr ⟨hrole, hth, hlo⟩
    have hj : judgementOf (.locate r) (received s) = _ := judgeLocate_accepted (s := received s) (by rw [hp]; rfl)
      (by rw [el]; exact hv) (motionRefusal_ready hready hfree)
    rw [el] at hj
    obtain ⟨l, k⟩ := giveLocate_taken (skips := some s.time.fieldCount) (target := requestCount (std s) label) hready
    refine ⟨_, l, exec_accepted rfl ht hj, k.locate, rfl, k.target, k.attempts, k.settle, k.eot, k.skips, k.state,
      fun hl => ?_, fun o ho => ?_, k.command, k.armed,
      ((giveLocate_frame _ _ (received s)).trans (setReq_frame _ _)).mono.self_command⟩
    · obtain ⟨h1, h2, h3, h4, h5, h6, h7⟩ := k.started hl
      exact ⟨h1, h2, h3, fun q => (h4 q).request _, fun q => (h5 q).request _, h6, h7⟩
    · obtain ⟨h1, h2, h3, h4, h5⟩ := k.retargeted o ho
      exact ⟨h1, h2, h3, h4, h5.request _⟩
  case arm =>
    refine exec_accepted (effect := setArmed (tracks.setWidth 4)) rfl ht ?_
    rw [show judgementOf (.arm r) (received s) = judgeArm r (received s) from rfl, judgeArm_one hp,
      armRefusal_none (s := received s) hr ha]
    rfl
  case role =>
    refine exec_refused rfl ht ?_
    rw [show judgementOf (.arm r) (received s) = judgeArm r (received s) from rfl, judgeArm_one hp,
      armRefusal_role (s := received s) hr]
    rfl
  case active =>
    refine exec_refused rfl ht ?_
    rw [show judgementOf (.arm r) (received s) = judgeArm r (received s) from rfl, judgeArm_one hp,
      armRefusal_active (s := received s) hr ha]
    rfl

/-! ### Marks -/

/-- The mark of the own position (R180). -/
def markNow (origin : Origin) (s : State) : Mark :=
  { frame := s.pos.record.position / 512, phase := s.pos.record.position % 512, quality := s.pos.record.quality
    origin := origin }

theorem pushMark_room {origin : Origin} {s : State} (hq : s.pos.record.quality ≠ .none) (h : s.marks.length < 8) :
    pushMark origin s = s.setMarks (markNow origin s :: s.marks) := by
  rw [pushMark]
  exact (if_neg hq).trans (if_neg (Nat.not_le.mpr h))

theorem pushMark_full {origin : Origin} {s : State} (hq : s.pos.record.quality ≠ .none) (h : 8 ≤ s.marks.length) :
    pushMark origin s = setFlag .markLost (s.setMarks (markNow origin s :: s.marks.take 7)) := by
  rw [pushMark]
  exact (if_neg hq).trans (if_pos h)

theorem pushMark_none {origin : Origin} {s : State} (hq : s.pos.record.quality = .none) : pushMark origin s = s := by
  rw [pushMark]
  exact if_pos hq

theorem judgeMark_empty {r : Request} (hp : r.params = []) (s : State) :
    judgeMark r s
      = answer (if s.pos.record.quality = .none then some .refusedState else none) .ok (pushMark .request) s := by
  rw [judgeMark, withLength_ok _ (by rw [hp]; rfl)]

theorem judgeMark_accepted {r : Request} {s : State} (hp : r.params = []) (hq : s.pos.record.quality ≠ .none) :
    judgeMark r s = (.ok, pushMark .request s) := by
  rw [judgeMark_empty hp, if_neg hq]
  rfl

theorem judgeMarkDrop_empty {r : Request} (hp : r.params = []) (s : State) :
    judgeMarkDrop r s = answer (if s.marks.isEmpty then some .refusedState else none) .ok popMark s := by
  rw [judgeMarkDrop, withLength_ok _ (by rw [hp]; rfl)]

theorem judgeLocateMark_stack {r : Request} {s : State} (hp : r.params = []) (h : motionRefusal s = none) :
    judgeLocateMark r s
      = match s.marks with
        | [] => (.refusedState, s)
        | m :: _ => (.ok, takeLocate m.frame (popMark s)) := by
  rw [judgeLocateMark, withLength_ok _ (by rw [hp]; rfl), h]
  cases s.marks <;> rfl

theorem Frame.self_markCommand {s t : State} (h : Frame [.req, .transport, .lines, .cues, .samples, .marks, .flags] s t) :
    t = ((((s.setReq t.req).setMarks t.marks).setTr t.tr).setCues t.cues).setFlags t.flags :=
  State.eq_of_fields (h.same .power) (h.same .straps) (h.same .pins) (h.same .time) (h.same .pos) (h.same .peers)
    rfl (h.same .link) rfl (h.same .chase) rfl (h.same .fader) (h.same .mix) h.gpi rfl rfl
    (h.same .choices) (h.same .pending)

/-- Settles O45: each request by what stands on the stack. -/
theorem markRequests : Obligations.MarkRequests := by
  unfold Obligations.MarkRequests
  intro r s ht hp entry
  refine ⟨fun hq => ?refused, fun hq hn => ?push, fun hq hn => ?lost, fun hm => ?dropRefused, fun m rest hm => ?drop,
    fun hm hrole hth hlo hfree => ?locateRefused, fun m rest hm hrole hth hlo hfree => ?locate⟩
  case refused =>
    refine exec_refused rfl ht ?_
    rw [show judgementOf (.mark r) (received s) = judgeMark r (received s) from rfl, judgeMark_empty hp,
      if_pos (show (received s).pos.record.quality = .none from hq)]
    rfl
  case push =>
    refine (exec_accepted (c := .mark r) (effect := pushMark .request) rfl ht (judgeMark_accepted (s := received s) hp hq)).trans ?_
    rw [pushMark_room (s := received s) hq hn]
    rfl
  case lost =>
    refine (exec_accepted (c := .mark r) (effect := pushMark .request) rfl ht (judgeMark_accepted (s := received s) hp hq)).trans ?_
    rw [pushMark_full (s := received s) hq (Nat.le_of_eq hn.symm), setFlag_touches]
    rfl
  case dropRefused =>
    refine exec_refused rfl ht ?_
    rw [show judgementOf (.markDrop r) (received s) = judgeMarkDrop r (received s) from rfl, judgeMarkDrop_empty hp,
      received_marks, hm]
    rfl
  case drop =>
    have hj : judgementOf (.markDrop r) (received s) = (.ok, popMark (received s)) := by
      rw [show judgementOf (.markDrop r) (received s) = judgeMarkDrop r (received s) from rfl, judgeMarkDrop_empty hp,
        received_marks, hm]
      rfl
    refine (exec_accepted rfl ht hj).trans ?_
    rw [popMark, received_marks, hm]
    rfl
  case locateRefused =>
    refine exec_refused rfl ht ?_
    have hready : deckReady (received s) = true := (deckReady_iff s).mpr ⟨hrole, hth, hlo⟩
    rw [show judgementOf (.locateMark r) (received s) = judgeLocateMark r (received s) from rfl,
      judgeLocateMark_stack hp (motionRefusal_ready hready hfree), received_marks, hm]
  case locate =>
    have hready : deckReady (received s) = true := (deckReady_iff s).mpr ⟨hrole, hth, hlo⟩
    have hready' : deckReady (popMark (received s)) = true := hready
    have hj : judgementOf (.locateMark r) (received s) = (.ok, takeLocate m.frame (popMark (received s))) := by
      rw [show judgementOf (.locateMark r) (received s) = judgeLocateMark r (received s) from rfl,
        judgeLocateMark_stack hp (motionRefusal_ready hready hfree), received_marks, hm]
    obtain ⟨l, k⟩ := giveLocate_taken (skips := some s.time.fieldCount) (target := m.frame) hready'
    have hmarks : (takeLocate m.frame (popMark (received s))).marks = rest := by
      have f := (giveLocate_frame (some s.time.fieldCount) m.frame (popMark (received s))).same .marks
      exact Eq.trans f (by rw [popMark, received_marks, hm]; rfl)
    have hsame : RecordSame s (popMark (received s)) := ⟨rfl, rfl, rfl, rfl⟩
    refine ⟨_, l, exec_accepted (effect := fun u => takeLocate m.frame (popMark u)) rfl ht hj, rfl, hmarks, k.locate,
      k.target, k.attempts, k.settle, k.eot, k.skips, k.state, k.command, k.armed, fun hl => ?_, fun o ho => ?_,
      (((setMarks_frame (received s) _).trans (giveLocate_frame _ _ _)).trans (setReq_frame _ _)).mono.self_markCommand⟩
    · obtain ⟨h1, h2, h3, h4, h5, h6, h7⟩ := k.started hl
      exact ⟨h1, h2, h3, fun q => (h4 q).congr hsame.symm rfl rfl rfl, fun q => (h5 q).congr rfl rfl rfl rfl rfl rfl,
        h6, h7⟩
    · obtain ⟨h1, h2, h3, h4, h5⟩ := k.retargeted o ho
      exact ⟨h1, h2, h3, h4, h5.congr rfl rfl rfl rfl rfl rfl⟩

end Sys2Proof.Machine

/-! O28 and O29. CHASE and UNCHASE. -/

namespace Sys2Proof.Machine

set_option Elab.async false

/-! ### The offset -/

/-- The signed reading of a held offset is the count sent, but past half a day, and at half a day sent as minus (R15). -/
theorem signedReading_held (x : Standard) (minus : Bool) {c : Nat} (h : c < x.fpd) :
    signedReading x (heldOffset x minus c) ≠ signedCount minus c ↔ x.fpd / 2 < c ∨ (2 * c = x.fpd ∧ minus = true) := by
  have heven : x.fpd % 2 = 0 := by cases x <;> rfl
  unfold signedReading heldOffset signedCount
  generalize x.fpd = d at *
  cases minus with
  | false =>
    have ho : ((c : Int) % (d : Int)).toNat = c := by
      rw [Int.emod_eq_of_lt (by omega) (by omega), Int.toNat_natCast]
    simp only [Bool.false_eq_true, if_false, ho, and_false, or_false]
    split <;> omega
  | true =>
    by_cases hc : c = 0
    · subst hc
      simp only [Nat.cast_zero, neg_zero, ite_self, Int.zero_emod, Int.toNat_zero]
      simp
      omega
    · have ho : ((-(c : Int)) % (d : Int)).toNat = d - c := by
        rw [← Int.add_emod_right, Int.emod_eq_of_lt (by omega) (by omega)]
        omega
      simp only [if_true, ho, and_true]
      split <;> omega

theorem offsetCoerced_iff (x : Standard) (minus : Bool) {c : Coerced Nat} (h : c.value < x.fpd) :
    offsetCoerced x minus c = true
      ↔ c.coerced = true ∨ x.fpd / 2 < c.value ∨ (2 * c.value = x.fpd ∧ minus = true) := by
  rw [← signedReading_held x minus h]
  simp [offsetCoerced]

/-! ### CHASE -/

/-- The parameters of a CHASE of a station with a label that passes FORMAT. -/
theorem judgeChase_six {r : Request} {lead : Station} {minus : Bool} {h m sec f : Byte} {s : State}
    (hp : r.params = [BitVec.ofNat 8 lead.val, (if minus then 1 else 0), h, m, sec, f])
    (hv : labelValid (std s) { hours := h.toNat, minutes := m.toNat, seconds := sec.toNat, frames := f.toNat } = true) :
    judgeChase r s
      = judgeChaseWith lead minus
          { value := requestCount (std s) { hours := h.toNat, minutes := m.toNat, seconds := sec.toNat, frames := f.toNat }
            coerced := labelOmitted (std s)
              { hours := h.toNat, minutes := m.toNat, seconds := sec.toNat, frames := f.toNat } } s := by
  have hlead : (BitVec.ofNat 8 lead.val).toNat = lead.val :=
    (BitVec.toNat_ofNat ..).trans (Nat.mod_eq_of_lt (by have := lead.isLt; omega))
  have e0 : byteAt r.params 0 = lead.val := by rw [hp]; exact hlead
  have e1 : flagOfCode (byteAt r.params 1) = some minus := by rw [hp]; cases minus <;> rfl
  have e2 : labelAt r.params 2
      = { hours := h.toNat, minutes := m.toNat, seconds := sec.toNat, frames := f.toNat } := by rw [hp]; rfl
  have hst : stationOf lead.val = lead := Fin.ofNat_val_eq_self lead
  rw [judgeChase, withLength_ok _ (by rw [hp]; rfl), e0, e1, e2, readLabel_valid hv, hst]
  exact if_pos (Nat.le_of_lt_succ lead.isLt)

theorem chaseRefusal_active {s : State} (h : (activeRecord s).isSome = true) : chaseRefusal s = some .refusedState :=
  if_pos h

theorem chaseRefusal_none {s : State} (h : activeRecord s = none) : chaseRefusal s = none := by
  simp [chaseRefusal, h]

theorem chaseLead_repeated {lead : Station} {offset : Nat} {s : State}
    (h : s.chase.state ≠ .free ∧ s.chase.lead = lead ∧ s.chase.offset = offset) : chaseLead lead offset s = s := if_pos h

theorem chaseLead_new {lead : Station} {offset : Nat} {s : State}
    (h : ¬(s.chase.state ≠ .free ∧ s.chase.lead = lead ∧ s.chase.offset = offset)) :
    chaseLead lead offset s = startChase lead offset s := if_neg h

theorem chaseLead_self (lead : Station) (offset : Nat) (s : State) :
    chaseLead lead offset s = s.setChase (chaseLead lead offset s).chase := by
  unfold chaseLead
  split <;> rfl

/-- Settles O28: the check, the result by the offset's coercion, and the lead taken up or found taken up. -/
theorem chaseRequest : Obligations.ChaseRequest := by
  unfold Obligations.ChaseRequest
  intro r lead minus h m sec f s ht hp label c o hv hne
  have hlt : c < (std s).fpd := requestCount_lt hv
  have hj : judgementOf (.chase r) (received s)
      = answer (chaseRefusal (received s))
          (resultOf (offsetCoerced (std s) minus { value := c, coerced := labelOmitted (std s) label }))
          (chaseLead lead o) (received s) := by
    refine (judgeChase_six (s := received s) hp hv).trans ?_
    exact if_neg hne
  refine ⟨fun ha => ?_, fun ha => ?_⟩
  · rw [chaseRefusal_none (s := received s) ha] at hj
    have hres : resultOf (offsetCoerced (std s) minus { value := c, coerced := labelOmitted (std s) label })
        = if labelOmitted (std s) label ∨ (std s).fpd / 2 < c ∨ (2 * c = (std s).fpd ∧ minus) then .clamped else .ok := by
      have k := offsetCoerced_iff (std s) minus (c := { value := c, coerced := labelOmitted (std s) label }) hlt
      unfold resultOf
      by_cases hb : offsetCoerced (std s) minus { value := c, coerced := labelOmitted (std s) label } = true
      · rw [if_pos hb, if_pos (k.mp hb)]
      · rw [if_neg hb, if_neg fun q => hb (k.mpr q)]
    have e : exec (.chase r) s = _ := exec_accepted (effect := chaseLead lead o) rfl ht hj
    rw [hres] at e
    have hself := chaseLead_self lead o (received s)
    by_cases hrep : s.chase.state ≠ .free ∧ s.chase.lead = lead ∧ s.chase.offset = o
    · have hch : chaseLead lead o (received s) = received s := chaseLead_repeated (s := received s) hrep
      rw [hch] at e
      exact ⟨_, e, rfl, hrep.2.1, hrep.2.2, hrep.1, fun _ => rfl, fun k => absurd hrep k, rfl⟩
    · have hch : chaseLead lead o (received s) = startChase lead o (received s) :=
        chaseLead_new (s := received s) hrep
      rw [hch] at e
      exact ⟨_, e, rfl, rfl, rfl, by simp [startChase], fun k => absurd k hrep, fun _ => rfl, rfl⟩
  · rw [chaseRefusal_active (s := received s) ha] at hj
    exact exec_refused rfl ht hj

/-! ### UNCHASE -/

theorem unchase_of_free {s : State} (h : s.chase.state = .free) : unchase s = s := if_pos h

theorem unchase_of_enabled {s : State} (h : s.chase.state ≠ .free) :
    unchase s = takeCommand (handOver s.chase.state) (freeChase s) := if_neg h

theorem judgeUnchase_empty {r : Request} (hp : r.params = []) (s : State) : judgeUnchase r s = (.ok, unchase s) := by
  rw [judgeUnchase, withLength_ok _ (by rw [hp]; rfl)]
  rfl

/-- Settles O29: a CHASE of the station itself is judged as UNCHASE, whose effect is read off the chase. -/
theorem unchaseRequest : Obligations.UnchaseRequest := by
  unfold Obligations.UnchaseRequest
  refine ⟨fun r minus h m sec f s ht ha hp hv => ?own, fun r s ht hp => ⟨fun hf => ?free, fun hf => ?enabled⟩⟩
  case own =>
    have hj : judgementOf (.chase r) (received s) = (.ok, unchase (received s)) := by
      refine (judgeChase_six (s := received s) hp hv).trans ?_
      refine (if_pos rfl).trans ?_
      rw [chaseRefusal_none (s := received s) ha]
      rfl
    have e1 := exec_accepted (c := .chase r) (effect := unchase) rfl ht hj
    have e2 := exec_accepted (c := .unchase { r with params := [] }) (r := { r with params := [] }) (effect := unchase)
      rfl ht (judgeUnchase_empty rfl (received s))
    exact e1.trans e2.symm
  case free =>
    refine (exec_accepted (c := .unchase r) (effect := unchase) rfl ht (judgeUnchase_empty hp (received s))).trans ?_
    rw [unchase_of_free (s := received s) hf]
  case enabled =>
    have e := exec_accepted (c := .unchase r) (effect := unchase) rfl ht (judgeUnchase_empty hp (received s))
    have hu : unchase (received s) = _ := unchase_of_enabled (s := received s) hf
    have hch : (unchase (received s)).chase = (freeChase (received s)).chase := by rw [hu]; exact takeCommand_chase _ _
    refine ⟨_, e, rfl, by rw [State.setReq_chase, hch]; rfl, by rw [State.setReq_chase, hch]; rfl,
      by rw [State.setReq_chase, hch]; rfl, by rw [State.setReq_chase, hch]; rfl, by rw [State.setReq_chase, hch]; rfl,
      by rw [State.setReq_chase, hch]; rfl, by rw [State.setReq_chase, hch]; rfl, by rw [State.setReq_chase, hch]; rfl,
      by rw [State.setReq_chase, hch]; rfl, fun hd => ?_, fun hd => ?_,
      ((unchase_frame (received s)).trans (setReq_frame _ _)).mono.self_disable⟩
    · have k := takeCommand_taken (c := handOver s.chase.state) (s := freeChase (received s)) hd
      rw [State.setReq_tr, hu]
      exact ⟨k.command, k.locate⟩
    · rw [State.setReq_tr, hu, takeCommand_of_not_ready (s := freeChase (received s)) hd]
      rfl

end Sys2Proof.Machine

/-! O44 and O52. GPI BIND, TALLY MAP and the outputs; the peers' entries. -/

namespace Sys2Proof.Machine

set_option Elab.async false

/-! ### GPI BIND and TALLY MAP -/

theorem lineOfCode_byte (line : GpiLine) : lineOfCode (BitVec.ofNat 8 (line.val + 1)).toNat = some line := by
  rw [lineOfCode_some, BitVec.toNat_ofNat]
  have := line.isLt
  omega

theorem judgeGpiBind_three {r : Request} {line : GpiLine} {x y : Byte} {binding : Binding} {edge : EdgeSelect}
    (hp : r.params = [BitVec.ofNat 8 (line.val + 1), x, y])
    (hb : [Binding.cue, .mark, .play, .stop, .abort, .none][x.toNat]? = some binding)
    (he : [EdgeSelect.fall, .rise, .both][y.toNat]? = some edge) (s : State) :
    judgeGpiBind r s = (.ok, updateInput line (fun i => { i with binding := binding, edge := edge }) s) := by
  have e0 : lineOfCode (byteAt r.params 0) = some line := by rw [hp]; exact lineOfCode_byte line
  have e1 : bindingOfCode (byteAt r.params 1) = some binding := by rw [hp, bindingOfCode_eq]; exact hb
  have e2 : edgeOfCode (byteAt r.params 2) = some edge := by rw [hp, edgeOfCode_eq]; exact he
  rw [judgeGpiBind, withLength_ok _ (by rw [hp]; rfl), e0, e1, e2]

theorem judgeTallyMap_three {r : Request} {line : GpiLine} {x y : Byte} {source : TallySource} {pattern : TallyPattern}
    (hp : r.params = [BitVec.ofNat 8 (line.val + 1), x, y])
    (hs : [TallySource.none, .record, .air, .lock, .ready, .fault][x.toNat]? = some source)
    (ht : [TallyPattern.steady, .slow, .fast][y.toNat]? = some pattern) (s : State) :
    judgeTallyMap r s = (.ok, updateOutput line (fun o => { o with source := source, pattern := pattern }) s) := by
  have e0 : lineOfCode (byteAt r.params 0) = some line := by rw [hp]; exact lineOfCode_byte line
  have e1 : sourceOfCode (byteAt r.params 1) = some source := by rw [hp, sourceOfCode_eq]; exact hs
  have e2 : tallyPatternOfCode (byteAt r.params 2) = some pattern := by rw [hp, tallyPatternOfCode_eq]; exact ht
  rw [judgeTallyMap, withLength_ok _ (by rw [hp]; rfl), e0, e1, e2]

/-! ### Outputs -/

theorem editLines_ne_zero (s : State) : (editLines s != 0) = true ↔ ∃ p, s.tr.punch = some p ∧ p.tracks ≠ 0 := by
  unfold editLines
  cases s.tr.punch with
  | none => simp
  | some p => simp

/-- The condition of a tally, source by source (Table 11.2). -/
theorem tallyCondition_iff (source : TallySource) (s : State) :
    tallyCondition source s = true
      ↔ (source = .record ∧ ∃ p, s.tr.punch = some p ∧ p.tracks ≠ 0)
        ∨ (source = .air ∧ (0 < s.fader.level ∨ s.fader.context.isSome = true))
        ∨ (source = .lock ∧ s.chase.record.state = .locked) ∨ (source = .ready ∧ s.chase.record.ready = true)
        ∨ (source = .fault
          ∧ (hasFlag s .transportFault = true ∨ hasFlag s .recordFault = true ∨ hasFlag s .locateFail = true
            ∨ hasFlag s .clash = true)) := by
  cases source with
  | none => simp [tallyCondition]
  | record => simpa [tallyCondition] using editLines_ne_zero s
  | air => simp [tallyCondition, onAir]
  | lock => simp [tallyCondition]
  | ready => simp [tallyCondition]
  | fault => simp [tallyCondition, faultShown, or_assoc]

theorem patternOn_iff (pattern : TallyPattern) (fc : Word16) :
    patternOn pattern fc = true
      ↔ pattern = .steady ∨ (pattern = .slow ∧ fc.toNat % 48 < 24) ∨ (pattern = .fast ∧ fc.toNat % 12 < 6) := by
  cases pattern <;> simp [patternOn]

theorem outputActive_running {s : State} (hr : Running s) (line : GpiLine) :
    outputActive s line
      = (s.gpi.outputs[line].pulse.isSome
          || (tallyCondition s.gpi.outputs[line].source s && patternOn s.gpi.outputs[line].pattern s.time.fieldCount)) := by
  simp [outputActive, hr]

theorem endPulse_ended {o : GpiOutput} {start : Word16} (h : o.pulse = some { count := 0, start := start }) :
    o.endPulse = { o with pulse := none } := by
  rw [GpiOutput.endPulse, h]
  rfl

/-- Settles O44: the two requests by their codes, an output by its condition, and the pulse that ends. -/
theorem gpiRequestsAndPulse : Obligations.GpiRequestsAndPulse := by
  unfold Obligations.GpiRequestsAndPulse
  refine ⟨fun r line x y s ht hp => ⟨fun binding edge hb he => ?bind, fun source pattern hs hpt => ?tally⟩,
    fun line s hr => ?active, fun line start s hr hp => ?pulse⟩
  case bind =>
    exact exec_accepted (c := .gpiBind r) (effect := updateInput line (fun i => { i with binding := binding, edge := edge }))
      rfl ht (judgeGpiBind_three hp hb he (received s))
  case tally =>
    exact exec_accepted (c := .tallyMap r)
      (effect := updateOutput line (fun o => { o with source := source, pattern := pattern }))
      rfl ht (judgeTallyMap_three hp hs hpt (received s))
  case active =>
    dsimp only
    rw [outputActive_running hr, Bool.or_eq_true, Bool.and_eq_true, tallyCondition_iff, patternOn_iff]
  case pulse =>
    have e : updateOutput line GpiOutput.endPulse s
        = s.setGpi { s.gpi with outputs := s.gpi.outputs.set line { s.gpi.outputs[line] with pulse := none } } := by
      rw [updateOutput, endPulse_ended hp]
    refine ⟨_, (inRun_of_running _ hr).trans (congrArg _ e), rfl, ?_⟩
    have eo : (s.gpi.outputs.set line { s.gpi.outputs[line] with pulse := none })[line]
        = { s.gpi.outputs[line] with pulse := none } := Vector.getElem_set_self _
    refine (outputActive_running (s := s.setGpi { s.gpi with
      outputs := s.gpi.outputs.set line { s.gpi.outputs[line] with pulse := none } }) hr line).trans ?_
    rw [State.setGpi_gpi, eo]
    rfl

/-! ### Peers -/

theorem byteAt_def (bs : List Byte) (n : Nat) : byteAt bs n = (bs.getD n 0).toNat := rfl

theorem wideAt_eq (bs : List Byte) : wideAt bs 1 = 65536 * byteAt bs 1 + 256 * byteAt bs 2 + byteAt bs 3 := by
  show 256 * (256 * byteAt bs 1 + byteAt bs 2) + byteAt bs 3 = _
  omega

theorem qualityOfCode_eq (n : Nat) (h : n < 4) :
    [Quality.none, .tach, .ltc, .virtual][n]? = some (qualityOfCode n) := by
  match n with
  | 0 | 1 | 2 | 3 => rfl

theorem transportOfCode_eq (n : Nat) (h : n < 8) :
    [TransportState.stopped, .parked, .play, .vari, .wind, .locating, .offline, .localControl][n]?
      = some (transportOfCode n) := by
  match n with
  | 0 | 1 | 2 | 3 | 4 | 5 | 6 | 7 => rfl

theorem bulletinWellFormed_iff (x : Standard) (bs : List Byte) :
    bulletinWellFormed x bs = true
      ↔ bs.length = 20 ∧ byteAt bs 0 / 8 % 8 ≤ 5 ∧ byteAt bs 0 / 64 ≤ 2
        ∧ 65536 * byteAt bs 1 + 256 * byteAt bs 2 + byteAt bs 3 < x.fpd ∧ wordAt bs 4 / 4096 % 4 ≤ 2
        ∧ byteAt bs 9 / 16 ≤ 8 ∧ wordAt bs 10 % 2048 ≤ 1024 ∧ wordAt bs 10 / 4096 ≤ 8 ∧ byteAt bs 14 % 32 ≤ 24 := by
  rw [← wideAt_eq]
  simp [bulletinWellFormed, and_assoc]

theorem exec_positionArrival {source : Byte} {payload : List Byte} {s : State} (hr : Running s)
    (hx : s.link.rx = .frame) (hf : foreignStandard source s = false) :
    exec (.positionArrival source payload) s = .next (takeBulletin source payload (received s)) := by
  show inRun (arrive source (takeBulletin source payload)) s = _
  rw [inRun_of_running _ hr, arrive_taken hx hf]

theorem takeBulletin_own {source : Byte} {payload : List Byte} {s : State} (h : sourceStation source = own s) :
    takeBulletin source payload s = setFlag .clash s := if_pos h

theorem takeBulletin_malformed {source : Byte} {payload : List Byte} {s : State} (h : sourceStation source ≠ own s)
    (hb : bulletinWellFormed (std s) payload = false) : takeBulletin source payload s = s := by
  rw [takeBulletin, if_neg h, hb]
  rfl

theorem takeBulletin_replaces {source : Byte} {payload : List Byte} {s : State} (h : sourceStation source ≠ own s)
    (hb : bulletinWellFormed (std s) payload = true) :
    takeBulletin source payload s
      = updateEntry (sourceStation source) (fun e => e.replaced (readBulletin payload) s.time.fieldCount) s := by
  rw [takeBulletin, if_neg h, if_pos hb]

/-- A frame of the standard and a phase make a position within the day (R1). -/
theorem position_lt_day {x : Standard} {frame phase : Nat} (hf : frame < x.fpd) (hp : phase < 512) :
    512 * frame + phase < x.day := by
  unfold Standard.day
  omega

theorem silenced_old {e : PeerEntry} {fc : Word16} (h : e.heard = true) (hn : 250 ≤ elapsed e.arrival fc) :
    e.silenced fc = { e with heard := false } := if_pos ⟨h, hn⟩

theorem silenced_young {e : PeerEntry} {fc : Word16} (hn : elapsed e.arrival fc < 250) : e.silenced fc = e :=
  if_neg fun h => absurd h.2 (Nat.not_le.mpr hn)

theorem setPeers_self (st : Station) (s : State) : s.setPeers (s.peers.set st s.peers[st]) = s := by
  have e : s.peers.set st s.peers[st] = s.peers := Vector.set_getElem_self ..
  rw [e]
  rfl

/-- Settles O52: the payload's form and contents, the arrival by the station it comes from, and the silent entry. -/
theorem peerEntries : Obligations.PeerEntries := by
  unfold Obligations.PeerEntries
  refine ⟨fun x bs => ⟨bulletinWellFormed_iff x bs, wideAt_eq bs, rfl, qualityOfCode_eq _ (Nat.mod_lt _ (by decide)), rfl,
      transportOfCode_eq _ (Nat.mod_lt _ (by decide)), ?ready, rfl⟩,
    fun source payload s hr hx hf => ⟨fun h => ?clash, fun h hb => ?malformed, fun h hb => ?replaced⟩,
    fun st s hr => ⟨fun hh hn => ?silent, fun hn => ?young⟩⟩
  case ready =>
    show bitOf (wordAt bs 4) 11 = true ↔ wordAt bs 4 / 2048 % 2 = 1
    simp [bitOf]
  case clash =>
    rw [exec_positionArrival hr hx hf, takeBulletin_own (s := received s) h, setFlag_touches]
    rfl
  case malformed => rw [exec_positionArrival hr hx hf, takeBulletin_malformed (s := received s) h hb]
  case replaced =>
    refine ⟨_, (exec_positionArrival hr hx hf).trans (congrArg _ (takeBulletin_replaces (s := received s) h hb)), rfl,
      fun other ho => ?_, ?_, ?_⟩
    · exact Vector.getElem_set_ne (sourceStation source).isLt other.isLt fun e => ho (Fin.ext e.symm)
    · exact Vector.getElem_set_self _
    · have e : (s.peers.set (sourceStation source)
          (s.peers[sourceStation source].replaced (readBulletin payload) s.time.fieldCount))[sourceStation source] = _ :=
        Vector.getElem_set_self _
      obtain ⟨h1, h2⟩ := readBulletin_frame hb
      refine lt_of_eq_of_lt (congrArg PeerEntry.position e) ?_
      exact position_lt_day h1 h2
  case silent =>
    show inRun (updateEntry st (PeerEntry.silenced s.time.fieldCount)) s = _
    rw [inRun_of_running _ hr, updateEntry, silenced_old hh hn]
  case young =>
    show inRun (updateEntry st (PeerEntry.silenced s.time.fieldCount)) s = _
    rw [inRun_of_running _ hr, updateEntry, silenced_young hn, setPeers_self]

end Sys2Proof.Machine

/-! O48. SESSION CLEAR, stage by stage. -/

namespace Sys2Proof.Machine

set_option Elab.async false

/-! ### The stages -/

/-- The station after the aborts: no cue, level 0 (R77). -/
def sessionAborted (s : State) : State := setList [] (clearFader (abortActive s))

/-- The station after STOP and the disarming. -/
def sessionStopped (s : State) : State := setArmed 0 (takeCommand .stop (clearChase (sessionAborted s)))

theorem sessionClear_eq (s : State) :
    sessionClear s = sendMix (((clearGpi (sessionStopped s)).setMarks []).setFlags 0) := rfl

theorem abortActive_idle {s : State} (h : ∀ c ∈ s.cues.list, c.state ≠ .active) : abortActive s = s := by
  have hn : (s.cues.list.any fun c => c.state = .active) = false := by
    rw [List.any_eq_false]
    intro c hc
    simpa using h c hc
  rw [abortActive, hn]
  rfl

theorem abortActive_tr {s : State} (h : ∃ c ∈ s.cues.list, c.state = .active) :
    (abortActive s).tr = { s.tr with punch := none } := by
  have ha : (s.cues.list.any fun c => c.state = .active) = true := by simpa using h
  rw [abortActive, if_pos ha]
  dsimp only
  split
  · obtain ⟨f, e⟩ := cutContext_touches s
    rw [e]
    rfl
  · rfl

/-- The lines after the aborts, where asserted lines have their cue. -/
theorem abortActive_released {s : State} (h : s.tr.punch.isSome = true → (activeRecord s).isSome = true) :
    (abortActive s).tr = { s.tr with punch := none } := by
  by_cases ha : ∃ c ∈ s.cues.list, c.state = .active
  · exact abortActive_tr ha
  · have hn : ∀ c ∈ s.cues.list, c.state ≠ .active := fun c hc k => ha ⟨c, hc, k⟩
    have hp : s.tr.punch = none := by
      by_contra hp
      obtain ⟨c, hc⟩ := Option.isSome_iff_exists.mp (h (Option.isSome_iff_ne_none.mpr hp))
      have hr := List.find?_some hc
      exact hn c (List.mem_of_find?_eq_some hc) (by simp [Cue.recording] at hr; exact hr.1)
    rw [abortActive_idle hn, ← hp]

theorem cutContext_context (s : State) : (cutContext s).fader.context = none := by
  unfold cutContext
  split
  · assumption
  · rfl

theorem audioGain_zero (law : AudioLaw) : audioGain law 0 = 0 := by cases law <;> rfl

theorem sessionAborted_tr {s : State} (h : s.tr.punch.isSome = true → (activeRecord s).isSome = true) :
    (sessionAborted s).tr = { s.tr with punch := none } := by
  have f : (clearFader (abortActive s)).tr = (abortActive s).tr := (clearFader_frame _).tr
  exact f.trans (abortActive_released h)

theorem sessionAborted_fader (s : State) :
    (sessionAborted s).fader.level = 0 ∧ (sessionAborted s).fader.gain = 0
      ∧ (sessionAborted s).fader.context = none :=
  ⟨rfl, audioGain_zero _, cutContext_context (abortActive s)⟩

theorem clearChase_tr (s : State) : (clearChase s).tr = s.tr := (clearChase_frame s).tr

/-- The transport at the end: no lines, no arms, the mark kept, and STOP on a deck that takes commands. -/
theorem sessionStopped_tr {s : State} (h : s.tr.punch.isSome = true → (activeRecord s).isSome = true) :
    (sessionStopped s).tr.punch = none ∧ (sessionStopped s).tr.armed = 0
      ∧ (sessionStopped s).tr.parkedMark = s.tr.parkedMark
      ∧ (deckReady s = true → (sessionStopped s).tr.command = .stop ∧ (sessionStopped s).tr.locate = none) := by
  have htr := (clearChase_tr (sessionAborted s)).trans (sessionAborted_tr h)
  have fr : Frame requestParts s (sessionAborted s) :=
    (((abortActive_frame s).trans (clearFader_frame _)).trans (setList_frame _ _)).mono
  have hready : deckReady (clearChase (sessionAborted s)) = deckReady s :=
    deckReady_congr (Eq.trans ((clearChase_frame (sessionAborted s)).same .straps) (fr.same .straps))
      (Eq.trans ((clearChase_frame (sessionAborted s)).same .pins) (fr.same .pins))
  unfold sessionStopped
  generalize clearChase (sessionAborted s) = d at *
  cases hd : deckReady d with
  | false =>
    rw [takeCommand_of_not_ready hd]
    exact ⟨by rw [setArmed, State.setTr_tr, htr], rfl, by rw [setArmed, State.setTr_tr, htr],
      fun k => by rw [← hready, hd] at k; cases k⟩
  | true =>
    have k := takeCommand_taken (c := .stop) hd
    have hn : transportState (takeCommand .stop d) ≠ .play := stopped_not_play k.locate k.command
    exact ⟨k.released hn, rfl, k.mark.trans (by rw [htr]; rfl), fun _ => ⟨k.command, k.locate⟩⟩

theorem sessionStopped_chase (s : State) : (sessionStopped s).chase = (clearChase (sessionAborted s)).chase :=
  takeCommand_chase _ _

theorem sessionStopped_fader (s : State) : (sessionStopped s).fader = (sessionAborted s).fader :=
  Eq.trans ((takeCommand_frame .stop _).same .fader) ((clearChase_frame _).same .fader)

theorem sessionStopped_list (s : State) : (sessionStopped s).cues.list = [] := by
  have k := takeCommand_keys .stop (clearChase (sessionAborted s))
  obtain ⟨f, hf, -⟩ := k
  have e : (clearChase (sessionAborted s)).cues.list = [] := (clearChase_frame (sessionAborted s)).same .cues
  rw [e] at hf
  exact hf

theorem sessionStopped_gpi (s : State) : (sessionStopped s).gpi = s.gpi := by
  have f : Frame requestParts s (sessionAborted s) :=
    (((abortActive_frame s).trans (clearFader_frame _)).trans (setList_frame _ _)).mono
  have g : Frame [.fader, .cues, .flags, .lines, .chase, .transport] s (sessionStopped s) :=
    ((((((abortActive_frame s).trans (clearFader_frame _)).trans (setList_frame _ _)).trans
      (clearChase_frame _)).trans (takeCommand_frame _ _)).trans (setArmed_frame _ _)).mono
  exact g.gpi

theorem judgeSessionClear_empty {r : Request} (hp : r.params = []) (s : State) :
    judgeSessionClear r s = (.ok, sessionClear s) := by
  rw [judgeSessionClear, withLength_ok _ (by rw [hp]; rfl)]
  rfl

/-- The last stage: the GPI defaults, no mark and no flag, the mix port told. -/
theorem sessionClear_last {u t : State} (h : Frame [.mix] (((clearGpi u).setMarks []).setFlags 0) t) :
    t.tr = u.tr ∧ t.chase = u.chase ∧ t.fader = u.fader ∧ t.cues.list = u.cues.list ∧ t.marks = [] ∧ t.flags = 0
      ∧ t.gpi = { inputs := u.gpi.inputs.map GpiInput.cleared, outputs := u.gpi.outputs.map GpiOutput.cleared } :=
  ⟨h.tr, h.same .chase, h.same .fader, h.same .cues, h.same .marks, h.same .flags, h.gpi⟩

/-- The chase at the end (R114, R131). -/
theorem sessionStopped_free (s : State) :
    (sessionStopped s).chase.state = .free ∧ (sessionStopped s).chase.lead = own s
      ∧ (sessionStopped s).chase.offset = 0 ∧ (sessionStopped s).chase.integral = 0
      ∧ (sessionStopped s).chase.record.state = .free ∧ (sessionStopped s).chase.record.compare = .level := by
  have fr : Frame requestParts s (sessionAborted s) :=
    (((abortActive_frame _).trans (clearFader_frame _)).trans (setList_frame _ _)).mono
  have h1 : (sessionAborted s).straps = s.straps := fr.same .straps
  rw [sessionStopped_chase]
  generalize sessionAborted s = u at h1 ⊢
  have h2 : own u = own s := by unfold own; rw [h1]
  exact ⟨rfl, h2, rfl, rfl, rfl, rfl⟩

theorem cueEngine_emptied {q : CueEngine} {s : State} (hl : q.list = [])
    (hs : q.ownSample = s.cues.ownSample ∧ q.leadSample = s.cues.leadSample) : q = { s.cues with list := [] } := by
  obtain ⟨l, x, y⟩ := q
  obtain ⟨hx, hy⟩ := hs
  dsimp only at hl hx hy
  rw [hl, hx, hy]

/-- The station after SESSION CLEAR (Table 5.7). -/
theorem sessionClear_leaves {s t : State} (e : t = sessionClear s)
    (h : s.tr.punch.isSome = true → (activeRecord s).isSome = true) :
    t.cues = { s.cues with list := [] } ∧ t.tr.punch = none ∧ t.tr.armed = 0
      ∧ (deckReady s = true → t.tr.command = .stop ∧ t.tr.locate = none) ∧ t.tr.parkedMark = s.tr.parkedMark
      ∧ t.chase.state = .free ∧ t.chase.lead = own s ∧ t.chase.offset = 0 ∧ t.chase.integral = 0
      ∧ t.chase.record.state = .free ∧ t.chase.record.compare = .level
      ∧ t.fader.level = 0 ∧ t.fader.gain = 0 ∧ t.fader.context = none
      ∧ (∀ line : GpiLine,
          t.gpi.inputs[line] = { s.gpi.inputs[line] with binding := .cue, edge := .fall }
            ∧ t.gpi.outputs[line] = { s.gpi.outputs[line] with source := .none, pattern := .steady })
      ∧ t.marks = [] ∧ t.flags = 0 := by
  have hm : Frame [.mix] (((clearGpi (sessionStopped s)).setMarks []).setFlags 0) t := by
    rw [e, sessionClear_eq]
    exact sendMix_frame _
  have hf : Frame requestParts s t := by rw [e]; exact sessionClear_frame s
  obtain ⟨htr, hch, hfa, hli, hma, hfl, hgp⟩ := sessionClear_last hm
  obtain ⟨t1, t2, t3, t4⟩ := sessionStopped_tr h
  obtain ⟨c1, c2, c3, c4, c5, c6⟩ := sessionStopped_free s
  obtain ⟨f1, f2, f3⟩ := sessionAborted_fader s
  rw [← sessionStopped_fader] at f1 f2 f3
  rw [sessionStopped_gpi] at hgp
  rw [sessionStopped_list] at hli
  rw [← htr] at t1 t2 t3 t4
  rw [← hch] at c1 c2 c3 c4 c5 c6
  rw [← hfa] at f1 f2 f3
  refine ⟨cueEngine_emptied hli (hf.same .samples), t1, t2, t4, t3, c1, c2, c3, c4, c5, c6, f1, f2, f3, fun line => ?_,
    hma, hfl⟩
  rw [hgp]
  exact ⟨Vector.getElem_map _ _, Vector.getElem_map _ _⟩

/-- Settles O48: the stages' result, and what no stage writes. -/
theorem sessionClearRequest : Obligations.SessionClearRequest := by
  unfold Obligations.SessionClearRequest
  intro r s ht hp hpunch
  have e := exec_accepted (c := .sessionClear r) (effect := sessionClear) rfl ht
    (judgeSessionClear_empty hp (received s))
  have hf := sessionClear_frame (received s)
  have k := sessionClear_leaves (s := received s) rfl hpunch
  generalize sessionClear (received s) = t at e hf k
  obtain ⟨k1, k2, k3, k4, k5, k6, k7, k8, k9, k10, k11, k12, k13, k14, k15, k16, k17⟩ := k
  exact ⟨_, e, rfl, k1, k2, k3, k4, k5, k6, k7, k8, k9, k10, k11, k12, k13, k14, k15, k16, k17, hf.same .link,
    hf.same .peers, hf.same .time, hf.same .pos, hf.same .straps, hf.same .pins, hf.same .power⟩

end Sys2Proof.Machine

/-! SUPPORT, O49 and O50. The register and the draw; the deferral, the start of a frame, the collision and the expiry. -/

namespace Sys2Proof.Machine

set_option Elab.async false

/-! ### The register -/

theorem stepRegister_toNat (r : BitVec 15) :
    (stepRegister r).toNat = 2 * (r.toNat % 16384) + (if r.getLsbD 14 = r.getLsbD 13 then 0 else 1) := by
  have hbit : ((BitVec.ofBool (r.getLsbD 14 ^^ r.getLsbD 13)).setWidth 15).toNat
      = if r.getLsbD 14 = r.getLsbD 13 then 0 else 1 := by
    cases r.getLsbD 14 <;> cases r.getLsbD 13 <;> rfl
  have hlt : (if r.getLsbD 14 = r.getLsbD 13 then 0 else 1) < 2 ^ 1 := by split <;> omega
  have hshift : (r <<< 1).toNat = 2 ^ 1 * (r.toNat % 16384) := by
    rw [BitVec.toNat_shiftLeft, Nat.shiftLeft_eq]
    omega
  rw [stepRegister, BitVec.toNat_or, hbit, hshift, ← Nat.two_pow_add_eq_or_of_lt hlt]

/-- The window W of a frame, by its collisions (Table 3.2). -/
theorem windowOf_eq (n : Nat) : windowOf n = if n = 0 then 8 else if n = 1 then 16 else if n = 2 then 32 else 64 := by
  match n with
  | 0 | 1 | 2 => rfl
  | k + 3 =>
    have : drawBits (k + 3) = 6 := by unfold drawBits; omega
    rw [windowOf, this]
    rfl

/-! ### A deferral begun -/

/-- The station after the draw of a deferral for f that is not started at once, and the one that starts (R41, R42). -/
theorem deferFor_slots {f : TxFrame} {s : State}
    (h : 0 < (stepRegister s.link.backoff).toNat % windowOf f.collisions) :
    deferFor f s
      = s.setLink
          { s.link with
            backoff := stepRegister s.link.backoff
            phase := .deferring ((stepRegister s.link.backoff).toNat % windowOf f.collisions) } :=
  if_neg (Nat.pos_iff_ne_zero.mp h)

theorem deferFor_start {f : TxFrame} {s : State}
    (h : (stepRegister s.link.backoff).toNat % windowOf f.collisions = 0) :
    deferFor f s = startHead (s.setLink { s.link with backoff := stepRegister s.link.backoff }) := if_pos h

theorem beginDeferral_of_head {f : TxFrame} {s : State} (hq : s.link.quiet = true) (hp : s.link.phase = .idle)
    (hh : ¬(s.link.position.isSome = true ∧ s.link.heldBack = true)) (hf : headFrame s.link = some f) :
    beginDeferral s = deferFor f s := by
  rw [beginDeferral, if_pos ⟨hq, hp, hh⟩, hf]

theorem beginDeferral_of_none {s : State} (h : headFrame s.link = none) : beginDeferral s = s := by
  rw [beginDeferral, h]
  split <;> rfl

theorem beginDeferral_of_noise {s : State} (h : s.link.quiet = false) : beginDeferral s = s := by
  rw [beginDeferral, if_neg (by simp [h])]

/-! ### The head starts -/

theorem beforeCutoff_iff (s : State) :
    beforeCutoff s = true ↔ s.time.clock + 11520 ≤ s.time.lastBoundary + (std s).period := by simp [beforeCutoff]

theorem startHead_sends {f : TxFrame} {s : State} (h : s.link.position = some f) (hb : beforeCutoff s = true) :
    startHead s
      = s.setLink { s.link with phase := .sending f false, position := none, rx := .ignore, quiet := false } := by
  rw [startHead, h]
  exact if_pos hb

theorem startHead_holds {f : TxFrame} {s : State} (h : s.link.position = some f) (hb : beforeCutoff s = false) :
    startHead s = s.setLink { s.link with phase := .idle, heldBack := true } := by
  rw [startHead, h]
  exact if_neg (by simp [hb])

theorem startHead_report {f : TxFrame} {rest : List TxFrame} {s : State} (h : s.link.position = none)
    (hr : s.link.reports = f :: rest) :
    startHead s
      = s.setLink { s.link with phase := .sending f false, reports := rest, rx := .ignore, quiet := false } := by
  rw [startHead, h]
  show startReport s = _
  rw [startReport, hr]

/-- The start of a head frame does not look at the phase. -/
theorem startHead_phase {f : TxFrame} {s : State} (p : TxPhase) (h : headFrame s.link = some f) :
    startHead (s.setLink { s.link with phase := p }) = startHead s := by
  cases hp : s.link.position with
  | some g =>
    by_cases hb : beforeCutoff s = true
    · rw [startHead_sends hp hb, startHead_sends (s := s.setLink { s.link with phase := p }) hp hb]
      rfl
    · have hb' : beforeCutoff s = false := by simpa using hb
      rw [startHead_holds hp hb', startHead_holds (s := s.setLink { s.link with phase := p }) hp hb']
      rfl
  | none =>
    rw [headFrame, hp] at h
    cases hr : s.link.reports with
    | nil => rw [hr] at h; cases h
    | cons g rest =>
      rw [startHead_report hp hr, startHead_report (s := s.setLink { s.link with phase := p }) hp hr]
      rfl

/-! ### The line becomes quiet -/

theorem lineQuiet_due {time : Nat} {s : State} (hr : driverReleased s.link = true) (hq : s.link.quiet = false) :
    lineQuiet time s = quietNow (atTime time s) := if_pos ⟨hr, by rw [hq]; rfl⟩

theorem quietNow_outside {s : State} (h : s.link.rx ≠ .frame) :
    quietNow s = beginDeferral (s.setLink { s.link with quiet := true, rx := .wait }) := by
  rw [quietNow, if_neg h]

theorem deferralEnd_of_deferring {time k : Nat} {s : State} (h : s.link.phase = .deferring k) :
    deferralEnd time s = startHead (atTime time s) := by
  rw [deferralEnd, h]

theorem exec_lineQuiet {time : Nat} {s : State} (hr : Running s) : exec (.lineQuiet time) s = .next (lineQuiet time s) :=
  inRun_of_running _ hr

theorem exec_deferralEnd {time : Nat} {s : State} (hr : Running s) :
    exec (.deferralEnd time) s = .next (deferralEnd time s) := inRun_of_running _ hr

/-- Settles O49: the register's step, the draw at a quiet, and the head that starts. -/
theorem deferralBeginsAndEnds : Obligations.DeferralBeginsAndEnds := by
  unfold Obligations.DeferralBeginsAndEnds
  refine ⟨fun r => ⟨stepRegister_toNat r, stepRegister_ne_zero⟩, fun time f s hr hp hq hx hf hh => ?quiet,
    fun time k s hr hp => ⟨fun f hf hc => ?sends, fun f hf hc => ?holds, fun f rest hf hre => ?report⟩⟩
  case quiet =>
    intro r w
    have hw : windowOf f.collisions = w := windowOf_eq _
    have hq' : lineQuiet time s
        = deferFor f ((atTime time s).setLink { s.link with quiet := true, rx := .wait }) := by
      rw [lineQuiet_due (by simp [driverReleased, hp]) hq, quietNow_outside (s := atTime time s) hx]
      exact beginDeferral_of_head rfl hp (fun k => Bool.false_ne_true (hh.symm.trans k.2)) hf
    refine ⟨fun hk => ?_, fun hk => ?_⟩
    · rw [exec_lineQuiet hr, hq', deferFor_slots (by rw [hw]; exact hk), hw]
      rfl
    · have hend : exec (.deferralEnd time)
            (s.setLink { s.link with quiet := true, rx := .wait, backoff := r, phase := .deferring 0 })
          = .next (startHead (atTime time
            (s.setLink { s.link with quiet := true, rx := .wait, backoff := r, phase := .deferring 0 }))) := rfl.trans
        (exec_deferralEnd (s := s.setLink { s.link with quiet := true, rx := .wait, backoff := r, phase := .deferring 0 }) hr)
      rw [exec_lineQuiet hr, hq', deferFor_start (by rw [hw]; exact hk), hend]
      refine congrArg _ ?_
      exact (startHead_phase (f := f) (.deferring 0)
        (s := (atTime time s).setLink { s.link with quiet := true, rx := .wait, backoff := r }) hf).symm
  case sends =>
    rw [exec_deferralEnd hr, deferralEnd_of_deferring hp,
      startHead_sends (s := atTime time s) hf ((beforeCutoff_iff _).mpr hc)]
    rfl
  case holds =>
    have hb : beforeCutoff (atTime time s) = false := by
      rw [← Bool.not_eq_true, beforeCutoff_iff]
      exact Nat.not_le.mpr hc
    rw [exec_deferralEnd hr, deferralEnd_of_deferring hp, startHead_holds (s := atTime time s) hf hb]
    rfl
  case report =>
    rw [exec_deferralEnd hr, deferralEnd_of_deferring hp, startHead_report (s := atTime time s) hf hre]
    rfl

/-! ### Collision -/

theorem flagDropped_eq (f : TxFrame) (s : State) :
    flagDropped f s = s.setFlags (if f.kind = .position then s.flags ||| Flag.bulletinDropped.mask else s.flags) := by
  unfold flagDropped
  split
  · rw [setFlag_touches]
  · rfl

/-- The station as its frame collides (R44). -/
def jams (s : State) : State := s.setLink { s.link with phase := .jamming, collisions := bumpCounter s.link.collisions }

theorem collide_sending {f : TxFrame} {gone : Bool} {s : State} (h : s.link.phase = .sending f gone) :
    collide s = settleCollided f gone (jams s) := by rw [collide, h]; rfl

theorem dropFrames_one (s : State) : dropFrames 1 s = s.setLink { s.link with txDropped := bumpCounter s.link.txDropped } := rfl

theorem notReturned_iff (f : TxFrame) (gone : Bool) (fc : Word16) :
    notReturned f gone fc = true ↔ gone = true ∨ (f.kind = .report ∧ 25 ≤ elapsed f.joined fc) := by
  simp [notReturned, TxFrame.expired]

theorem settleCollided_gone {f : TxFrame} {gone : Bool} {s : State}
    (h : gone = true ∨ (f.kind = .report ∧ 25 ≤ elapsed f.joined s.time.fieldCount)) :
    settleCollided f gone s = flagDropped f (dropFrames 1 s) := if_pos ((notReturned_iff _ _ _).mpr h)

theorem settleCollided_kept {f : TxFrame} {s : State}
    (h : f.kind = .report → elapsed f.joined s.time.fieldCount < 25) :
    settleCollided f false s
      = if 8 ≤ f.collisions + 1 then setFlag .linkError (flagDropped f (dropFrames 1 s)) else returnFrame f s := by
  refine if_neg fun k => ?_
  obtain k | ⟨hk, hn⟩ := (notReturned_iff _ _ _).mp k
  · cases k
  · exact absurd (h hk) (Nat.not_lt.mpr hn)

/-- A collided frame that is not let go nor expired (R45). -/
theorem collide_kept {f : TxFrame} {s : State} (hp : s.link.phase = .sending f false)
    (h : f.kind = .report → elapsed f.joined s.time.fieldCount < 25) :
    let t := collide s
    t = (s.setLink t.link).setFlags t.flags ∧ t.link.phase = .jamming
      ∧ t.link.collisions = bumpCounter s.link.collisions ∧ t.link.backoff = s.link.backoff
      ∧ (f.collisions < 7 →
          t.flags = s.flags ∧ t.link.txDropped = s.link.txDropped
            ∧ (f.kind = .position →
                t.link.position = some { f with collisions := f.collisions + 1 } ∧ t.link.reports = s.link.reports)
            ∧ (f.kind = .report →
                t.link.reports = { f with collisions := f.collisions + 1 } :: s.link.reports
                  ∧ t.link.position = s.link.position))
      ∧ (7 ≤ f.collisions →
          t.link.txDropped = bumpCounter s.link.txDropped ∧ t.link.position = s.link.position
            ∧ t.link.reports = s.link.reports ∧ hasFlag t .linkError = true
            ∧ (f.kind = .position → hasFlag t .bulletinDropped = true)) := by
  have e : collide s = _ := (collide_sending hp).trans (settleCollided_kept (s := jams s) h)
  rw [e]
  by_cases hn : 8 ≤ f.collisions + 1
  · rw [if_pos hn, flagDropped_eq]
    refine ⟨rfl, rfl, rfl, rfl, fun k => by omega, fun _ => ⟨rfl, rfl, rfl, hasFlag_setFlag_self _ _, fun hk => ?_⟩⟩
    rw [if_pos hk, ← setFlag_touches]
    exact hasFlag_setFlag_mono (hasFlag_setFlag_self _ _)
  · rw [if_neg hn, returnFrame]
    cases hk : f.kind with
    | position => exact ⟨rfl, rfl, rfl, rfl, fun _ => ⟨rfl, rfl, fun _ => ⟨rfl, rfl⟩, fun q => by cases q⟩, fun k => by omega⟩
    | report => exact ⟨rfl, rfl, rfl, rfl, fun _ => ⟨rfl, rfl, (fun q => by cases q), fun _ => ⟨rfl, rfl⟩⟩, fun k => by omega⟩

/-! ### Expiry -/

/-- The link without its expired REPORTs (R48). -/
def withoutExpired (s : State) : State :=
  s.setLink
    { s.link with
      reports := s.link.reports.filter fun f => elapsed f.joined s.time.fieldCount < 25
      txDropped :=
        min (max 65535 s.link.txDropped)
          (s.link.txDropped + (s.link.reports.filter fun f => 25 ≤ elapsed f.joined s.time.fieldCount).length) }

theorem dropExpired_eq (s : State) : dropExpired s = withoutExpired s := by
  have e : dropExpired s = s.setLink (dropExpired s).link := rfl
  rw [e, dropExpired_link, waiting_filter_eq, bumpCounterBy_eq]
  rfl

/-- The head of the queue is another one when no POSITION waits and another REPORT is the oldest. -/
theorem headFrame_kept {l m : Link} (hp : m.position = l.position)
    (h : l.position.isSome = true ∨ m.reports.head? = l.reports.head?) : headFrame m = headFrame l := by
  unfold headFrame
  rw [hp]
  cases hl : l.position with
  | some f => rfl
  | none => exact h.resolve_left (by simp [hl])

theorem headFrame_changed {l m : Link} (hp : m.position = l.position)
    (h : ¬(l.position.isSome = true ∨ m.reports.head? = l.reports.head?)) : headFrame m ≠ headFrame l := by
  unfold headFrame
  rw [hp]
  cases hl : l.position with
  | some f => exact absurd (.inl (by simp [hl])) h
  | none => exact fun k => h (.inr k)

theorem abandonDeferral_busy {s : State} (h : driverReleased s.link = false) : abandonDeferral s = s := by
  unfold abandonDeferral
  split
  · next k hk => rw [driverReleased, hk] at h; cases h
  all_goals rfl

theorem abandonDeferral_idle {s : State} (h : driverReleased s.link = true) :
    abandonDeferral s = s.setLink { s.link with phase := .idle } := by
  unfold abandonDeferral
  cases hp : s.link.phase with
  | idle => dsimp only; rw [← hp]; rfl
  | deferring k => rfl
  | sending f g => rw [driverReleased, hp] at h; cases h
  | jamming => rw [driverReleased, hp] at h; cases h

theorem headChanged_busy {s : State} (h : driverReleased s.link = false) : headChanged s = s := by
  rw [headChanged, abandonDeferral_busy h]
  refine beginDeferral_of_busy fun k => ?_
  rw [driverReleased, k] at h
  cases h

theorem exec_reportExpiry {s : State} (hr : Running s) :
    exec .reportExpiry s = .next (restartIfChanged s (withoutExpired s)) := by
  show inRun expireReports s = _
  rw [inRun_of_running _ hr, expireReports, dropExpired_eq]

/-- Settles O50: the sender's small steps, the collision by what becomes of the frame, and the expiry by its head. -/
theorem sendingAndCollision : Obligations.SendingAndCollision := by
  unfold Obligations.SendingAndCollision
  refine ⟨fun s hr => ⟨fun k hp => ?start, fun f gone hp => ?sent, fun hp => ?jam⟩,
    fun f s hr hp hk => ⟨_, (inRun_of_running _ hr), collide_kept hp hk⟩, fun f gone s hr hp hk => ?gone,
    fun s hr => ⟨fun h => ?stays, fun hc hd hn => ?none, fun f rest hc hd hq hk => ?next⟩⟩
  case start =>
    refine (inRun_of_running _ hr).trans (congrArg _ ?_)
    have hd : driverReleased s.link = true := by rw [driverReleased, hp]
    rw [startBit, if_pos hd, abandonDeferral_idle hd]
    rfl
  case sent =>
    refine (inRun_of_running _ hr).trans (congrArg _ ?_)
    rw [frameSent, hp]
  case jam =>
    refine (inRun_of_running _ hr).trans (congrArg _ ?_)
    rw [jamEnd, hp]
  case gone =>
    refine (inRun_of_running _ hr).trans (congrArg _ ?_)
    rw [collide_sending hp, settleCollided_gone (s := jams s) hk, flagDropped_eq]
    rfl
  case stays =>
    rw [exec_reportExpiry hr, restartIfChanged]
    by_cases hc : s.link.position.isSome = true
        ∨ (withoutExpired s).link.reports.head? = s.link.reports.head?
    · rw [if_pos (headFrame_kept (l := s.link) (m := (withoutExpired s).link) rfl hc)]
      rfl
    · have hd : driverReleased (withoutExpired s).link = false := h.resolve_left hc
      rw [headChanged_busy hd, ite_self]
      rfl
  case none =>
    rw [exec_reportExpiry hr, restartIfChanged, if_neg (headFrame_changed (l := s.link) (m := (withoutExpired s).link) rfl hc),
      headChanged, abandonDeferral_idle (s := withoutExpired s) hd]
    refine congrArg _ ?_
    obtain hq | hk := hn
    · exact beginDeferral_of_noise (s := (withoutExpired s).setLink _) hq
    · refine beginDeferral_of_none (s := (withoutExpired s).setLink _) ?_
      have hp : s.link.position = .none := by
        by_contra k
        exact hc (.inl (Option.isSome_iff_ne_none.mpr k))
      show headFrame (withoutExpired s).link = .none
      unfold headFrame
      rw [show (withoutExpired s).link.position = .none from hp,
        show (withoutExpired s).link.reports = [] from hk]
      rfl
  case next =>
    intro r w
    have hw : windowOf f.collisions = w := windowOf_eq _
    have hp : s.link.position = .none := by
      by_contra k
      exact hc (.inl (Option.isSome_iff_ne_none.mpr k))
    have hhead : headFrame (withoutExpired s).link = some f := by
      unfold headFrame
      rw [show (withoutExpired s).link.position = .none from hp,
        show (withoutExpired s).link.reports = f :: rest from hk]
      rfl
    have e : restartIfChanged s (withoutExpired s)
        = deferFor f ((withoutExpired s).setLink { (withoutExpired s).link with phase := .idle }) := by
      rw [restartIfChanged, if_neg (headFrame_changed (l := s.link) (m := (withoutExpired s).link) rfl hc), headChanged,
        abandonDeferral_idle (s := withoutExpired s) hd]
      refine beginDeferral_of_head hq rfl (fun k => ?_) hhead
      have : (withoutExpired s).link.position.isSome = true := k.1
      rw [show (withoutExpired s).link.position = .none from hp] at this
      cases this
    rw [exec_reportExpiry hr, e]
    refine ⟨fun h => congrArg _ ?_, fun h => congrArg _ ?_⟩
    · rw [deferFor_slots (by rw [hw]; exact h), hw]
      rfl
    · rw [deferFor_start (by rw [hw]; exact h),
        startHead_report (f := f) (rest := rest) (by exact hp) (by exact hk)]
      rfl

end Sys2Proof.Machine

/-! O38, O39, O40, O41. ABORT, the ends of a RECORD cue, and the Source Fader's context: its start, its values at k = 0
and its completion. -/

namespace Sys2Proof.Machine

set_option Elab.async false

/-! ### A state rebuilt from another, part by part -/

theorem Part.Same.symm {s t : State} {p : Part} (h : Part.Same s t p) : Part.Same t s p := by
  cases p
  case transport => unfold Part.Same at *; rw [h]
  case samples => exact ⟨h.1.symm, h.2.symm⟩
  all_goals exact Eq.symm h

/-- A frame whose first parts are written by a change that gives them their values in t. -/
theorem Frame.onto {v w : List Part} {s u t : State} (h : Frame (v ++ w) s t) (hu : Frame v s u)
    (hv : ∀ p ∈ v, Part.Same u t p) : Frame w u t := by
  intro p hp
  by_cases k : p ∈ v
  · exact hv p k
  · exact (hu p k).symm.trans (h p (by simp [k, hp]))

theorem Frame.eq {s t : State} (h : Frame [] s t) : t = s :=
  State.eq_of_fields (h.same .power) (h.same .straps) (h.same .pins) (h.same .time) (h.same .pos) (h.same .peers)
    (h.same .req) (h.same .link) h.tr (h.same .chase) h.cueEngine (h.same .fader) (h.same .mix) h.gpi (h.same .marks)
    (h.same .flags) (h.same .choices) (h.same .pending)

section
variable {w : List Part} {s t : State}

theorem Frame.onto_req (h : Frame (.req :: w) s t) : Frame w (s.setReq t.req) t :=
  Frame.onto (v := [.req]) h (setReq_frame _ _) (by simp [Part.Same])

theorem Frame.onto_link (h : Frame (.link :: w) s t) : Frame w (s.setLink t.link) t :=
  Frame.onto (v := [.link]) h (setLink_frame _ _) (by simp [Part.Same])

theorem Frame.onto_tr (h : Frame (.transport :: .lines :: w) s t) : Frame w (s.setTr t.tr) t :=
  Frame.onto (v := [.transport, .lines]) h (setTr_frame _ _) (by simp [Part.Same])

theorem Frame.onto_cues (h : Frame (.cues :: .samples :: w) s t) : Frame w (s.setCues t.cues) t :=
  Frame.onto (v := [.cues, .samples]) h (setCues_frame _ _) (by simp [Part.Same])

theorem Frame.onto_chase (h : Frame (.chase :: w) s t) : Frame w (s.setChase t.chase) t :=
  Frame.onto (v := [.chase]) h (setChase_frame _ _) (by simp [Part.Same])

theorem Frame.onto_fader (h : Frame (.fader :: w) s t) : Frame w (s.setFader t.fader) t :=
  Frame.onto (v := [.fader]) h (setFader_frame _ _) (by simp [Part.Same])

theorem Frame.onto_mix (h : Frame (.mix :: w) s t) : Frame w (s.setMix t.mix) t :=
  Frame.onto (v := [.mix]) h (setMix_frame _ _) (by simp [Part.Same])

theorem Frame.onto_gpi (h : Frame (.inputs :: .outputs :: w) s t) : Frame w (s.setGpi t.gpi) t :=
  Frame.onto (v := [.inputs, .outputs]) h (setGpi_frame _ _) (by simp [Part.Same])

theorem Frame.onto_marks (h : Frame (.marks :: w) s t) : Frame w (s.setMarks t.marks) t :=
  Frame.onto (v := [.marks]) h (setMarks_frame _ _) (by simp [Part.Same])

theorem Frame.onto_flags (h : Frame (.flags :: w) s t) : Frame w (s.setFlags t.flags) t :=
  Frame.onto (v := [.flags]) h (setFlags_frame _ _) (by simp [Part.Same])

theorem Frame.onto_choices (h : Frame (.choices :: w) s t) : Frame w (s.setChoices t.choices) t :=
  Frame.onto (v := [.choices]) h (setChoices_frame _ _) (by simp [Part.Same])

end

/-! ### The ends of a RECORD cue -/

theorem exec_recordLengthEnd {s : State} (hr : Running s) : exec .recordLengthEnd s = .next (recordLengthEnd s) :=
  inRun_of_running _ hr

theorem exec_notReadyLimit {s : State} (hr : Running s) : exec .notReadyLimit s = .next (notReadyLimit s) :=
  inRun_of_running _ hr

theorem recordLengthEnd_due {c : Cue} {s : State} (h : activeRecord s = some c) (hn : c.remaining = 0) :
    recordLengthEnd s = punchOut (endActiveRecord s) := by
  rw [recordLengthEnd, h]
  exact if_pos hn

theorem recordLengthEnd_running {s : State} (h : ∀ c, activeRecord s = some c → c.remaining ≠ 0) :
    recordLengthEnd s = s := by
  rw [recordLengthEnd]
  split
  · next c hc => exact if_neg (h c hc)
  · rfl

theorem notReadyLimit_hard {c : Cue} {s : State} (h : activeRecord s = some c) (hn : c.notReady = 3)
    (hh : c.hard = true) : notReadyLimit s = punchOut (abortActiveRecord s) := by
  rw [notReadyLimit, h]
  dsimp only
  rw [if_pos hn, if_pos hh]

theorem notReadyLimit_soft {c : Cue} {s : State} (h : activeRecord s = some c) (hn : c.notReady = 3)
    (hh : c.hard = false) :
    notReadyLimit s = setFlag .syncSlip (updateCues Cue.recording (fun c => { c with slipped := true }) s) := by
  rw [notReadyLimit, h]
  dsimp only
  rw [if_pos hn, hh]
  rfl

theorem notReadyLimit_below {s : State} (h : ∀ c, activeRecord s = some c → c.notReady ≠ 3) : notReadyLimit s = s := by
  rw [notReadyLimit]
  split
  · next c hc => exact if_neg (h c hc)
  · rfl

theorem abortActiveRecord_active {c : Cue} {s : State} (h : activeRecord s = some c) :
    abortActiveRecord s
      = setFlag .cueAborted (updateCues Cue.recording (fun c => c.finishAs .aborted s.time.fieldCount) s) :=
  if_pos (by rw [h]; rfl)

/-- Settles O39: the count that has come to its limit decides. -/
theorem recordCueLimits : Obligations.RecordCueLimits := by
  unfold Obligations.RecordCueLimits
  refine fun c s hr hc => ⟨fun h => ?_, fun h hh => ?_, fun h hh => ?_⟩
  · rw [exec_recordLengthEnd hr, recordLengthEnd_due hc h]
    rfl
  · rw [exec_notReadyLimit hr, notReadyLimit_hard hc h hh, abortActiveRecord_active hc]
    rfl
  · rw [exec_notReadyLimit hr, notReadyLimit_soft hc h hh]
    rfl

/-! ### ABORT -/

/-- The station with the context of an ACTIVE cue cut (R139). -/
def contextCut (s : State) : State :=
  if s.cues.list.any fun c => c.state = .active && c.isTransition then cutContext s else s

theorem abortActive_busy {s : State} (h : ∃ c ∈ s.cues.list, c.state = .active) :
    abortActive s
      = setFlag .cueAborted
          (updateCues (fun c => c.state = .active) (fun c => c.finishAs .aborted s.time.fieldCount)
            (punchOut (contextCut s))) := by
  have ha : (s.cues.list.any fun c => c.state = .active) = true := by simpa using h
  exact if_pos ha

theorem cutContext_some {k : Context} {s : State} (h : s.fader.context = some k) :
    cutContext s = s.setFader (s.fader.ended k) := by rw [cutContext, h]

theorem contextCut_frame (s : State) : Frame [.fader] s (contextCut s) := by
  unfold contextCut
  split
  · exact cutContext_frame s
  · exact .refl s

theorem contextCut_cut {k : Context} {s : State} (hk : s.fader.context = some k)
    (h : ∃ c ∈ s.cues.list, c.state = .active ∧ c.isTransition = true) :
    (contextCut s).fader = s.fader.ended k := by
  have ha : (s.cues.list.any fun c => c.state = .active && c.isTransition) = true := by simpa using h
  rw [contextCut, if_pos ha, cutContext_some hk]
  rfl

theorem contextCut_kept {s : State} (h : ∀ c ∈ s.cues.list, c.state = .active → c.isTransition = false) :
    contextCut s = s := by
  refine if_neg ?_
  simpa using h

theorem abortCues_frame (s : State) : Frame [.mix] (abortActive s) (abortCues s) := by
  unfold abortCues
  dsimp only
  split
  · exact .refl _
  · exact sendMix_frame _

theorem abortCues_idle {s : State} (h : ∀ c ∈ s.cues.list, c.state ≠ .active) : abortCues s = s := by
  rw [abortCues, abortActive_idle h]
  exact if_pos rfl

theorem judgeAbort_empty {r : Request} (hp : r.params = []) (s : State) : judgeAbort r s = (.ok, abortCues s) := by
  rw [judgeAbort, withLength_ok _ (by rw [hp]; rfl)]
  rfl

/-- The station after the aborts, an ACTIVE cue standing in the list (R139, R158). -/
theorem abortActive_leaves {s t : State} (h : ∃ c ∈ s.cues.list, c.state = .active)
    (f : Frame [.mix] (abortActive s) t) :
    t.tr = { s.tr with punch := none }
      ∧ t.cues.list = s.cues.list.map (fun c => if c.state = .active then
          { c with state := .aborted, finish := some s.time.fieldCount } else c)
      ∧ hasFlag t .cueAborted = true ∧ t.fader = (contextCut s).fader := by
  have hf := abortActive_busy h
  have g := contextCut_frame s
  have hl : (contextCut s).cues.list = s.cues.list := g.same .cues
  have htr : (contextCut s).tr = s.tr := g.tr
  have hfl : t.flags = (abortActive s).flags := f.same .flags
  have hfd : t.fader = (abortActive s).fader := f.same .fader
  have hcl : t.cues.list = (abortActive s).cues.list := f.same .cues
  refine ⟨f.tr.trans (abortActive_tr h), ?_, ?_, ?_⟩
  · rw [hcl, hf]
    show (contextCut s).cues.list.map _ = _
    rw [hl]
    simp only [decide_eq_true_eq]
    rfl
  · have : hasFlag (abortActive s) .cueAborted = true := by rw [hf]; exact hasFlag_setFlag_self _ _
    unfold hasFlag at this ⊢
    rw [hfl, this]
  · rw [hfd, hf]
    rfl

/-- Settles O38: by whether a cue is ACTIVE. -/
theorem abortRequest : Obligations.AbortRequest := by
  unfold Obligations.AbortRequest
  intro r s ht hp
  have e := exec_accepted (c := .abort r) (effect := abortCues) (s := s) rfl ht (judgeAbort_empty hp _)
  refine ⟨fun h => ?idle, fun h => ?busy⟩
  case idle => rw [e, abortCues_idle (s := received s) h]
  case busy =>
    have f : Frame [.mix] (abortActive (received s)) (abortCues (received s)) := abortCues_frame _
    obtain ⟨htr, hcl, hfl, hfd⟩ := abortActive_leaves (s := received s) h f
    refine ⟨_, e, rfl, htr, hcl, hfl, fun hx k hk => ?_, fun hx => ?_, ?_⟩
    · exact hfd.trans (contextCut_cut (s := received s) hk hx)
    · exact hfd.trans (by rw [contextCut_kept (s := received s) hx]; rfl)
    · exact Frame.eq (.onto_flags (.onto_mix (.onto_fader (.onto_cues (.onto_tr (.onto_req
        (((abortActive_frame _).trans f).trans (setReq_frame _ _)).mono))))))

/-! ### A context completes -/

theorem completeContext_none {s : State} (h : s.fader.context = none) : completeContext s = s := by
  rw [completeContext, h]

theorem completeContext_some {k : Context} {s : State} (h : s.fader.context = some k) :
    completeContext s = reportComplete k.tag (s.setFader (s.fader.ended k)) := by rw [completeContext, h]

theorem reportComplete_zero (s : State) : reportComplete 0 s = s := if_pos rfl

theorem reportComplete_tag {tag : Byte} (h : tag ≠ 0) (s : State) :
    reportComplete tag s = updateCues (Cue.transiting tag) (fun c => c.finishAs .done s.time.fieldCount) s :=
  if_neg h

theorem reportComplete_frame (tag : Byte) (s : State) : Frame [.cues] s (reportComplete tag s) := by
  unfold reportComplete
  split
  · exact .refl s
  · exact updateCues_frame _ _ s

/-- The level a context that starts now starts from (R155, R156). -/
def startLevel (s : State) : Nat :=
  match s.fader.context with
  | some o => o.params.target
  | none => s.fader.level

theorem completeContext_fader {k : Context} {s : State} (h : s.fader.context = some k) :
    (completeContext s).fader = s.fader.ended k := by
  rw [completeContext_some h, reportComplete_fader]
  rfl

theorem completeContext_context (s : State) : (completeContext s).fader.context = none := by
  cases h : s.fader.context with
  | none => rw [completeContext_none h, h]
  | some k => rw [completeContext_fader h]; rfl

theorem completeContext_level (s : State) : (completeContext s).fader.level = startLevel s := by
  cases h : s.fader.context with
  | none => rw [completeContext_none h, startLevel, h]
  | some k => rw [completeContext_fader h, startLevel, h]; rfl

theorem completeContext_unreported {s : State} (h : ∀ k, s.fader.context = some k → k.tag = 0) :
    (completeContext s).cues = s.cues := by
  cases hc : s.fader.context with
  | none => rw [completeContext_none hc]
  | some k => rw [completeContext_some hc, h k hc, reportComplete_zero]; rfl

theorem completeContext_reported {k : Context} {s : State} (h : s.fader.context = some k) (hk : k.tag ≠ 0) :
    (completeContext s).cues.list = s.cues.list.map fun c => if c.transiting k.tag then
      { c with state := .done, finish := some s.time.fieldCount } else c := by
  rw [completeContext_some h, reportComplete_tag hk]
  rfl

theorem sendMix_leaves (s : State) :
    (sendMix s).fader = s.fader ∧ (sendMix s).cues = s.cues ∧ (sendMix s).flags = s.flags
      ∧ (sendMix s).time = s.time := by
  obtain ⟨m, e⟩ := sendMix_touches s
  rw [e]
  exact ⟨rfl, rfl, rfl, rfl⟩

theorem transitionComplete_due {k : Context} {s : State} (h : s.fader.context = some k) (hk : k.params.duration ≤ k.k) :
    transitionComplete s = sendMix (completeContext s) := by
  rw [transitionComplete, h]
  exact if_pos hk

theorem endMixRecord_due {m : MixRecord} {s : State} (h : s.mix.sending = some m) (hd : s.mix.due = true) :
    endMixRecord s = s.setMix { s.mix with sending := some (mixRecordNow s), due := false } := by
  rw [endMixRecord, h]
  exact if_pos hd

theorem endMixRecord_last {m : MixRecord} {s : State} (h : s.mix.sending = some m) (hd : s.mix.due = false) :
    endMixRecord s = s.setMix { s.mix with sending := none } := by
  rw [endMixRecord, h]
  exact if_neg (by simp [hd])

/-- Settles O41: the completion of the context, and the record that follows one or does not. -/
theorem transitionAndMixRecordEnd : Obligations.TransitionAndMixRecordEnd := by
  unfold Obligations.TransitionAndMixRecordEnd
  refine ⟨fun k s hr hc hk => ?_, fun m s hr hm => ⟨fun hd => ?_, fun hd => ?_⟩⟩
  · have e : exec .transitionComplete s = .next (sendMix (completeContext s)) := by
      refine (inRun_of_running _ hr).trans (congrArg _ ?_)
      exact transitionComplete_due hc hk.ge
    obtain ⟨hf, hq, -, -⟩ := sendMix_leaves (completeContext s)
    refine ⟨_, e, hf.trans (completeContext_fader hc), fun ht => ?_, fun ht => ?_, ?_⟩
    · rw [hq]
      exact completeContext_reported hc ht
    · rw [hq]
      exact completeContext_unreported fun o ho => by rw [hc] at ho; cases ho; exact ht
    · exact Frame.eq (.onto_mix (.onto_cues (.onto_fader ((completeContext_frame s).trans (sendMix_frame _)).mono)))
  · refine ⟨mixRecordNow s, (inRun_of_running _ hr).trans (congrArg _ (endMixRecord_due hm hd)), rfl, rfl, rfl, rfl, rfl,
      rfl, ?_⟩
    show shapeNow s = _
    unfold shapeNow
    cases s.fader.context <;> rfl
  · exact (inRun_of_running _ hr).trans (congrArg _ (endMixRecord_last hm hd))

/-! ### A context starts -/

/-- The station as a context has started: the values for k = 0 formed (R155). -/
def contextOpened (tag : Byte) (hard : Bool) (p : TransParams) (s : State) : State :=
  formValues (placeContext tag hard p (completeContext s))

theorem startContext_eq (tag : Byte) (hard : Bool) (p : TransParams) (s : State) :
    startContext tag hard p s = sendMix (completeIfDue (contextOpened tag hard p s)) := rfl

theorem contextOpened_fader (tag : Byte) (hard : Bool) (p : TransParams) (s : State) :
    let k := newContext tag hard p (completeContext s)
    (contextOpened tag hard p s).fader
      = { level := k.level, gain := audioGain p.law k.share, law := p.law, windowClass := k.windowClass
          invert := k.invert, softness := k.softness, context := some k } := rfl

theorem contextOpened_cues (tag : Byte) (hard : Bool) (p : TransParams) (s : State) :
    (contextOpened tag hard p s).cues = (completeContext s).cues := rfl

theorem completeIfDue_running {k : Context} {s : State} (h : s.fader.context = some k) (hk : k.k < k.params.duration) :
    completeIfDue s = s := by
  rw [completeIfDue, h]
  exact if_neg (Nat.not_le.mpr hk)

theorem completeIfDue_due {k : Context} {s : State} (h : s.fader.context = some k) (hk : k.params.duration ≤ k.k) :
    completeIfDue s = completeContext s := by
  rw [completeIfDue, h]
  exact if_pos hk

theorem startContext_runs {tag : Byte} {hard : Bool} {p : TransParams} (s : State) (h : 0 < p.duration) :
    startContext tag hard p s = sendMix (contextOpened tag hard p s) := by
  rw [startContext_eq, completeIfDue_running (k := newContext tag hard p (completeContext s)) rfl h]

theorem startContext_at_once {tag : Byte} {hard : Bool} {p : TransParams} (s : State) (h : p.duration = 0) :
    startContext tag hard p s = sendMix (completeContext (contextOpened tag hard p s)) := by
  rw [startContext_eq, completeIfDue_due (k := newContext tag hard p (completeContext s)) rfl h.le]

/-! ### The values for k = 0 -/

theorem curvePosition_zero (curve : Curve) (d : Nat) : curvePosition curve 0 d = 0 := by
  cases curve <;> simp [curvePosition]

theorem Context.position_zero {c : Context} (h : c.k = 0) : c.position = 0 := by
  rw [Context.position, h, curvePosition_zero]

/-- The context is a wipe that comes in (R161). -/
abbrev TransParams.Grows (p : TransParams) : Prop := p.kind = .wipe ∧ p.direction = .inward

theorem Context.level_zero {c : Context} (h : c.k = 0) :
    c.level = if c.params.Grows then c.params.target else c.fromLevel := by
  have hp := Context.position_zero h
  unfold Context.level
  split
  · next hk => simp [hp, dissolveLevel, hk]
  · next hk hd => simp [hk, hd]
  · next hk hd => simp [hk, hd]

theorem Context.share_zero {c : Context} (h : c.k = 0) : c.share = if c.params.Grows then 0 else c.fromLevel := by
  have hp := Context.position_zero h
  have hl := Context.level_zero h
  unfold Context.share
  split
  · next hk =>
    have hn : ¬c.params.Grows := fun k => by cases hk.symm.trans k.1
    rw [hl, if_neg hn, if_neg hn]
  · next hk hd => simp [hk, hd, hp]
  · next hk hd => simp [hk, hd, hp]

/-! ### FADER -/

theorem faderRefusal_none {s : State} (h : ∀ k, s.fader.context = some k → k.tag = 0) : faderRefusal s = none := by
  rw [faderRefusal]
  split
  · next k hk => exact if_pos (h k hk)
  · rfl

theorem faderRefusal_cue {k : Context} {s : State} (h : s.fader.context = some k) (hk : k.tag ≠ 0) :
    faderRefusal s = some .refusedState := by
  rw [faderRefusal, h]
  exact if_neg hk

/-- The result of a FADER: CLAMPED where a value was held (R156). -/
abbrev faderResult (level fields : Nat) : ReqResult := if 1024 < level ∨ 999 < fields then .clamped else .ok

theorem judgeFader_four {r : Request} {a b c d : Byte} (hp : r.params = [a, b, c, d]) (s : State) :
    judgeFader r s
      = answer (faderRefusal s) (faderResult (256 * a.toNat + b.toNat) (256 * c.toNat + d.toNat))
          (startFader (min 1024 (256 * a.toNat + b.toNat)) (min 999 (256 * c.toNat + d.toNat))) s := by
  have h1 : faderLevel r = atMost 1024 (256 * a.toNat + b.toNat) := by rw [faderLevel, hp]; rfl
  have h2 : faderFields r = atMost 999 (256 * c.toNat + d.toNat) := by rw [faderFields, hp]; rfl
  rw [judgeFader, withLength_ok _ (by rw [hp]; rfl), h1, h2]
  simp only [atMost, resultOf, faderResult, Bool.or_eq_true, decide_eq_true_eq]

/-- The start of a FADER's context reports to no cue. -/
theorem startContext_zero_cues {hard : Bool} {p : TransParams} {s : State}
    (h : ∀ k, s.fader.context = some k → k.tag = 0) : (startContext 0 hard p s).cues = s.cues := by
  have e := completeContext_unreported h
  by_cases hd : p.duration = 0
  · rw [startContext_at_once s hd, (sendMix_leaves _).2.1,
      completeContext_unreported (s := contextOpened 0 hard p s) (fun k hk => by cases hk; rfl), contextOpened_cues, e]
  · rw [startContext_runs s (Nat.pos_of_ne_zero hd), (sendMix_leaves _).2.1, contextOpened_cues, e]

theorem startContext_frame_zero {hard : Bool} {p : TransParams} {s : State}
    (h : ∀ k, s.fader.context = some k → k.tag = 0) : Frame [.fader, .mix] s (startContext 0 hard p s) := by
  have hc := startContext_zero_cues (hard := hard) (p := p) h
  intro x hx
  by_cases hq : x = .cues
  · subst hq
    exact congrArg CueEngine.list hc
  · exact startContext_frame 0 hard p s x (by simp_all)

/-- Settles O40: the context that starts, running or completed at once. -/
theorem faderRequest : Obligations.FaderRequest := by
  unfold Obligations.FaderRequest
  intro r a b c d s ht hp level fields result start
  have hj := judgeFader_four hp (received s)
  refine ⟨fun h0 => ?accepted, fun k hk h0 => ?refused⟩
  case refused =>
    exact exec_refused (c := .fader r) rfl ht (hj.trans (by rw [faderRefusal_cue (s := received s) hk h0]; rfl))
  case accepted =>
    have hr : faderRefusal (received s) = none := faderRefusal_none (s := received s) h0
    have e := exec_accepted (c := .fader r) (effect := startFader level fields) (result := result) rfl ht
      (hj.trans (by rw [hr]; rfl))
    let u : State := (received s).setChoices (s.choices + 1)
    let p : TransParams := faderParams level fields (freePattern s.choices)
    have hu : ∀ k, u.fader.context = some k → k.tag = 0 := h0
    have hs : (completeContext u).fader.level = start := completeContext_level u
    have f : Frame [.fader, .mix] u (startContext 0 false p u) := startContext_frame_zero hu
    refine ⟨_, e, rfl, startContext_zero_cues hu,
      Frame.eq (.onto_choices (.onto_mix (.onto_fader (.onto_req
        (((setChoices_frame (received s) _).trans f).trans (setReq_frame _ _)).mono)))), ?_⟩
    by_cases hd : fields = 0
    · have ef : (startContext 0 false p u).fader = _ :=
        (congrArg State.fader (startContext_at_once (tag := 0) (hard := false) (p := p) u hd)).trans
          ((sendMix_leaves _).1.trans (completeContext_fader (s := contextOpened 0 false p u) rfl))
      have ef' : ((startFader level fields (received s)).setReq (requestRecord r result s)).fader = _ := ef
      rw [ef']
      exact ⟨rfl, rfl, rfl, rfl, fun k => absurd hd k.ne', fun _ => ⟨rfl, rfl, rfl⟩⟩
    · have ef : (startContext 0 false p u).fader = _ :=
        (congrArg State.fader (startContext_runs (tag := 0) (hard := false) (p := p) u (Nat.pos_of_ne_zero hd))).trans
          ((sendMix_leaves _).1.trans (contextOpened_fader 0 false p u))
      have ef' : ((startFader level fields (received s)).setReq (requestRecord r result s)).fader = _ := ef
      have hl := Context.level_zero (c := newContext 0 false p (completeContext u)) rfl
      have hq := Context.share_zero (c := newContext 0 false p (completeContext u)) rfl
      rw [if_neg (fun k => by cases k.1)] at hl hq
      rw [ef']
      exact ⟨rfl, rfl, rfl, rfl, fun _ => ⟨hl.trans hs, hq.trans hs, _, _, rfl, rfl, hs, rfl,
        congrArg Timebase.fieldCount ((completeContext_frame u).same .time), rfl, rfl, rfl⟩, fun k => absurd k hd⟩

end Sys2Proof.Machine

/-! O35, O36, O37. FIRE: what becomes of the cue, and what its action does. -/

namespace Sys2Proof.Machine

set_option Elab.async false

/-! ### Cues in a changed list -/

section
variable {pick : Cue → Bool} {f : Cue → Cue} {s : State} {c : Cue}

theorem mem_updateCues_picked (h : c ∈ s.cues.list) (hp : pick c = true) : f c ∈ (updateCues pick f s).cues.list :=
  List.mem_map.mpr ⟨c, h, if_pos hp⟩

theorem mem_updateCues_kept (h : c ∈ s.cues.list) (hp : pick c = false) : c ∈ (updateCues pick f s).cues.list :=
  List.mem_map.mpr ⟨c, h, if_neg (by simp [hp])⟩

/-- A change of cues that do not record, and do not after it, leaves the ACTIVE RECORD cue. -/
theorem activeRecord_updateCues (h : ∀ c, pick c = true → c.recording = false ∧ (f c).recording = false) (s : State) :
    activeRecord (updateCues pick f s) = activeRecord s := by
  show (s.cues.list.map fun c => if pick c then f c else c).find? Cue.recording = s.cues.list.find? Cue.recording
  induction s.cues.list with
  | nil => rfl
  | cons c cs ih =>
    by_cases hp : pick c = true
    · obtain ⟨h1, h2⟩ := h c hp
      simp [hp, h1, h2, ih]
    · simp [hp, List.find?_cons, ih]

end

theorem waitingFor_not_recording {tag : Byte} {c : Cue} (h : c.waitingFor tag = true) : c.recording = false :=
  waiting_not_recording (waitingFor_iff.mp h).2

theorem finishAs_not_recording (c : Cue) {state : CueState} (h : state ≠ .active) (fc : Word16) :
    (c.finishAs state fc).recording = false := by simp [Cue.recording, Cue.finishAs, h]

theorem recording_not_waiting {tag : Byte} {c : Cue} (h : c.recording = true) : c.waitingFor tag = false := by
  rw [← Bool.not_eq_true]
  exact fun k => by rw [waitingFor_not_recording k] at h; cases h

theorem finishAs_not_waiting {tag : Byte} (c : Cue) {state : CueState} (h : state ≠ .waiting) (fc : Word16) :
    (c.finishAs state fc).waitingFor tag = false := by simp [Cue.waitingFor, Cue.finishAs, h]

theorem mem_breakRecord {c : Cue} {s : State} (h : c ∈ s.cues.list) (hr : c.recording = false) :
    c ∈ (breakRecord s).cues.list := by
  by_cases hk : s.tr.punch = none ∨ transportState s = .play
  · rw [breakRecord_kept hk]
    exact h
  · rw [not_or] at hk
    rw [breakRecord_out (Option.isSome_iff_ne_none.mpr hk.1) hk.2, abortActiveRecord_cues]
    exact List.mem_map.mpr ⟨c, h, if_neg (by simp [hr])⟩

theorem mem_takeCommand {c : Cue} {s : State} (x : Command) (h : c ∈ s.cues.list) (hr : c.recording = false) :
    c ∈ (takeCommand x s).cues.list := by
  unfold takeCommand
  split
  · exact mem_breakRecord h hr
  · exact h

theorem mem_giveLocate {c : Cue} {s : State} (skips : Option Word16) (target : Nat) (h : c ∈ s.cues.list)
    (hr : c.recording = false) : c ∈ (giveLocate skips target s).cues.list := by
  unfold giveLocate
  split
  · split
    · exact h
    · exact mem_breakRecord h hr
  · exact h

/-! ### Readiness -/

theorem ownReady_iff (s : State) :
    ownReady s = true ↔ s.chase.state = .locked
      ∨ (s.chase.state = .free ∧ s.time.refState = .present
        ∧ (role s = .live ∨ (transportState s = .play ∧ s.pins.servo = true))) := by
  unfold ownReady
  split <;> simp_all

theorem freshness_fresh {e : PeerEntry} {s : State} :
    freshness e s = .fresh ↔ e.heard = true ∧ ageOf e s ≤ 4 := by
  unfold freshness
  split
  · next h => simp_all
  · next h =>
    split
    · next k => simp_all
    · next k => split <;> simp_all

theorem elapsed_eq (c0 c1 : Word16) : elapsed c0 c1 = (65536 + c1.toNat - c0.toNat) % 65536 := by
  rw [elapsed, BitVec.toNat_sub]
  have := c0.isLt
  congr 1
  omega

theorem cueReady_iff (ownOk : Bool) (required : Word16) (s : State) :
    cueReady ownOk required s = true
      ↔ ownOk = true ∧ ∀ st : Station, required.getLsbD st.val = true → st ≠ own s →
        (s.peers[st]).heard = true ∧ (s.peers[st]).ready = true
          ∧ (65536 + s.time.fieldCount.toNat - (s.peers[st]).arrival.toNat) % 65536 ≤ 4 := by
  have each (hown : ownOk = true) (st : Station) :
      (!required.getLsbD st.val || stationReady ownOk s st) = true
        ↔ (required.getLsbD st.val = true → st ≠ own s →
          (s.peers[st]).heard = true ∧ (s.peers[st]).ready = true
            ∧ (65536 + s.time.fieldCount.toNat - (s.peers[st]).arrival.toNat) % 65536 ≤ 4) := by
    have hage : ageOf (entry s st) s
        = (65536 + s.time.fieldCount.toNat - (s.peers[st]).arrival.toNat) % 65536 := elapsed_eq _ _
    have hfresh := freshness_fresh (e := entry s st) (s := s)
    rw [hage] at hfresh
    rw [Bool.or_eq_true, Bool.not_eq_true', stationReady]
    by_cases ho : st = own s
    · rw [if_pos ho]
      exact ⟨fun _ _ k => absurd ho k, fun _ => .inr hown⟩
    · rw [if_neg ho, Bool.and_eq_true, decide_eq_true_eq, hfresh]
      have e : entry s st = s.peers[st] := rfl
      rw [e]
      cases required.getLsbD st.val with
      | false => simp
      | true => simp [ho]; tauto
  rw [cueReady, Bool.and_eq_true, List.all_eq_true]
  constructor
  · rintro ⟨hown, h⟩
    exact ⟨hown, fun st => (each hown st).mp (h st (List.mem_finRange st))⟩
  · rintro ⟨hown, h⟩
    exact ⟨hown, fun st _ => (each hown st).mpr (h st)⟩

/-! ### FIRE -/

theorem judgeFire_none {r : Request} {tag : Byte} {s : State} (hp : r.params = [tag]) (h : waitingCue tag s = none) :
    judgeFire r s = (.refusedState, s) := by
  have ht : tagParam r = tag := by rw [tagParam, hp]; rfl
  rw [judgeFire, withLength_ok _ (by rw [hp]; rfl), ht, h]

theorem judgeFire_some {r : Request} {tag : Byte} {c : Cue} {s : State} (hp : r.params = [tag])
    (h : waitingCue tag s = some c) : judgeFire r s = (.ok, fireCue (ownReady s) c s) := by
  have ht : tagParam r = tag := by rw [tagParam, hp]; rfl
  rw [judgeFire, withLength_ok _ (by rw [hp]; rfl), ht, h]

theorem exec_fire_none {r : Request} {tag : Byte} {s : State} (ht : Taken r s) (hp : r.params = [tag])
    (h : waitingCue tag s = none) :
    exec (.fire r) s = .next ((received s).setReq (requestRecord r .refusedState s)) :=
  exec_refused (c := .fire r) rfl ht (judgeFire_none (s := received s) hp h)

theorem exec_fire {r : Request} {tag : Byte} {c : Cue} {s : State} (ht : Taken r s) (hp : r.params = [tag])
    (h : waitingCue tag s = some c) :
    exec (.fire r) s = .next ((fireCue (ownReady s) c (received s)).setReq (requestRecord r .ok s)) := by
  refine exec_accepted (c := .fire r) (effect := fireCue (ownReady s) c) rfl ht ?_
  rw [← received_ownReady]
  exact judgeFire_some (s := received s) hp h

theorem fireCue_record {ownOk : Bool} {c : Cue} {tracks : Tracks} {length : Nat} (h : c.action = .record tracks length)
    (s : State) : fireCue ownOk c s = fireJudged ownOk c (fireRecord c.tag tracks length) s := by rw [fireCue, h]

theorem fireCue_transition {ownOk : Bool} {c : Cue} {p : TransParams} (h : c.action = .transition p)
    (s : State) : fireCue ownOk c s = fireJudged ownOk c (fireTransition c.tag c.hard p) s := by rw [fireCue, h]

theorem fireCue_transport {ownOk : Bool} {c : Cue} {command : CueCommand} (h : c.action = .transport command)
    (s : State) : fireCue ownOk c s = actAtOnce (.transport command) (finishWaiting c.tag .done s) := by
  rw [fireCue, h]

theorem fireCue_pulse {ownOk : Bool} {c : Cue} {line : GpiLine} {width : Nat} (h : c.action = .gpiPulse line width)
    (s : State) : fireCue ownOk c s = startPulse line width (finishWaiting c.tag .done s) := by
  rw [fireCue, h]
  rfl

theorem fireCue_mark {ownOk : Bool} {c : Cue} (h : c.action = .mark)
    (s : State) : fireCue ownOk c s = pushMark .cue (finishWaiting c.tag .done s) := by
  rw [fireCue, h]
  rfl

theorem fireJudged_ready {ownOk : Bool} {c : Cue} {make : State → State} {s : State}
    (h : cueReady ownOk c.required s = true) : fireJudged ownOk c make s = make s := if_pos h

theorem fireJudged_hard {ownOk : Bool} {c : Cue} {make : State → State} {s : State}
    (h : cueReady ownOk c.required s = false) (hh : c.hard = true) :
    fireJudged ownOk c make s = setFlag .cueAborted (finishWaiting c.tag .aborted s) := by
  rw [fireJudged, if_neg (by simp [h]), if_pos hh]

theorem fireJudged_soft {ownOk : Bool} {c : Cue} {make : State → State} {s : State}
    (h : cueReady ownOk c.required s = false) (hh : c.hard = false) :
    fireJudged ownOk c make s = make (slipAtFire c.tag s) := by
  rw [fireJudged, if_neg (by simp [h]), hh]
  rfl

theorem finishWaiting_list (tag : Byte) (state : CueState) (s : State) :
    finishWaiting tag state s
      = s.setCues
          { s.cues with
            list := s.cues.list.map fun d => if d.tag = tag ∧ d.state = .waiting then
              { d with state := state, finish := some s.time.fieldCount } else d } := by
  have e (cs ds : List Cue) (h : cs = ds) :
      s.setCues { s.cues with list := cs } = s.setCues { s.cues with list := ds } := by rw [h]
  refine e _ _ (List.map_congr_left fun d _ => ?_)
  by_cases h : d.tag = tag ∧ d.state = .waiting
  · rw [if_pos (waitingFor_iff.mpr h), if_pos h]
    rfl
  · rw [if_neg (fun k => h (waitingFor_iff.mp k)), if_neg h]

/-! ### The fire of a RECORD cue -/

theorem activate_eq (tag : Byte) (remaining : Nat) (s : State) :
    activate tag remaining s = s.setCues (activate tag remaining s).cues := rfl

/-- The cue as it becomes ACTIVE (R145, R150). -/
def Cue.activated (remaining : Nat) (c : Cue) : Cue := { c with state := .active, remaining := remaining, notReady := 0 }

/-- A RECORD cue that has become ACTIVE, by the punch-in's answer (R145). -/
def Cue.answered (fc : Word16) (c : Cue) : PunchAnswer → Cue
  | .punched => c
  | .rehearsal => { c with rehearsal := true }
  | .broken => c.finishAs .aborted fc

theorem punchAnswer_congr {tracks : Tracks} {s t : State} (hz : t.straps = s.straps) (hp : t.pins = s.pins)
    (ht : t.tr = s.tr) : punchAnswer tracks t = punchAnswer tracks s := by
  have h : transportState t = transportState s := transportState_congr hz hp (by rw [ht])
  rw [punchAnswer, punchAnswer, h, ht]

/-- The station as the cue of a tag has become ACTIVE for a punch-in. -/
def recordActivated (tag : Byte) (length : Nat) (s : State) : State := activate tag (2 * length) (endActiveRecord s)

theorem fireRecord_eq (tag : Byte) (tracks : Tracks) (length : Nat) (s : State) :
    fireRecord tag tracks length s
      = answerPunch tag (punchAnswer tracks s) (punchIn tracks (recordActivated tag length s)) := by
  have e : punchAnswer tracks (recordActivated tag length s) = punchAnswer tracks s := punchAnswer_congr rfl rfl rfl
  show answerPunch tag (punchAnswer tracks (recordActivated tag length s)) _ = _
  rw [e]
  rfl

theorem recordActivated_mem {tag : Byte} {length : Nat} {c : Cue} {s : State} (h : c ∈ s.cues.list)
    (hw : c.waitingFor tag = true) : c.activated (2 * length) ∈ (recordActivated tag length s).cues.list :=
  activated_mem h (waitingFor_iff.mp hw).1 (waitingFor_iff.mp hw).2

theorem recordActivated_ended {tag : Byte} {length : Nat} {d : Cue} {s : State} (h : d ∈ s.cues.list)
    (hr : d.recording = true) :
    d.finishAs .done s.time.fieldCount ∈ (recordActivated tag length s).cues.list :=
  mem_updateCues_kept (mem_updateCues_picked h hr) (finishAs_not_waiting d (by decide) _)

theorem punchIn_cues (tracks : Tracks) (s : State) : (punchIn tracks s).cues = s.cues := by
  obtain ⟨p, e⟩ := punchIn_touches tracks s
  rw [e]
  rfl

theorem punchIn_time (tracks : Tracks) (s : State) : (punchIn tracks s).time = s.time := by
  obtain ⟨p, e⟩ := punchIn_touches tracks s
  rw [e]
  rfl

theorem answerPunch_mem {tag : Byte} {c : Cue} {s : State} (a : PunchAnswer) (h : c ∈ s.cues.list) (ht : c.tag = tag)
    (hr : c.recording = true) : c.answered s.time.fieldCount a ∈ (answerPunch tag a s).cues.list := by
  have hp : (decide (c.tag = tag) && c.recording) = true := by simp [ht, hr]
  cases a with
  | punched => exact h
  | rehearsal => exact mem_updateCues_picked (f := fun c => { c with rehearsal := true }) h hp
  | broken => exact mem_updateCues_picked (f := fun c => c.finishAs .aborted s.time.fieldCount) h hp

theorem answerPunch_kept {tag : Byte} {c : Cue} {s : State} (a : PunchAnswer) (h : c ∈ s.cues.list)
    (hr : c.recording = false) : c ∈ (answerPunch tag a s).cues.list := by
  have hp : (decide (c.tag = tag) && c.recording) = false := by simp [hr]
  cases a with
  | punched => exact h
  | rehearsal => exact mem_updateCues_kept h hp
  | broken => exact mem_updateCues_kept (f := fun c => c.finishAs .aborted s.time.fieldCount) h hp

theorem answerPunch_tr (tag : Byte) (a : PunchAnswer) (s : State) : (answerPunch tag a s).tr = s.tr :=
  (answerPunch_frame tag a s).tr

theorem answerPunch_flags {tag : Byte} {a : PunchAnswer} {f : Flag} {s : State} (h : hasFlag s f = true) :
    hasFlag (answerPunch tag a s) f = true := by
  cases a with
  | punched => exact h
  | rehearsal => exact h
  | broken => exact hasFlag_setFlag_mono (s := updateCues _ _ s) h

theorem activated_recording {n : Nat} {c : Cue} (h : c.isRecord = true) : (c.activated n).recording = true := by
  have e : (c.activated n).recording = (true && c.isRecord) := rfl
  rw [e, h]
  rfl

theorem fireRecord_mem {tag : Byte} {tracks : Tracks} {length : Nat} {c : Cue} {s : State} (h : c ∈ s.cues.list)
    (hw : c.waitingFor tag = true) (hr : c.isRecord = true) :
    (c.activated (2 * length)).answered s.time.fieldCount (punchAnswer tracks s)
      ∈ (fireRecord tag tracks length s).cues.list := by
  rw [fireRecord_eq]
  have hm : c.activated (2 * length) ∈ (punchIn tracks (recordActivated tag length s)).cues.list := by
    rw [punchIn_cues]
    exact recordActivated_mem h hw
  have := answerPunch_mem (punchAnswer tracks s) hm (waitingFor_iff.mp hw).1 (activated_recording hr)
  rwa [punchIn_time] at this

theorem fireRecord_ended {tag : Byte} {tracks : Tracks} {length : Nat} {d : Cue} {s : State} (h : d ∈ s.cues.list)
    (hr : d.recording = true) :
    d.finishAs .done s.time.fieldCount ∈ (fireRecord tag tracks length s).cues.list := by
  rw [fireRecord_eq]
  refine answerPunch_kept _ ?_ (finishAs_not_recording d (by decide) _)
  rw [punchIn_cues]
  exact recordActivated_ended h hr

theorem fireRecord_tr {tag : Byte} {tracks : Tracks} {length : Nat} {s : State} :
    (fireRecord tag tracks length s).tr = (punchIn tracks s).tr := by
  rw [fireRecord_eq, answerPunch_tr]
  have e : punchAnswer tracks (recordActivated tag length s) = punchAnswer tracks s := punchAnswer_congr rfl rfl rfl
  rw [punchIn, punchIn, e]
  cases punchAnswer tracks s <;> rfl

theorem fireRecord_broken {tag : Byte} {tracks : Tracks} {length : Nat} {s : State}
    (h : punchAnswer tracks s = .broken) : hasFlag (fireRecord tag tracks length s) .cueAborted = true := by
  rw [fireRecord_eq, h]
  exact hasFlag_setFlag_self _ _

theorem fireRecord_flags {tag : Byte} {tracks : Tracks} {length : Nat} {f : Flag} {s : State}
    (h : hasFlag s f = true) : hasFlag (fireRecord tag tracks length s) f = true := by
  rw [fireRecord_eq]
  refine answerPunch_flags ?_
  obtain ⟨p, e⟩ := punchIn_touches tracks (recordActivated tag length s)
  rw [e]
  exact h

/-! ### The answers to a punch-in (R94) -/

theorem punchAnswer_rehearsal {tracks : Tracks} {s : State} (h : tracks &&& s.tr.armed = 0) :
    punchAnswer tracks s = .rehearsal := if_pos h

theorem punchAnswer_punched {tracks : Tracks} {s : State} (h : tracks &&& s.tr.armed ≠ 0)
    (hp : s.tr.punch.isSome = true ∨ transportState s = .play) : punchAnswer tracks s = .punched := by
  rw [punchAnswer, if_neg h, if_pos (by simpa using hp)]

theorem punchAnswer_broken {tracks : Tracks} {s : State} (h : tracks &&& s.tr.armed ≠ 0) (hp : s.tr.punch = none)
    (hn : transportState s ≠ .play) : punchAnswer tracks s = .broken := by
  rw [punchAnswer, if_neg h, if_neg (by simp [hp, hn])]

/-- The transport after a punch-in, by its answer (R94, R95). -/
def punchLines (tracks : Tracks) (s : State) : PunchAnswer → Transport
  | .punched => { s.tr with punch := some { tracks := tracks &&& s.tr.armed, tally := tallyStart s } }
  | .rehearsal => { s.tr with punch := none }
  | .broken => s.tr

theorem punchIn_tr (tracks : Tracks) (s : State) :
    (punchIn tracks s).tr = punchLines tracks s (punchAnswer tracks s) := by
  rw [punchIn]
  cases punchAnswer tracks s <;> rfl

/-- Settles O35: readiness, and the fire by the cue's action. -/
theorem fireRequest : Obligations.FireRequest := by
  unfold Obligations.FireRequest
  refine ⟨fun s => ⟨ownReady_iff s, fun ownOk required => cueReady_iff ownOk required s⟩, fun r tag s ht hp =>
    ⟨fun h => exec_fire_none ht hp h, fun c h => ?_⟩⟩
  intro finished
  obtain ⟨hmem, htag, hwait⟩ := waits_of_find h
  have e := exec_fire ht hp h
  have hfin : finishWaiting c.tag .done (received s) = (received s).setCues { s.cues with list := finished } := by
    rw [htag]
    exact finishWaiting_list tag .done (received s)
  refine ⟨e, fun line width ha => ?pulse, fun ha hq hn => ?mark, fun tracks length ha hready hplay harm hnone => ?record⟩
  case pulse =>
    rw [e, fireCue_pulse ha, hfin]
    rfl
  case mark =>
    rw [e, fireCue_mark ha, hfin, pushMark_room (s := (received s).setCues { s.cues with list := finished }) hq hn]
    rfl
  case record =>
    have hr : cueReady (ownReady s) c.required (received s) = true := hready
    have ha' : punchAnswer tracks (received s) = .punched := punchAnswer_punched (s := received s) harm (.inr hplay)
    have hw : c.waitingFor c.tag = true := waitingFor_iff.mpr ⟨rfl, hwait⟩
    have hm := fireRecord_mem (tracks := tracks) (length := length) (s := received s) hmem hw (by simp [Cue.isRecord, ha])
    rw [ha'] at hm
    have htr : (fireRecord c.tag tracks length (received s)).tr = _ :=
      fireRecord_tr.trans ((punchIn_tr tracks (received s)).trans (congrArg (punchLines tracks (received s)) ha'))
    have hfl : (fireRecord c.tag tracks length (received s)).flags = s.flags := by
      rw [fireRecord_eq, ha']
      obtain ⟨p, e⟩ := punchIn_touches tracks (recordActivated c.tag length (received s))
      exact (congrArg State.flags e).trans rfl
    rw [fireCue_record ha, fireJudged_ready hr] at e
    refine ⟨_, e, rfl, ?_, ⟨_, hm, htag, rfl, rfl, rfl⟩, ?_⟩
    · show editLines (fireRecord c.tag tracks length (received s)) = _
      rw [editLines, htr]
      rfl
    · have hall : Frame [.req, .transport, .lines, .cues, .samples, .flags] (received s)
          ((fireRecord c.tag tracks length (received s)).setReq (requestRecord r .ok s)) :=
        ((fireRecord_frame _ _ _ _).trans (setReq_frame _ _)).mono
      refine Frame.eq (.onto_cues (.onto_tr (.onto_req ?_)))
      intro x hx
      by_cases hxf : x = .flags
      · subst hxf
        exact hfl
      · exact hall x (by simp_all)

end Sys2Proof.Machine

/-! O36. The fire of a TRANSPORT cue and of a RECORD cue, case by case. -/

namespace Sys2Proof.Machine

set_option Elab.async false

/-! ### A cue that does not fire, or slips -/

theorem finishWaiting_frame (tag : Byte) (state : CueState) (s : State) : Frame [.cues] s (finishWaiting tag state s) :=
  updateCues_frame _ _ s

theorem slipAtFire_frame (tag : Byte) (s : State) : Frame [.cues, .flags] s (slipAtFire tag s) :=
  ((updateCues_frame _ _ s).trans (setFlag_frame _ _)).mono

theorem slipAtFire_mem {tag : Byte} {c : Cue} {s : State} (h : c ∈ s.cues.list) (hw : c.waitingFor tag = true) :
    { c with slipped := true } ∈ (slipAtFire tag s).cues.list :=
  mem_updateCues_picked (f := fun c => { c with slipped := true }) h hw

theorem slipAtFire_kept {tag : Byte} {c : Cue} {s : State} (h : c ∈ s.cues.list) (hw : c.waitingFor tag = false) :
    c ∈ (slipAtFire tag s).cues.list := mem_updateCues_kept (f := fun c => { c with slipped := true }) h hw

theorem waitingFor_other {tag : Byte} {d : Cue} (h : d.tag ≠ tag) : d.waitingFor tag = false := by
  rw [← Bool.not_eq_true, waitingFor_iff]
  exact fun k => h k.1

/-- A HARD cue that is not ready (R144). -/
theorem refusedFire_leaves {tag : Byte} {c : Cue} {s t : State} (h : c ∈ s.cues.list) (hw : c.waitingFor tag = true)
    (hc : t.cues = (finishWaiting tag .aborted s).cues) (hf : t.flags = (setFlag .cueAborted s).flags)
    (hx : t.time = s.time) :
    hasFlag t .cueAborted = true ∧ HoldsTag t tag .aborted ∧ ∀ d ∈ s.cues.list, d.tag ≠ tag → d ∈ t.cues.list := by
  refine ⟨?_, ⟨c.finishAs .aborted s.time.fieldCount, ?_, (waitingFor_iff.mp hw).1, rfl, fun _ => ?_⟩, fun d hd hn => ?_⟩
  · unfold hasFlag
    rw [hf]
    exact hasFlag_setFlag_self .cueAborted s
  · rw [hc]
    exact mem_updateCues_picked (f := fun c => c.finishAs .aborted s.time.fieldCount) h hw
  · rw [hx]
    rfl
  · rw [hc]
    exact mem_updateCues_kept (f := fun c => c.finishAs .aborted s.time.fieldCount) hd (waitingFor_other hn)

/-- The station in which a cue that fires is made, ready or slipped (R144). -/
structure FiresIn (tag : Byte) (ready : Bool) (c q : Cue) (s u : State) : Prop where
  frame : Frame [.cues, .flags] s u
  cue : q ∈ u.cues.list
  waiting : q.waitingFor tag = true
  action : q.action = c.action
  others : ∀ d ∈ s.cues.list, d.waitingFor tag = false → d ∈ u.cues.list
  slipped : ready = false → q.slipped = true ∧ hasFlag u .syncSlip = true
  flags : ready = true → u.flags = s.flags

theorem fireJudged_fires {ownOk : Bool} {c : Cue} {s : State} (hm : c ∈ s.cues.list) (hw : c.state = .waiting)
    (h : cueReady ownOk c.required s = true ∨ c.hard = false) :
    ∃ q u, FiresIn c.tag (cueReady ownOk c.required s) c q s u ∧ ∀ make, fireJudged ownOk c make s = make u := by
  have hwf : c.waitingFor c.tag = true := waitingFor_iff.mpr ⟨rfl, hw⟩
  cases hr : cueReady ownOk c.required s with
  | true =>
    exact ⟨c, s, ⟨.refl s, hm, hwf, rfl, fun d hd _ => hd, fun k => (by cases k), fun _ => rfl⟩,
      fun make => fireJudged_ready hr⟩
  | false =>
    have hh : c.hard = false := h.resolve_left (by simp [hr])
    exact ⟨{ c with slipped := true }, slipAtFire c.tag s, ⟨slipAtFire_frame _ _, slipAtFire_mem hm hwf, hwf, rfl,
      fun d hd k => slipAtFire_kept hd k, fun _ => ⟨rfl, hasFlag_setFlag_self _ _⟩, fun k => by cases k⟩,
      fun make => fireJudged_soft hr hh⟩

/-! ### The fire of a TRANSPORT cue -/

theorem actAtOnce_transport_frame (command : CueCommand) (s : State) :
    Frame [.chase, .transport, .lines, .cues, .flags] s (actAtOnce (.transport command) s) := by
  cases command with
  | stop => exact (commandStop_frame s).mono
  | play => exact ((disableChase_frame s).trans (takeCommand_frame _ _)).mono
  | locate f => exact ((disableChase_frame s).trans (giveLocate_frame _ _ _)).mono

theorem giveLocate_chase (skips : Option Word16) (target : Nat) (s : State) : (giveLocate skips target s).chase = s.chase :=
  (giveLocate_frame skips target s).same .chase

theorem actAtOnce_chase (command : CueCommand) (s : State) :
    (actAtOnce (.transport command) s).chase = (disableChase s).chase := by
  cases command with
  | stop => exact takeCommand_chase _ _
  | play => exact takeCommand_chase _ _
  | locate f => exact giveLocate_chase _ _ _

theorem actAtOnce_unready {command : CueCommand} {s : State} (h : deckReady s = false) :
    (actAtOnce (.transport command) s).tr = s.tr := by
  have hd : deckReady (disableChase s) = false := (disableChase_ready s).trans h
  have ht : (disableChase s).tr = s.tr := (disableChase_frame s).tr
  cases command with
  | stop => exact (congrArg State.tr (takeCommand_of_not_ready hd)).trans ht
  | play => exact (congrArg State.tr (takeCommand_of_not_ready hd)).trans ht
  | locate f => exact (congrArg State.tr (giveLocate_of_not_ready hd)).trans ht

theorem actAtOnce_mem {command : CueCommand} {c : Cue} {s : State} (h : c ∈ s.cues.list) (hr : c.recording = false) :
    c ∈ (actAtOnce (.transport command) s).cues.list := by
  have hm : c ∈ (disableChase s).cues.list := by rw [disableChase_cues]; exact h
  cases command with
  | stop => exact mem_takeCommand .stop hm hr
  | play => exact mem_takeCommand (.speed 256) hm hr
  | locate f => exact mem_giveLocate _ f hm hr

/-- A locate of a cue, taken on a deck that takes commands (R89, R91). -/
theorem actAtOnce_locate {f : Nat} {s : State} (h : deckReady s = true) :
    ∃ l, LocateTaken (some s.time.fieldCount) f (disableChase s) (actAtOnce (.transport (.locate f)) s) l := by
  have hd : deckReady (disableChase s) = true := (disableChase_ready s).trans h
  have ht : (disableChase s).time = s.time := (disableChase_frame s).same .time
  obtain ⟨l, k⟩ := giveLocate_taken (skips := some (disableChase s).time.fieldCount) (target := f) hd
  rw [ht] at k
  refine ⟨l, ?_⟩
  show LocateTaken _ _ _ (giveLocate (some (disableChase s).time.fieldCount) f (disableChase s)) l
  rw [ht]
  exact k

/-- STOP, or a locate that starts, takes the transport out of PLAY (R96). -/
theorem actAtOnce_breaks {command : CueCommand} {s : State} (h : deckReady s = true)
    (hc : command = .stop ∨ s.tr.locate = none ∧ ∃ f, command = .locate f) :
    (actAtOnce (.transport command) s).tr.punch = none
      ∧ (s.tr.punch.isSome = true → RecordBroken s (actAtOnce (.transport command) s)) := by
  obtain rfl | ⟨hl, f, rfl⟩ := hc
  · obtain ⟨h1, h2, -⟩ := commandStop_record h
    exact ⟨h1, h2⟩
  · obtain ⟨l, k⟩ := actAtOnce_locate (f := f) h
    have htr : (disableChase s).tr = s.tr := (disableChase_frame s).tr
    obtain ⟨-, -, hp, hb, -⟩ := k.started (by rw [htr]; exact hl)
    rw [htr] at hb
    exact ⟨hp, fun q => (hb q).congr (disableChase_same s).symm rfl rfl rfl⟩

theorem activeRecord_finishWaiting {tag : Byte} {state : CueState} (hs : state ≠ .active) (s : State) :
    activeRecord (finishWaiting tag state s) = activeRecord s :=
  activeRecord_updateCues (fun c hc => ⟨waitingFor_not_recording hc, finishAs_not_recording c hs _⟩) s

/-! ### The fire of a RECORD cue -/

/-- Settles O36: the command of the TRANSPORT cue, and the answer to the RECORD cue's punch-in. -/
theorem transportAndRecordCuesFire : Obligations.TransportAndRecordCuesFire := by
  unfold Obligations.TransportAndRecordCuesFire
  refine ⟨fun r tag c command s ht hp hw ha => ?transport, fun r tag c tracks length s ht hp hw ha => ?record⟩
  case transport =>
    obtain ⟨hmem, rfl, hwait⟩ := waits_of_find hw
    have e := exec_fire ht hp hw
    rw [fireCue_transport ha] at e
    let u : State := finishWaiting c.tag .done (received s)
    have hready : deckReady u = deckReady s := deckReady_congr rfl rfl
    have hfin : c.finishAs .done s.time.fieldCount ∈ u.cues.list :=
      mem_updateCues_picked (f := fun c => c.finishAs .done s.time.fieldCount) hmem (waitingFor_iff.mpr ⟨rfl, hwait⟩)
    have hfr := actAtOnce_transport_frame command u
    have htime : (actAtOnce (.transport command) u).time = s.time := hfr.same .time
    have hch := actAtOnce_chase command u
    obtain ⟨h1, h2, h3, -⟩ := disableChase_chase u
    have hact : activeRecord u = activeRecord s := activeRecord_finishWaiting (by decide) (received s)
    have hd : (disableChase u).tr = s.tr := (disableChase_frame u).tr
    refine ⟨_, e, rfl, ⟨_, actAtOnce_mem hfin (finishAs_not_recording c (by decide) _), rfl, rfl, fun _ => ?_⟩,
      (congrArg Chase.state hch).trans h1, (congrArg Chase.offset hch).trans h2, fun k => hch.trans (h3 k),
      fun k => actAtOnce_unready (s := u) (hready.trans k), fun k => ⟨?_, ?_, ?_⟩, fun k hc => ?_,
      Frame.eq (.onto_flags (.onto_cues (.onto_tr (.onto_chase (.onto_req
        (((finishWaiting_frame _ _ _).trans hfr).trans (setReq_frame _ _)).mono)))))⟩
    · show some s.time.fieldCount = some (actAtOnce (.transport command) u).time.fieldCount
      rw [htime]
    · rintro rfl
      have q := commandStop_taken (s := u) (hready.trans k)
      exact ⟨q.command, q.locate, q.mark.trans (congrArg Transport.parkedMark hd)⟩
    · rintro rfl
      have q := takeCommand_taken (c := .speed 256) (s := disableChase u) ((disableChase_ready u).trans (hready.trans k))
      exact ⟨q.command, q.locate, q.mark⟩
    · rintro f rfl
      obtain ⟨l, q⟩ := actAtOnce_locate (f := f) (hready.trans k)
      have hpos : (disableChase u).pos = s.pos := (disableChase_frame u).same .pos
      refine ⟨l, q.locate, q.target, q.attempts, q.settle, q.eot, q.skips, q.command.trans (congrArg Transport.command hd),
        q.armed.trans (congrArg Transport.armed hd), fun hl => ?_, fun o ho => ?_⟩
      · obtain ⟨k1, k2, -, -, -, k6, k7⟩ := q.started (by rw [hd]; exact hl)
        rw [hpos] at k6 k7
        rw [hd] at k7
        exact ⟨k1, k2, k6, k7⟩
      · obtain ⟨k1, k2, k3, -⟩ := q.retargeted o (by rw [hd]; exact ho)
        exact ⟨k1, k2, k3⟩
    · obtain ⟨k1, k2⟩ := actAtOnce_breaks (s := u) (hready.trans k) hc
      refine ⟨k1, fun hpu har => ?_⟩
      obtain ⟨-, b2, -, b4, -⟩ := k2 hpu
      exact ⟨b4 (by rw [hact]; exact har), b2⟩
  case record =>
    intro ready fires own
    obtain ⟨hmem, rfl, hwait⟩ := waits_of_find hw
    have hwf : c.waitingFor c.tag = true := waitingFor_iff.mpr ⟨rfl, hwait⟩
    have e := exec_fire ht hp hw
    rw [fireCue_record ha] at e
    by_cases hf : fires
    · obtain ⟨q, u, k, hmake⟩ := fireJudged_fires (s := received s) hmem hwait hf
      rw [hmake] at e
      have hq : q.isRecord = true := by rw [Cue.isRecord, k.action, ha]
      have hz : u.straps = s.straps := k.frame.same .straps
      have hpn : u.pins = s.pins := k.frame.same .pins
      have htr : u.tr = s.tr := k.frame.tr
      have htm : u.time = s.time := k.frame.same .time
      have hst : transportState u = transportState s := transportState_congr hz hpn (by rw [htr])
      have hans : punchAnswer tracks u = punchAnswer tracks s := punchAnswer_congr hz hpn htr
      have hline : (fireRecord c.tag tracks length u).tr = punchLines tracks u (punchAnswer tracks u) :=
        fireRecord_tr.trans (punchIn_tr tracks u)
      have hcue := fireRecord_mem (tracks := tracks) (length := length) k.cue k.waiting hq
      have hfr := (k.frame.trans (fireRecord_frame c.tag tracks length u))
      have htag : q.tag = c.tag := (waitingFor_iff.mp k.waiting).1
      refine ⟨_, e, rfl, Frame.eq (.onto_flags (.onto_cues (.onto_tr (.onto_req
        (hfr.trans (setReq_frame _ _)).mono)))), fun h1 h2 => ?_, fun _ d hd => ?_, fun _ h0 => ?_, fun _ h0 hpl => ?_,
        fun _ h0 hpn hpl => ?_, fun h1 h2 => ?_⟩
      · obtain h3 | h3 := hf
        · cases h1.symm.trans h3
        · cases h2.symm.trans h3
      · have hrec : d.recording = true := List.find?_some hd
        have := fireRecord_ended (tag := c.tag) (tracks := tracks) (length := length)
          (k.others d (List.mem_of_find?_eq_some hd) (recording_not_waiting hrec)) hrec
        rw [htm] at this
        exact this
      · have a : punchAnswer tracks u = .rehearsal := punchAnswer_rehearsal (by rw [htr]; exact h0)
        rw [a] at hline hcue
        exact ⟨hline.trans (by rw [punchLines, htr]), _, hcue, htag, rfl, rfl, rfl⟩
      · have a : punchAnswer tracks u = .punched :=
          punchAnswer_punched (by rw [htr]; exact h0) (by rw [htr, hst]; exact hpl)
        rw [a] at hline hcue
        exact ⟨hline.trans (by rw [punchLines, htr, tallyStart, hpn]), _, hcue, htag, rfl, rfl, rfl⟩
      · have a : punchAnswer tracks u = .broken :=
          punchAnswer_broken (by rw [htr]; exact h0) (by rw [htr]; exact hpn) (by rw [hst]; exact hpl)
        have hb := fireRecord_broken (tag := c.tag) (length := length) a
        rw [a] at hline hcue
        refine ⟨hline.trans htr, hb, _, hcue, htag, rfl, fun _ => ?_⟩
        show some u.time.fieldCount = some (fireRecord c.tag tracks length u).time.fieldCount
        have : (fireRecord c.tag tracks length u).time = u.time := (fireRecord_frame c.tag tracks length u).same .time
        rw [this]
      · obtain ⟨h3, h4⟩ := k.slipped h1
        refine ⟨fireRecord_flags h4, _, hcue, ?_, ?_⟩
        · cases punchAnswer tracks u <;> exact htag
        · cases punchAnswer tracks u <;> exact h3
    · obtain ⟨h1, h2⟩ := not_or.mp hf
      have hn : ready = false := by simpa using h1
      have hr : cueReady (ownReady s) c.required (received s) = false := hn
      have hh : c.hard = true := by simpa using h2
      rw [fireJudged_hard hr hh] at e
      refine ⟨_, e, rfl, Frame.eq (.onto_flags (.onto_cues (.onto_tr (.onto_req
        (((finishWaiting_frame _ _ _).trans (setFlag_frame _ _)).trans (setReq_frame _ _)).mono)))), fun _ _ => ?_,
        fun k => absurd k hf, fun k => absurd k hf, fun k => absurd k hf, fun k => absurd k hf,
        fun _ k => by cases hh.symm.trans k⟩
      exact ⟨rfl, refusedFire_leaves (s := received s) hmem hwf rfl rfl rfl⟩

end Sys2Proof.Machine

/-! O37. The fire of a TRANSITION cue: the context that existed completed, the new one started. -/

namespace Sys2Proof.Machine

set_option Elab.async false

/-! ### Cues beside a completion -/

theorem transiting_active {tag : Byte} {c : Cue} (h : c.transiting tag = true) : c.state = .active := by
  simp only [Cue.transiting, Bool.and_eq_true, decide_eq_true_eq] at h
  exact h.1.1

theorem not_transiting {tag : Byte} {c : Cue} (h : c.state ≠ .active) : c.transiting tag = false := by
  rw [← Bool.not_eq_true]
  exact fun k => h (transiting_active k)

theorem active_not_waiting {tag : Byte} {c : Cue} (h : c.state = .active) : c.waitingFor tag = false := by
  simp [Cue.waitingFor, h]

theorem completeContext_mem {c : Cue} {s : State} (h : c ∈ s.cues.list) (ha : c.state ≠ .active) :
    c ∈ (completeContext s).cues.list := by
  cases hk : s.fader.context with
  | none => rw [completeContext_none hk]; exact h
  | some k =>
    by_cases ht : k.tag = 0
    · rw [completeContext_unreported fun o ho => by rw [hk] at ho; cases ho; exact ht]
      exact h
    · rw [completeContext_reported hk ht]
      exact List.mem_map.mpr ⟨c, h, if_neg (by simp [not_transiting ha])⟩

theorem completeContext_done {k : Context} {c : Cue} {s : State} (hk : s.fader.context = some k) (ht : k.tag ≠ 0)
    (h : c ∈ s.cues.list) (hc : c.transiting k.tag = true) :
    c.finishAs .done s.time.fieldCount ∈ (completeContext s).cues.list := by
  rw [completeContext_reported hk ht]
  exact List.mem_map.mpr ⟨c, h, if_pos hc⟩

/-! ### The stages of the fire -/

/-- The station as the cue of a tag has become ACTIVE and no context exists (R150, R155). -/
def transitionActivated (tag : Byte) (s : State) : State := activate tag 0 (completeContext s)

theorem fireTransition_eq (tag : Byte) (hard : Bool) (p : TransParams) (s : State) :
    fireTransition tag hard p s = startContext tag hard p (transitionActivated tag s) := rfl

theorem transitionActivated_frame (tag : Byte) (s : State) : Frame [.fader, .cues] s (transitionActivated tag s) :=
  ((completeContext_frame s).trans (updateCues_frame _ _ _)).mono

theorem fireTransition_frame (tag : Byte) (hard : Bool) (p : TransParams) (s : State) :
    Frame [.fader, .cues, .mix] s (fireTransition tag hard p s) :=
  ((transitionActivated_frame tag s).trans (startContext_frame tag hard p _)).mono

theorem transitionActivated_complete (tag : Byte) (s : State) :
    completeContext (transitionActivated tag s) = transitionActivated tag s :=
  completeContext_none (completeContext_context s)

theorem transitionActivated_mem {tag : Byte} {c : Cue} {s : State} (h : c ∈ s.cues.list) (hw : c.waitingFor tag = true) :
    c.activated 0 ∈ (transitionActivated tag s).cues.list := by
  have hs : c.state ≠ .active := by rw [(waitingFor_iff.mp hw).2]; decide
  exact mem_updateCues_picked (f := Cue.activated 0) (completeContext_mem h hs) hw

theorem transitionActivated_done {tag : Byte} {k : Context} {d : Cue} {s : State} (hk : s.fader.context = some k)
    (ht : k.tag ≠ 0) (h : d ∈ s.cues.list) (hd : d.transiting k.tag = true) :
    d.finishAs .done s.time.fieldCount ∈ (transitionActivated tag s).cues.list :=
  mem_updateCues_kept (completeContext_done hk ht h hd) (finishAs_not_waiting d (by decide) _)

/-- The cues after a start that finds no context: a context of D = 0 reports at once (R155, R158). -/
theorem startContext_cues {tag : Byte} {hard : Bool} {p : TransParams} {s : State} (h : completeContext s = s) :
    (0 < p.duration → (startContext tag hard p s).cues = s.cues)
      ∧ (p.duration = 0 → (startContext tag hard p s).cues = (completeContext (contextOpened tag hard p s)).cues) := by
  refine ⟨fun hd => ?_, fun hd => ?_⟩
  · rw [startContext_runs s hd, (sendMix_leaves _).2.1, contextOpened_cues, h]
  · rw [startContext_at_once s hd, (sendMix_leaves _).2.1]

theorem startContext_mem {tag : Byte} {hard : Bool} {p : TransParams} {c : Cue} {s : State}
    (h : completeContext s = s) (hc : c ∈ s.cues.list) (ha : c.state ≠ .active) :
    c ∈ (startContext tag hard p s).cues.list := by
  obtain ⟨h1, h2⟩ := startContext_cues (tag := tag) (hard := hard) (p := p) h
  by_cases hd : p.duration = 0
  · rw [h2 hd]
    refine completeContext_mem ?_ ha
    rw [contextOpened_cues, h]
    exact hc
  · rw [h1 (Nat.pos_of_ne_zero hd)]
    exact hc

theorem startContext_done {tag : Byte} {hard : Bool} {p : TransParams} {c : Cue} {s : State}
    (h : completeContext s = s) (hc : c ∈ s.cues.list) (hd : p.duration = 0) (ht : tag ≠ 0)
    (hx : c.transiting tag = true) :
    c.finishAs .done s.time.fieldCount ∈ (startContext tag hard p s).cues.list := by
  rw [(startContext_cues (tag := tag) (hard := hard) h).2 hd]
  have ho : (contextOpened tag hard p s).time = s.time := by
    show (completeContext s).time = s.time
    rw [h]
  have hm : c ∈ (contextOpened tag hard p s).cues.list := by
    rw [contextOpened_cues, h]
    exact hc
  rw [← ho]
  exact completeContext_done (k := newContext tag hard p (completeContext s)) rfl ht hm hx

/-- The fader after a start that finds no context. -/
theorem startContext_fader {tag : Byte} {hard : Bool} {p : TransParams} {s : State} (h : completeContext s = s) :
    (0 < p.duration →
        (startContext tag hard p s).fader
          = { level := if p.Grows then p.target else s.fader.level
              gain := audioGain p.law (if p.Grows then 0 else s.fader.level), law := p.law
              windowClass := (newContext tag hard p s).windowClass, invert := (newContext tag hard p s).invert
              softness := (newContext tag hard p s).softness, context := some (newContext tag hard p s) })
      ∧ (p.duration = 0 →
        (startContext tag hard p s).fader
          = { level := p.target, gain := audioGain p.law p.target, law := p.law, windowClass := .full
              invert := false, softness := 0, context := none }) := by
  have hl : (newContext tag hard p s).level = if p.Grows then p.target else s.fader.level := Context.level_zero rfl
  have hq : (newContext tag hard p s).share = if p.Grows then 0 else s.fader.level := Context.share_zero rfl
  have ho := contextOpened_fader tag hard p s
  rw [h] at ho
  refine ⟨fun hd => ?_, fun hd => ?_⟩
  · rw [startContext_runs s hd, (sendMix_leaves _).1, ho, hl, hq]
  · rw [startContext_at_once s hd, (sendMix_leaves _).1,
      completeContext_fader (k := newContext tag hard p s) (by rw [ho])]
    rw [ho]
    rfl

/-- The context of a start, in the terms of a state that the start's own agrees with. -/
theorem newContext_values {tag : Byte} {hard : Bool} {p : TransParams} {s w : State} (hz : w.straps = s.straps)
    (hp : w.peers = s.peers) :
    let k := newContext tag hard p w
    k.params = { p with partner := if p.partner = some (own s) then none else p.partner }
      ∧ (k.params.partner = none → k.pair = .paired)
      ∧ (∀ st, k.params.partner = some st → k.pair = .pending ∧ k.noted = s.peers[st].updates) := by
  intro k
  have ho : own w = own s := congrArg Straps.station hz
  have hpartner : k.params.partner = effectivePartner (own w) p.partner := rfl
  refine ⟨?_, fun h => ?_, fun st h => ?_⟩
  · show { p with partner := effectivePartner (own w) p.partner } = _
    rw [ho]
    rfl
  · rw [hpartner] at h
    show (match effectivePartner (own w) p.partner with | some _ => PairStatus.pending | none => .paired) = _
    rw [h]
  · rw [hpartner] at h
    constructor
    · show (match effectivePartner (own w) p.partner with | some _ => PairStatus.pending | none => .paired) = _
      rw [h]
    · show (match effectivePartner (own w) p.partner with | some st => (entry w st).updates | none => 0) = _
      rw [h, ← hp]
      rfl

/-- Settles O37: the cue not ready and HARD; else its context, running or completed at once. -/
theorem transitionCueFires : Obligations.TransitionCueFires := by
  unfold Obligations.TransitionCueFires
  intro r c p s ht hp hw ha ready fires start grows
  obtain ⟨hmem, -, hwait⟩ := waits_of_find hw
  have hwf : c.waitingFor c.tag = true := waitingFor_iff.mpr ⟨rfl, hwait⟩
  have e := exec_fire ht hp hw
  rw [fireCue_transition ha] at e
  by_cases hf : fires
  · obtain ⟨q, u, k, hmake⟩ := fireJudged_fires (s := received s) hmem hwait hf
    rw [hmake, fireTransition_eq] at e
    let w : State := transitionActivated c.tag u
    have hcw : completeContext w = w := transitionActivated_complete c.tag u
    have hq : q.isTransition = true := by rw [Cue.isTransition, k.action, ha]
    have hfu : u.fader = s.fader := k.frame.same .fader
    have htm : u.time = s.time := k.frame.same .time
    have hfw : Frame [.fader, .cues, .flags] (received s) w :=
      (k.frame.trans (transitionActivated_frame c.tag u)).mono
    have htw : w.time = s.time := hfw.same .time
    have hlevel : w.fader.level = start := by
      have h1 : w.fader.level = startLevel u := completeContext_level u
      have h2 : startLevel u = startLevel s := by rw [startLevel, startLevel, hfu]
      exact h1.trans h2
    have hfr : Frame [.fader, .cues, .mix] w (startContext c.tag c.hard p w) := startContext_frame _ _ _ w
    have hcue : q.activated 0 ∈ w.cues.list := transitionActivated_mem k.cue k.waiting
    have htag : q.tag = c.tag := (waitingFor_iff.mp k.waiting).1
    have hx : (q.activated 0).transiting c.tag = true := by
      have h1 : (q.activated 0).transiting c.tag = (true && q.isTransition && decide (q.tag = c.tag)) := rfl
      rw [h1, hq, htag]
      simp
    obtain ⟨hfd, hfd0⟩ := startContext_fader (tag := c.tag) (hard := c.hard) (p := p) hcw
    rw [hlevel] at hfd
    obtain ⟨hv1, hv2, hv3⟩ := newContext_values (tag := c.tag) (hard := c.hard) (p := p) (s := s) (w := w)
      (hfw.same .straps) (hfw.same .peers)
    have hflags : (startContext c.tag c.hard p w).flags = u.flags :=
      Eq.trans (hfr.same .flags) ((transitionActivated_frame c.tag u).same .flags)
    refine ⟨_, e, rfl, Frame.eq (.onto_flags (.onto_mix (.onto_cues (.onto_fader (.onto_req
      ((hfw.trans hfr).trans (setReq_frame _ _)).mono))))), fun h => hflags.trans (k.flags h), fun h => absurd hf h,
      fun _ h => ?slips, fun _ o ho hot d hd hdt => ?earlier, fun _ hd => ?runs, fun _ hd => ?ends⟩
    case slips =>
      obtain ⟨h1, h2⟩ := k.slipped (by rw [← Bool.not_eq_true]; exact h)
      refine ⟨?_, ?_⟩
      · unfold hasFlag at h2 ⊢
        exact (congrArg (fun f => f.getLsbD Flag.syncSlip.number) hflags).trans h2
      · by_cases hd : p.duration = 0
        · by_cases h0 : c.tag = 0
          · refine ⟨q.activated 0, ?_, htag, h1⟩
            show q.activated 0 ∈ (startContext c.tag c.hard p w).cues.list
            rw [(startContext_cues hcw).2 hd,
              completeContext_unreported (s := contextOpened c.tag c.hard p w) (fun o ho => by cases ho; exact h0),
              contextOpened_cues, hcw]
            exact hcue
          · exact ⟨_, startContext_done hcw hcue hd h0 hx, htag, h1⟩
        · refine ⟨q.activated 0, ?_, htag, h1⟩
          show q.activated 0 ∈ (startContext c.tag c.hard p w).cues.list
          rw [(startContext_cues hcw).1 (Nat.pos_of_ne_zero hd)]
          exact hcue
    case earlier =>
      have hdm : d ∈ u.cues.list := k.others d hd (active_not_waiting (transiting_active hdt))
      have := transitionActivated_done (tag := c.tag) (by rw [hfu]; exact ho) hot hdm hdt
      rw [htm] at this
      exact startContext_mem hcw this CueState.noConfusion
    case runs =>
      refine ⟨⟨q.activated 0, ?_, htag, rfl⟩, newContext c.tag c.hard p w, ?_, rfl, rfl, hlevel, ?_, rfl, hv1, rfl, hv2, hv3,
        hfd hd⟩
      · show q.activated 0 ∈ (startContext c.tag c.hard p w).cues.list
        rw [(startContext_cues hcw).1 hd]
        exact hcue
      · exact congrArg Fader.context (hfd hd)
      · exact congrArg Timebase.fieldCount htw
    case ends =>
      refine ⟨hfd0 hd, fun h0 => ⟨_, startContext_done hcw hcue hd h0 hx, htag, rfl, fun _ => ?_⟩⟩
      have : (startContext c.tag c.hard p w).time = w.time := hfr.same .time
      exact congrArg (fun x => some x.fieldCount) this.symm
  · obtain ⟨h1, h2⟩ := not_or.mp hf
    have hn : cueReady (ownReady s) c.required (received s) = false := by
      rw [← Bool.not_eq_true]
      exact h1
    have hh : c.hard = true := by simpa using h2
    rw [fireJudged_hard hn hh] at e
    refine ⟨_, e, rfl, Frame.eq (.onto_flags (.onto_mix (.onto_cues (.onto_fader (.onto_req
        (((finishWaiting_frame _ _ _).trans (setFlag_frame _ _)).trans (setReq_frame _ _)).mono))))), fun k => absurd k h1,
      fun _ => ⟨rfl, rfl, refusedFire_leaves (s := received s) hmem hwf rfl rfl rfl⟩, fun k => absurd k hf,
      fun k => absurd k hf, fun k => absurd k hf, fun k => absurd k hf⟩

end Sys2Proof.Machine

/-! O43. The GPI inputs: the filter, the edges one sample makes, and the bindings performed. -/

namespace Sys2Proof.Machine

set_option Elab.async false

/-! ### One input -/

section
variable {i : GpiInput} {level : Bool}

theorem GpiInput.sample_same (h : i.accepted = some level) :
    i.sample level = { i with run := 0, lastSample := some level } := if_pos h

theorem GpiInput.sample_accepts (h : i.accepted ≠ some level) (hn : 4 ≤ i.runAfter level) :
    i.sample level = { i with accepted := some level, run := 0, lastSample := some level } := by
  rw [GpiInput.sample, if_neg h, if_pos hn]

theorem GpiInput.sample_counts (h : i.accepted ≠ some level) (hn : i.runAfter level < 4) :
    i.sample level = { i with run := i.runAfter level, lastSample := some level } := by
  rw [GpiInput.sample, if_neg h, if_neg (Nat.not_le.mpr hn)]

theorem GpiInput.runAfter_same (h : i.lastSample = some level) : i.runAfter level = i.run + 1 := if_pos h

theorem GpiInput.runAfter_other (h : i.lastSample ≠ some level) : i.runAfter level = 1 := if_neg h

theorem GpiInput.sample_keeps (i : GpiInput) (level : Bool) :
    (i.sample level).lastSample = some level ∧ (i.sample level).edge = i.edge
      ∧ (i.sample level).binding = i.binding ∧ (i.sample level).holdoff = i.holdoff := by
  unfold GpiInput.sample
  split
  · exact ⟨rfl, rfl, rfl, rfl⟩
  · split <;> exact ⟨rfl, rfl, rfl, rfl⟩

theorem GpiInput.runAfter_four : 4 ≤ i.runAfter level ↔ i.lastSample = some level ∧ 3 ≤ i.run := by
  by_cases h : i.lastSample = some level
  · rw [GpiInput.runAfter_same h]
    exact ⟨fun k => ⟨h, Nat.le_of_succ_le_succ k⟩, fun k => Nat.succ_le_succ k.2⟩
  · rw [GpiInput.runAfter_other h]
    exact ⟨fun k => absurd k (by decide), fun k => absurd k.1 h⟩

/-- A sample is an edge of the input: the accepted level moves from the other level to it (R173). -/
theorem GpiInput.sample_edge :
    (i.accepted = some (!level) ∧ (i.sample level).accepted = some level)
      ↔ i.accepted = some (!level) ∧ i.lastSample = some level ∧ 3 ≤ i.run := by
  refine and_congr_right fun ha => ?_
  have hn : i.accepted ≠ some level := by
    rw [ha]
    cases level <;> decide
  rw [← GpiInput.runAfter_four]
  by_cases hr : 4 ≤ i.runAfter level
  · rw [GpiInput.sample_accepts hn hr]
    exact ⟨fun _ => hr, fun _ => rfl⟩
  · rw [GpiInput.sample_counts hn (Nat.not_le.mp hr)]
    exact ⟨fun k => absurd k hn, fun k => absurd k hr⟩

end

/-! ### The edges of a sample -/

theorem sampleInputs_input (levels : BitVec 4) (s : State) (line : GpiLine) :
    (sampleInputs levels s).gpi.inputs[line] = (s.gpi.inputs[line]).sample (levels.getLsbD line.val) := by
  show (s.gpi.inputs.mapIdx fun n i => i.sample (levels.getLsbD n))[line.val] = _
  rw [Vector.getElem_mapIdx]
  rfl

theorem mem_sampleEdges (levels : BitVec 4) (s : State) (line : GpiLine) :
    line ∈ sampleEdges levels s
      ↔ s.gpi.inputs[line].accepted = some (!levels.getLsbD line.val)
        ∧ s.gpi.inputs[line].lastSample = some (levels.getLsbD line.val) ∧ 3 ≤ s.gpi.inputs[line].run := by
  rw [← GpiInput.sample_edge]
  simp [sampleEdges, levelOf]

theorem edgeOrder_perm (n : Nat) (edges : List GpiLine) : (edgeOrder n edges).Perm edges := by
  unfold edgeOrder
  split
  · exact .refl _
  · exact .refl _
  · exact List.perm_insertionSort _ _

theorem sampleEdges_nodup (levels : BitVec 4) (s : State) : (sampleEdges levels s).Nodup :=
  (List.nodup_finRange 4).filter _

theorem exec_gpiSample {levels : BitVec 4} {s : State} (hr : Running s) :
    exec (.gpiSample levels) s = .next (gpiSample levels s) := inRun_of_running _ hr

theorem exec_gpiEdge {line : GpiLine} {rise : Bool} {s : State} (hr : Running s) :
    exec (.gpiEdge line rise) s = .next (gpiEdge line rise s) := inRun_of_running _ hr

/-! ### An edge met -/

/-- The input of a line once its edge is taken (R174). -/
def edgeTaken (line : GpiLine) (s : State) : State := updateInput line (fun j => { j with holdoff := 3 }) s

theorem qualifies_iff (i : GpiInput) (rise : Bool) :
    i.qualifies rise = true ↔ i.binding ≠ .none ∧ (i.edge = .both ∨ i.edge = (if rise then .rise else .fall)) := by
  rw [GpiInput.qualifies, Bool.and_eq_true, bne_iff_ne]
  refine and_congr_right fun _ => ?_
  cases i.edge <;> cases rise <;> decide

theorem meetEdge_ignored {rise : Bool} {line : GpiLine} {s : State}
    (h : ¬(s.gpi.inputs[line].qualifies rise = true ∧ s.gpi.inputs[line].holdoff = 0)) : meetEdge rise s line = s :=
  if_neg h

theorem meetEdge_taken {rise : Bool} {line : GpiLine} {s : State} (h : s.gpi.inputs[line].qualifies rise = true)
    (h0 : s.gpi.inputs[line].holdoff = 0) :
    meetEdge rise s line = performBinding s.gpi.inputs[line].binding line (edgeTaken line s) := if_pos ⟨h, h0⟩

/-! ### The bindings -/

theorem edgePlay_enabled {s : State} (h : s.chase.state ≠ .free) : edgePlay s = s := if_neg h

theorem edgePlay_free {s : State} (h : s.chase.state = .free) : edgePlay s = takeCommand (.speed 256) s := if_pos h

theorem edgeStop_live {s : State} (h : isDeck s = false) : edgeStop s = s := if_neg (by simp [h])

theorem edgeStop_deck {s : State} (h : isDeck s = true) : edgeStop s = commandStop s := if_pos h

theorem fireLine_none {line : GpiLine} {s : State}
    (h : ∀ d ∈ s.cues.list, d.state = .waiting → d.trigger ≠ .gpi line) : fireLine line s = s := by
  have hn : (s.cues.list.find? fun c => c.state = .waiting && c.trigger = .gpi line) = none :=
    List.find?_eq_none.mpr fun d hd => by simpa using h d hd
  rw [fireLine, hn]

theorem fireLine_first {line : GpiLine} {d : Cue} {pre post : List Cue} {s : State} (h : s.cues.list = pre ++ d :: post)
    (hw : d.state = .waiting) (ht : d.trigger = .gpi line)
    (hp : ∀ q ∈ pre, q.state = .waiting → q.trigger ≠ .gpi line) : fireLine line s = fireCue (ownReady s) d s := by
  have hf : (s.cues.list.find? fun c => c.state = .waiting && c.trigger = .gpi line) = some d := by
    rw [h, List.find?_append, List.find?_eq_none.mpr fun q hq => by simpa using hp q hq]
    simp [hw, ht]
  rw [fireLine, hf]

/-- A mark on a stack of any height (R180). -/
theorem pushMark_marks {origin : Origin} {s : State} (hq : s.pos.record.quality ≠ .none) :
    (pushMark origin s).marks = markNow origin s :: s.marks.take 7 := by
  by_cases h : s.marks.length < 8
  · rw [pushMark_room hq h, List.take_of_length_le (Nat.le_of_lt_succ h)]
    rfl
  · rw [pushMark_full hq (Nat.not_lt.mp h)]
    rfl

theorem Frame.self_taken {s t : State} (h : Frame [.transport, .lines, .chase, .cues, .samples, .flags] s t) :
    t = (((s.setTr t.tr).setChase t.chase).setCues t.cues).setFlags t.flags :=
  Frame.eq (.onto_flags (.onto_cues (.onto_chase (.onto_tr h.mono))))

/-- A STOP edge on a deck (R86, R175). -/
theorem edgeStop_leaves {s : State} (h : deckReady s = true) :
    let t := commandStop s
    t.tr.command = .stop ∧ t.tr.locate = none ∧ t.tr.parkedMark = s.tr.parkedMark ∧ t.tr.armed = s.tr.armed
      ∧ (s.tr.punch.isSome = true → RecordBroken s t) ∧ (s.tr.punch = none → RecordKept s t)
      ∧ t = (((s.setTr t.tr).setChase t.chase).setCues t.cues).setFlags t.flags := by
  have k := commandStop_taken h
  obtain ⟨-, hb, hk⟩ := commandStop_record h
  have htr : (disableChase s).tr = s.tr := (disableChase_frame s).tr
  exact ⟨k.command, k.locate, k.mark.trans (congrArg Transport.parkedMark htr),
    k.armed.trans (congrArg Transport.armed htr), hb, hk, (commandStop_frame s).mono.self_taken⟩

/-- Settles O43: the filter of each input, the edge brought by itself, and each binding. -/
theorem gpiInputsTaken : Obligations.GpiInputsTaken := by
  unfold Obligations.GpiInputsTaken
  refine ⟨fun levels s hr => ⟨rfl, rfl, ?edges, fun line => ?filter⟩, fun line rise s hr => ?edge,
    fun line rise s => ?met⟩
  case edges =>
    have hperm := edgeOrder_perm s.choices (sampleEdges levels s)
    refine ⟨edgeOrder s.choices (sampleEdges levels s), choicesAfter (sampleEdges levels s) s.choices,
      hperm.nodup_iff.mpr (sampleEdges_nodup levels s), fun line => ?_, exec_gpiSample hr⟩
    rw [hperm.mem_iff]
    exact mem_sampleEdges levels s line
  case filter =>
    intro i j level
    have hj : j = i.sample level := sampleInputs_input levels s line
    obtain ⟨h1, h2, h3, h4⟩ := GpiInput.sample_keeps i level
    rw [hj]
    refine ⟨h1, h2, h3, h4, fun h => ?_, fun h hl => ?_, fun h hl hn => ?_, fun h hl hn => ?_⟩
    · rw [GpiInput.sample_same h]
      exact ⟨h, rfl⟩
    · rw [GpiInput.sample_counts h (by rw [GpiInput.runAfter_other hl]; decide)]
      exact ⟨rfl, GpiInput.runAfter_other hl⟩
    · rw [GpiInput.sample_counts h (by rw [GpiInput.runAfter_same hl]; omega)]
      exact ⟨rfl, GpiInput.runAfter_same hl⟩
    · rw [GpiInput.sample_accepts h (by rw [GpiInput.runAfter_same hl]; omega)]
      exact ⟨rfl, rfl⟩
  case edge =>
    intro moved
    refine ⟨fun h => ?_, fun h => ?_, fun h => ?_⟩
    · have hn : ¬(!rise) = rise := by cases rise <;> decide
      rw [exec_gpiEdge hr, gpiEdge, h]
      exact congrArg _ (if_neg hn)
    · rw [exec_gpiEdge hr, gpiEdge, h]
      rfl
    · rw [exec_gpiEdge hr, gpiEdge, h]
      exact congrArg _ (if_pos rfl)
  case met =>
    intro i named u t
    have hq : i.qualifies rise = true ↔ named := qualifies_iff i rise
    refine ⟨fun h => meetEdge_ignored (by rw [hq]; exact h), fun hn h0 => ?_⟩
    have ht : t = performBinding i.binding line u := meetEdge_taken (hq.mpr hn) h0
    have hedit := performBinding_edit i.binding line u
    have hrec : RecordSame u s := ⟨rfl, rfl, rfl, rfl⟩
    rw [ht]
    refine ⟨hedit.inputs, hedit.req, fun hb hc => ?_, fun hb hc hd => ?_, fun hb hd => ?_, fun hb hd => ?_,
      fun hb hm => ?_, fun hb hm => ?_, fun hb hc => ?_, fun pre d post hb hs hw hg hp => ?_, fun hb ha => ?_,
      fun hb ha => ?_⟩
    all_goals rw [hb]
    · show edgePlay u = u
      by_cases h : s.chase.state = .free
      · exact (edgePlay_free (s := u) h).trans (takeCommand_of_not_ready (s := u) (hc.resolve_left (fun k => k h)))
      · exact edgePlay_enabled (s := u) h
    · rw [show performBinding .play line u = takeCommand (.speed 256) u from edgePlay_free (s := u) hc]
      have k := takeCommand_taken (c := .speed 256) (s := u) hd
      exact ⟨k.command, k.locate, k.mark, k.armed, fun hp hs => (k.broken hp hs).congr hrec rfl rfl rfl,
        fun h => (k.kept h).congr rfl rfl rfl rfl rfl rfl, (takeCommand_frame _ u).mono.self_record⟩
    · exact edgeStop_live (s := u) hd
    · rw [show performBinding .stop line u = commandStop u from edgeStop_deck (s := u) hd]
      obtain ⟨h1, h2, h3, h4⟩ := disableChase_chase u
      have hch := commandStop_chase u
      refine ⟨(congrArg Chase.state hch).trans h1, (congrArg Chase.offset hch).trans h2, fun h => hch.trans (h3 h),
        fun h => (congrArg Chase.lead hch).trans (h4 h), fun h => ?_, fun h => ?_⟩
      · rw [commandStop_unready (s := u) h]
        exact disableChase_self u
      · obtain ⟨k1, k2, k3, k4, k5, k6, k7⟩ := edgeStop_leaves (s := u) h
        exact ⟨k1, k2, k3, k4, fun h => (k5 h).congr hrec rfl rfl rfl, fun h => (k6 h).congr rfl rfl rfl rfl rfl rfl, k7⟩
    · exact pushMark_none (s := u) hm
    · exact pushMark_marks (s := u) hm
    · exact fireLine_none (s := u) hc
    · exact fireLine_first (s := u) hs hw hg hp
    · exact abortCues_idle (s := u) ha
    · obtain ⟨h1, h2, h3, -⟩ := abortActive_leaves (s := u) ha (abortCues_frame u)
      exact ⟨congrArg Transport.punch h1, h3, h2⟩

end Sys2Proof.Machine

/-! O46. The READ requests: the reports' bodies byte by byte, and the report that joins the queue. -/

namespace Sys2Proof.Machine

set_option Elab.async false

/-! ### Numbers as bytes (R184) -/

theorem bytesOf_one (n : Nat) : bytesOf 1 n = [BitVec.ofNat 8 n] := by simp [bytesOf]

theorem bytesOf_two (n : Nat) : bytesOf 2 n = [BitVec.ofNat 8 (n / 256), BitVec.ofNat 8 n] := by simp [bytesOf]

theorem bytesOf_three (n : Nat) :
    bytesOf 3 n = [BitVec.ofNat 8 (n / 65536), BitVec.ofNat 8 (n / 256), BitVec.ofNat 8 n] := by simp [bytesOf]

/-! ### Codes by their tables -/

theorem Role.code_eq (x : Role) : x.code = [Role.player, .recorder, .live].idxOf x := by cases x <;> rfl

theorem RefState.code_eq (x : RefState) : x.code = [RefState.lost, .settling, .present].idxOf x := by cases x <;> rfl

theorem Binding.code_eq (x : Binding) : x.code = [Binding.cue, .mark, .play, .stop, .abort, .none].idxOf x := by
  cases x <;> rfl

theorem EdgeSelect.code_eq (x : EdgeSelect) : x.code = [EdgeSelect.fall, .rise, .both].idxOf x := by cases x <;> rfl

theorem TallySource.code_eq (x : TallySource) :
    x.code = [TallySource.none, .record, .air, .lock, .ready, .fault].idxOf x := by cases x <;> rfl

theorem TallyPattern.code_eq (x : TallyPattern) : x.code = [TallyPattern.steady, .slow, .fast].idxOf x := by
  cases x <;> rfl

theorem CueState.code_eq (x : CueState) : x.code = [CueState.waiting, .active, .done, .aborted].idxOf x := by
  cases x <;> rfl

theorem Quality.code_eq (x : Quality) : x.code = [Quality.none, .tach, .ltc, .virtual].idxOf x := by cases x <;> rfl

/-! ### The bodies -/

theorem vector_four_toList {α : Type} (v : Vector α 4) : v.toList = ([0, 1, 2, 3] : List (Fin 4)).map fun i => v[i] := by
  obtain ⟨⟨l⟩, h⟩ := v
  match l, h with
  | [a, b, c, d], _ => rfl

theorem GpiInput.statusByte_eq (i : GpiInput) :
    i.statusByte
      = [BitVec.ofNat 8 ([Binding.cue, .mark, .play, .stop, .abort, .none].idxOf i.binding
          + 16 * [EdgeSelect.fall, .rise, .both].idxOf i.edge)] := by
  rw [GpiInput.statusByte, bytesOf_one, Binding.code_eq, EdgeSelect.code_eq]

theorem GpiOutput.statusByte_eq (o : GpiOutput) :
    o.statusByte
      = [BitVec.ofNat 8 ([TallySource.none, .record, .air, .lock, .ready, .fault].idxOf o.source
          + 16 * [TallyPattern.steady, .slow, .fast].idxOf o.pattern)] := by
  rw [GpiOutput.statusByte, bytesOf_one, TallySource.code_eq, TallyPattern.code_eq]

theorem flatMap_singleton_map {α β γ : Type} (g : β → α) (f : α → List γ) (h : α → γ) (hf : ∀ x, f x = [h x])
    (l : List β) : (l.map g).flatMap f = l.map fun i => h (g i) := by
  induction l with
  | nil => rfl
  | cons x xs ih => simp [hf, ih]

theorem Cue.entryBytes_eq (c : Cue) :
    c.entryBytes
      = [c.tag,
          BitVec.ofNat 8 ([CueState.waiting, .active, .done, .aborted].idxOf c.state
            + (if c.slipped = true then 4 else 0) + (if c.unpaired = true then 8 else 0)
            + (if c.rehearsal = true then 16 else 0)),
          BitVec.ofNat 8 c.trigger.code]
        ++ bytesOf 3 (c.frame?.getD 0) ++ [BitVec.ofNat 8 c.action.code] := by
  have hs : c.stateByte
      = [CueState.waiting, .active, .done, .aborted].idxOf c.state + (if c.slipped = true then 4 else 0)
        + (if c.unpaired = true then 8 else 0) + (if c.rehearsal = true then 16 else 0) := by
    rw [Cue.stateByte, CueState.code_eq]
    cases c.slipped <;> cases c.unpaired <;> cases c.rehearsal <;> rfl
  rw [Cue.entryBytes, hs]
  simp only [bytesOf_one]
  rfl

/-! ### The report that joins -/

/-- A READ request of a READ's kind, with the body its report carries (R71 to R74). -/
abbrev Reads (c : Instr) (r : Request) (body : List Byte) (kind : Byte) (s : State) : Prop :=
  (c = .readStatus r ∧ r.params = [] ∧ kind = 1 ∧ body = statusBody s)
    ∨ (∃ start : Byte, c = .readCues r ∧ r.params = [start] ∧ start.toNat ≤ 23 ∧ kind = 2
        ∧ body = cuesBody start.toNat s)
    ∨ (c = .readMarks r ∧ r.params = [] ∧ kind = 3 ∧ body = marksBody s)

/-- The payload of a report (R71). -/
def reportPayload (kind : Byte) (r : Request) (body : List Byte) : List Byte :=
  [kind, r.tag, BitVec.ofNat 8 (r.source.toNat % 16)] ++ body

theorem reportHeader_eq (n : Nat) (r : Request) (body : List Byte) :
    reportHeader n r ++ body = reportPayload (BitVec.ofNat 8 n) r body := by
  simp only [reportHeader, bytesOf_one]
  rfl

theorem reads_judgement {c : Instr} {r : Request} {body : List Byte} {kind : Byte} {s : State}
    (h : Reads c r body kind s) :
    requestOf c = some r
      ∧ judgementOf c (received s)
        = answer (readRefusal s) .ok (joinReport (reportPayload kind r body)) (received s) := by
  obtain ⟨rfl, hp, rfl, rfl⟩ | ⟨start, rfl, hp, hs, rfl, rfl⟩ | ⟨rfl, hp, rfl, rfl⟩ := h
  · refine ⟨rfl, ?_⟩
    show judgeReadStatus r (received s) = _
    rw [judgeReadStatus, withLength_ok _ (by rw [hp]; rfl), reportHeader_eq]
    rfl
  · refine ⟨rfl, ?_⟩
    have hb : byteAt r.params 0 = start.toNat := by rw [hp]; rfl
    show judgeReadCues r (received s) = _
    rw [judgeReadCues, withLength_ok _ (by rw [hp]; rfl), hb, if_pos hs, reportHeader_eq]
    rfl
  · refine ⟨rfl, ?_⟩
    show judgeReadMarks r (received s) = _
    rw [judgeReadMarks, withLength_ok _ (by rw [hp]; rfl), reportHeader_eq]
    rfl

theorem beginDeferral_stays {s : State}
    (h : ¬(s.link.quiet = true ∧ s.link.phase = .idle ∧ ¬(s.link.position.isSome = true ∧ s.link.heldBack = true))) :
    beginDeferral s = s := if_neg h

/-- Settles O46: the bodies, and the queue with the report joined. -/
theorem readRequests : Obligations.ReadRequests := by
  unfold Obligations.ReadRequests
  refine ⟨fun s => ⟨?status, fun start => ?cues, ?marks⟩, fun c r body kind s ht h => ?asked⟩
  case status =>
    have hi : s.gpi.inputs.toList.flatMap GpiInput.statusByte = _ :=
      (congrArg (List.flatMap GpiInput.statusByte) (vector_four_toList s.gpi.inputs)).trans
        (flatMap_singleton_map _ _ _ GpiInput.statusByte_eq _)
    have ho : s.gpi.outputs.toList.flatMap GpiOutput.statusByte = _ :=
      (congrArg (List.flatMap GpiOutput.statusByte) (vector_four_toList s.gpi.outputs)).trans
        (flatMap_singleton_map _ _ _ GpiOutput.statusByte_eq _)
    rw [statusBody, hi, ho]
    simp only [bytesOf_one, bytesOf_two, bytesOf_three, Role.code_eq, RefState.code_eq]
    rfl
  case cues =>
    rw [cuesBody, bytesOf_one, bytesOf_one]
    refine congrArg₂ _ rfl (List.flatMap_congr fun d _ => ?_)
    rw [Cue.entryBytes_eq, bytesOf_three]
    have hf : d.frame?.getD 0
        = match d.trigger with | .own f => f | .lead f => f | .gpi _ => 0 | .manual => 0 := by
      unfold Cue.frame?
      cases d.trigger <;> rfl
    rw [hf]
    rfl
  case marks =>
    rw [marksBody, bytesOf_one]
    refine congrArg₂ _ rfl (List.flatMap_congr fun m _ => ?_)
    rw [Mark.entryBytes, bytesOf_three, bytesOf_two, Quality.code_eq]
    rfl
  case asked =>
    obtain ⟨hreq, hj⟩ := reads_judgement h
    refine ⟨fun hn => ?full, fun hn => ?room⟩
    case full =>
      have hr : readRefusal s = some .refusedFull := if_pos hn
      exact exec_refused hreq ht (hj.trans (by rw [hr]; rfl))
    case room =>
      intro report reports joined answers draws k w
      have hr : readRefusal s = none := if_neg (Nat.not_le.mpr hn)
      have e := exec_accepted (effect := joinReport (reportPayload kind r body)) hreq ht (hj.trans (by rw [hr]; rfl))
      have hb : joinReport (reportPayload kind r body) (received s) = beginDeferral (s.setLink joined) := rfl
      rw [hb] at e
      have hw (f : TxFrame) : windowOf f.collisions = w f := windowOf_eq _
      have hdraw (f : TxFrame) (hd : draws) (hf : headFrame joined = some f) :
          exec c s = .next ((deferFor f (s.setLink joined)).setReq (requestRecord r .ok s)) := by
        obtain ⟨hq, hi, hh⟩ := hd
        rw [beginDeferral_of_head (s := s.setLink joined) hq hi hh hf] at e
        exact e
      let stepped : State := s.setLink { joined with backoff := k }
      have hstart (f : TxFrame) (hd : draws) (hf : headFrame joined = some f) (hk : k.toNat % w f = 0) {l : Link}
          (hl : startHead stepped = s.setLink l) : answers l := by
        refine (hdraw f hd hf).trans (congrArg (fun t : State => Host.Outcome.next (t.setReq (requestRecord r .ok s))) ?_)
        rw [deferFor_start (by rw [hw]; exact hk)]
        exact hl
      have hposition (f : TxFrame) (hp : s.link.position = some f) : headFrame joined = some f := by
        show (match s.link.position with | some g => some g | none => reports.head?) = some f
        rw [hp]
      refine ⟨fun hd => ?_, fun f hd hf hk => ?_, fun f rest hd hp hrs hk => ?_,
        fun f hd hp hk => ⟨fun hc => ?_, fun hc => ?_⟩⟩
      · rw [beginDeferral_stays (s := s.setLink joined) hd] at e
        exact e
      · refine (hdraw f hd hf).trans (congrArg (fun t : State => Host.Outcome.next (t.setReq (requestRecord r .ok s))) ?_)
        rw [deferFor_slots (by rw [hw]; exact hk), hw]
        rfl
      · have hf : headFrame joined = some f := by
          show (match s.link.position with | some g => some g | none => reports.head?) = some f
          rw [hp, hrs]
          rfl
        exact hstart f hd hf hk (startHead_report (s := stepped) hp hrs)
      · exact hstart f hd (hposition f hp) hk (startHead_sends (s := stepped) hp ((beforeCutoff_iff _).mpr hc))
      · have hcut : beforeCutoff stepped = false := by
          rw [← Bool.not_eq_true, beforeCutoff_iff]
          exact Nat.not_le.mpr hc
        refine hstart f hd (hposition f hp) hk ((startHead_holds (s := stepped) hp hcut).trans ?_)
        exact congrArg (fun p => s.setLink { joined with backoff := k, phase := p, heldBack := true }) hd.2.1.symm

end Sys2Proof.Machine

/-! O42. The curves, the windows and cells of a line, and the characters of a mix record. -/

namespace Sys2Proof.Machine

set_option Elab.async false

/-! ### The curves (R159, R162) -/

theorem curvePosition_full (curve : Curve) {d : Nat} (h : 0 < d) : curvePosition curve d d = 1024 := by
  cases curve with
  | linear => exact Nat.mul_div_cancel 1024 h
  | smooth =>
    have e : 1024 * d ^ 2 * (3 * d - 2 * d) = 1024 * d ^ 3 := by
      rw [show 3 * d - 2 * d = d by omega, mul_assoc, ← pow_succ]
    rw [curvePosition, e]
    exact Nat.mul_div_cancel 1024 (by positivity)
  | fast =>
    have e : 1024 * d * (2 * d - d) = 1024 * d ^ 2 := by
      rw [show 2 * d - d = d by omega, mul_assoc, pow_two]
    rw [curvePosition, e]
    exact Nat.mul_div_cancel 1024 (by positivity)

theorem curvePosition_mono (curve : Curve) {d j k : Nat} (hj : j ≤ k) (hk : k ≤ d) :
    curvePosition curve j d ≤ curvePosition curve k d := by
  obtain ⟨b, rfl⟩ := Nat.exists_eq_add_of_le hj
  obtain ⟨a, rfl⟩ := Nat.exists_eq_add_of_le hk
  cases curve with
  | linear => exact Nat.div_le_div_right (Nat.mul_le_mul_left _ hj)
  | smooth =>
    refine Nat.div_le_div_right ?_
    rw [show 3 * (j + b + a) - 2 * j = j + 3 * b + 3 * a by omega,
      show 3 * (j + b + a) - 2 * (j + b) = j + b + 3 * a by omega]
    nlinarith [Nat.zero_le (j * b ^ 2), Nat.zero_le (j * a * b), Nat.zero_le (b ^ 3), Nat.zero_le (a * b ^ 2)]
  | fast =>
    refine Nat.div_le_div_right ?_
    rw [show 2 * (j + b + a) - j = j + 2 * b + 2 * a by omega,
      show 2 * (j + b + a) - (j + b) = j + b + 2 * a by omega]
    nlinarith [Nat.zero_le (b ^ 2), Nat.zero_le (a * b)]

/-! ### Roundings -/

/-- r is n over 1,024, rounded half to even. -/
abbrev Rounded (n r : Nat) : Prop :=
  ((1024 * r : Int) - n).natAbs ≤ 512 ∧ (((1024 * r : Int) - n).natAbs = 512 → r % 2 = 0)

theorem roundHalfEven_rounded (n : Nat) : Rounded n (roundHalfEven n 1024) := by
  unfold roundHalfEven
  split_ifs <;> constructor <;> omega

theorem Rounded.le {n r m : Nat} (h : Rounded n r) (hn : n ≤ 1024 * m) : r ≤ m := by
  obtain ⟨h1, -⟩ := h
  omega

theorem roundHalfEven_exact (m : Nat) : roundHalfEven (1024 * m) 1024 = m := by
  obtain ⟨h1, -⟩ := roundHalfEven_rounded (1024 * m)
  omega

/-! ### The windows of a line (R163, R164) -/

/-- How many pixels, and how many lines, a pattern shows at p. -/
def shownPixels (p : Nat) : Nat := roundHalfEven (720 * p) 1024

def shownLines (h p : Nat) : Nat := roundHalfEven (h * p) 1024

theorem shownPixels_le {p : Nat} (hp : p ≤ 1024) : shownPixels p ≤ 720 :=
  (roundHalfEven_rounded (720 * p)).le (by omega)

theorem shownLines_le {h p : Nat} (hp : p ≤ 1024) : shownLines h p ≤ h :=
  (roundHalfEven_rounded (h * p)).le (by rw [Nat.mul_comm 1024]; exact Nat.mul_le_mul_left h hp)

theorem shownPixels_none : shownPixels 0 = 0 := by decide

theorem shownPixels_all : shownPixels 1024 = 720 := by decide

theorem shownLines_none (h : Nat) : shownLines h 0 = 0 := by
  show roundHalfEven (h * 0) 1024 = 0
  rw [Nat.mul_zero]
  decide

theorem shownLines_all (h : Nat) : shownLines h 1024 = h := by
  rw [shownLines, Nat.mul_comm, roundHalfEven_exact]

/-- The window in the middle of a line. -/
def middleWindow (p : Nat) : Nat × Nat :=
  if shownPixels p = 0 then (0, 0) else ((720 - shownPixels p) / 2, (720 - shownPixels p) / 2 + shownPixels p)

theorem orEmpty_middle (x n : Nat) : orEmpty (x, x + n) = if n = 0 then (0, 0) else (x, x + n) := by
  by_cases h : n = 0
  · rw [if_pos h, orEmpty, if_neg (by simp [h])]
  · rw [if_neg h, orEmpty, if_pos (by simp; omega)]

theorem lineWindow_left (h p y : Nat) : lineWindow h .left p y = (0, shownPixels p) := rfl

theorem lineWindow_top (h p y : Nat) : lineWindow h .top p y = if y < shownLines h p then (0, 720) else (0, 0) := rfl

theorem lineWindow_split (h p y : Nat) : lineWindow h .split p y = middleWindow p := orEmpty_middle _ _

theorem lineWindow_box (h p y : Nat) :
    lineWindow h .box p y
      = if (h - shownLines h p) / 2 ≤ y ∧ y < (h - shownLines h p) / 2 + shownLines h p then middleWindow p
        else (0, 0) := by
  rw [middleWindow, ← orEmpty_middle]
  rfl

theorem lineWindow_sparkle (h p y : Nat) : lineWindow h .sparkle p y = (0, 0) := rfl

/-- A window within the picture, [0, 0) when it has no pixels. -/
def WindowSound (w : Nat × Nat) : Prop := w.1 ≤ w.2 ∧ w.2 ≤ 720 ∧ (w.1 < w.2 ∨ w = (0, 0))

theorem windowSound_empty : WindowSound (0, 0) := ⟨Nat.le_refl _, Nat.zero_le _, .inr rfl⟩

theorem windowSound_full : WindowSound (0, 720) := ⟨Nat.zero_le _, Nat.le_refl _, .inl (by decide)⟩

theorem middleWindow_sound {p : Nat} (hp : p ≤ 1024) : WindowSound (middleWindow p) := by
  have := shownPixels_le hp
  unfold middleWindow
  split
  · exact windowSound_empty
  · next h => exact ⟨by dsimp only; omega, by dsimp only; omega, .inl (by dsimp only; omega)⟩

theorem middleWindow_none : middleWindow 0 = (0, 0) := if_pos shownPixels_none

theorem middleWindow_all : middleWindow 1024 = (0, 720) := by
  rw [middleWindow, shownPixels_all]
  rfl

theorem lineWindow_sound {h p : Nat} (pattern : Pattern) (y : Nat) (hp : p ≤ 1024) :
    WindowSound (lineWindow h pattern p y) := by
  cases pattern with
  | left =>
    rw [lineWindow_left]
    refine ⟨Nat.zero_le _, shownPixels_le hp, ?_⟩
    obtain h0 | h0 := Nat.eq_zero_or_pos (shownPixels p)
    · exact .inr (by rw [h0])
    · exact .inl h0
  | top =>
    rw [lineWindow_top]
    split
    · exact windowSound_full
    · exact windowSound_empty
  | split => rw [lineWindow_split]; exact middleWindow_sound hp
  | box =>
    rw [lineWindow_box]
    split
    · exact middleWindow_sound hp
    · exact windowSound_empty
  | sparkle => exact windowSound_empty

theorem lineWindow_none (h : Nat) (pattern : Pattern) (y : Nat) : lineWindow h pattern 0 y = (0, 0) := by
  cases pattern with
  | left => rw [lineWindow_left, shownPixels_none]
  | top => rw [lineWindow_top, shownLines_none, if_neg (Nat.not_lt_zero y)]
  | split => rw [lineWindow_split, middleWindow_none]
  | box => rw [lineWindow_box, middleWindow_none, ite_self]
  | sparkle => rfl

theorem lineWindow_all {h y : Nat} {pattern : Pattern} (hy : y < h) (hn : pattern ≠ .sparkle) :
    lineWindow h pattern 1024 y = (0, 720) := by
  cases pattern with
  | left => rw [lineWindow_left, shownPixels_all]
  | top => rw [lineWindow_top, shownLines_all, if_pos hy]
  | split => rw [lineWindow_split, middleWindow_all]
  | box => rw [lineWindow_box, middleWindow_all, shownLines_all, if_pos (by omega)]
  | sparkle => exact absurd rfl hn

/-! ### The cells of a line (R165) -/

theorem stepRegisterBy_iterate (n : Nat) (r : BitVec 15) : stepRegisterBy n r = stepRegister^[n] r := by
  induction n generalizing r with
  | zero => rfl
  | succ n ih => rw [stepRegisterBy, ih, Function.iterate_succ_apply]

/-- The mask's bits from a column on are the mask from column 0, moved up. -/
theorem cellsFrom_shift (p n col : Nat) (r : BitVec 15) : cellsFrom p n col r = 2 ^ col * cellsFrom p n 0 r := by
  induction n generalizing col r with
  | zero => rfl
  | succ n ih =>
    rw [cellsFrom, cellsFrom, ih (col + 1), ih (0 + 1)]
    split <;> ring

theorem cellsFrom_succ (p n : Nat) (r : BitVec 15) :
    cellsFrom p (n + 1) 0 r
      = (if (stepRegister r).toNat % 1024 < p then 1 else 0) + 2 * cellsFrom p n 0 (stepRegister r) := by
  rw [cellsFrom, cellsFrom_shift p n (0 + 1), BitVec.toNat_setWidth]
  rfl

theorem cellsFrom_lt (p n : Nat) (r : BitVec 15) : cellsFrom p n 0 r < 2 ^ n := by
  induction n generalizing r with
  | zero => exact Nat.one_pos
  | succ n ih =>
    have := ih (stepRegister r)
    rw [cellsFrom_succ, pow_succ]
    split <;> omega

theorem cellsFrom_testBit (p n col : Nat) (r : BitVec 15) (h : col < n) :
    (cellsFrom p n 0 r).testBit col = true ↔ (stepRegister^[col + 1] r).toNat % 1024 < p := by
  induction n generalizing col r with
  | zero => exact absurd h (Nat.not_lt_zero _)
  | succ n ih =>
    rw [cellsFrom_succ]
    cases col with
    | zero =>
      rw [Nat.testBit_zero, decide_eq_true_eq, Function.iterate_one]
      split <;> omega
    | succ col =>
      have hd (b m : Nat) (hb : b < 2) : (b + 2 * m) / 2 = m := by omega
      rw [Nat.testBit_succ, hd _ _ (by split <;> omega), ih col (stepRegister r) (Nat.lt_of_succ_lt_succ h),
        ← Function.iterate_succ_apply]

theorem sparkleSeed_toNat (tag : Byte) :
    (sparkleSeed tag).toNat
      = if (tag.toNat * 129 + 1) % 32768 = 0 then 1 else (tag.toNat * 129 + 1) % 32768 := by
  have hn : (BitVec.ofNat 15 (tag.toNat * 129 + 1)).toNat = (tag.toNat * 129 + 1) % 32768 := BitVec.toNat_ofNat _ _
  have h0 : BitVec.ofNat 15 (tag.toNat * 129 + 1) = 0 ↔ (tag.toNat * 129 + 1) % 32768 = 0 := by
    rw [← hn]
    exact BitVec.toNat_eq (x := BitVec.ofNat 15 (tag.toNat * 129 + 1)) (y := 0)
  unfold sparkleSeed
  dsimp only
  by_cases h : (tag.toNat * 129 + 1) % 32768 = 0
  · rw [if_pos h, if_pos (h0.mpr h)]
    rfl
  · rw [if_neg h, if_neg (fun k => h (h0.mp k)), hn]

theorem lineCells_testBit {seed : BitVec 15} {p y col : Nat} (h : col < 45) :
    (lineCells seed p y).testBit col = true
      ↔ (stepRegister^[45 * (y / 9) + col + 1] seed).toNat % 1024 < p := by
  rw [lineCells, cellsFrom_testBit p 45 col _ h, stepRegisterBy_iterate, ← Function.iterate_add_apply,
    show col + 1 + 45 * (y / 9) = 45 * (y / 9) + col + 1 by omega]

/-! ### The characters of a record (R170, R171) -/

theorem activeLines_eq (x : Standard) : x.activeLines = if x = .f25 then 288 else 243 := by cases x <;> rfl

theorem mixChars_none {s : State} (h : s.mix.sending = none) : mixChars s = [] := by rw [mixChars, h]

theorem mixChars_some {m : MixRecord} {s : State} (h : s.mix.sending = some m) :
    mixChars s = m.fieldBytes ++ (List.range (std s).activeLines).flatMap (m.lineBytes (std s).activeLines) := by
  rw [mixChars, h]
  rfl

theorem fieldBytes_eq (m : MixRecord) :
    m.fieldBytes
      = [0x01, BitVec.ofNat 8 ((if m.secondField = true then 1 else 0) + (if m.invert = true then 2 else 0)
            + 4 * [WindowClass.full, .window, .cells].idxOf m.windowClass)]
        ++ bytesOf 2 m.level ++ bytesOf 2 m.gain ++ bytesOf 1 m.softness := by
  have hw : m.windowClass.code = [WindowClass.full, .window, .cells].idxOf m.windowClass := by
    cases m.windowClass <;> rfl
  have hf : m.secondField.toNat + 2 * m.invert.toNat
      = (if m.secondField = true then 1 else 0) + (if m.invert = true then 2 else 0) := by
    cases m.secondField <;> cases m.invert <;> rfl
  rw [MixRecord.fieldBytes, hf, hw]

theorem lineBytes_full {h : Nat} {m : MixRecord} (hs : m.shape = .full) (y : Nat) : m.lineBytes h y = [] := by
  rw [MixRecord.lineBytes, hs]

theorem lineBytes_spans {h p : Nat} {pattern : Pattern} {m : MixRecord} (hs : m.shape = .spans pattern p) (y : Nat) :
    m.lineBytes h y
      = 0x02 :: (bytesOf 2 y ++ bytesOf 2 (lineWindow h pattern p y).1 ++ bytesOf 2 (lineWindow h pattern p y).2) := by
  rw [MixRecord.lineBytes, hs]

theorem lineBytes_cells {h p : Nat} {seed : BitVec 15} {m : MixRecord} (hs : m.shape = .cells seed p) (y : Nat) :
    m.lineBytes h y = 0x03 :: (bytesOf 2 y ++ bytesOf 6 (lineCells seed p y)) := by
  rw [MixRecord.lineBytes, hs]

theorem bytesOf_six (n : Nat) :
    bytesOf 6 n = bytesOf 2 (n / 65536 / 65536) ++ bytesOf 2 (n / 65536) ++ bytesOf 2 n := by
  simp [bytesOf, Nat.div_div_eq_div_mul]

theorem bytesOf_length (n x : Nat) : (bytesOf n x).length = n := by
  induction n with
  | zero => rfl
  | succ n ih => rw [bytesOf, List.length_cons, ih]

/-- The characters of so many lines, each of the same number. -/
theorem linesLength {f : Nat → List Byte} {k : Nat} (h : ∀ y, (f y).length = k) (n : Nat) :
    ((List.range n).flatMap f).length = k * n := by
  rw [List.length_flatMap]
  simp [h, Nat.mul_comm]

/-- Settles O42: curves, windows, cells, and the record's characters. -/
theorem curvesAndLineWindows : Obligations.CurvesAndLineWindows := by
  unfold Obligations.CurvesAndLineWindows
  refine ⟨fun d k _ _ => ⟨rfl, ?smooth, ?fast⟩, fun curve d hd => ⟨curvePosition_zero curve d, curvePosition_full curve hd,
      fun j k hj hk => ⟨curvePosition_mono curve hj hk, curvePosition_le curve hk⟩⟩,
    fun h pattern p y hp hy => ?windows, fun h p y hp hy => ?patterns, fun tag p y col hc =>
      ⟨sparkleSeed_toNat tag, cellsFrom_lt p 45 _, lineCells_testBit hc⟩, fun s => ⟨mixChars_none, fun m hm => ?record⟩⟩
  case smooth =>
    rw [curvePosition, pow_two, pow_succ, pow_two]
  case fast =>
    rw [curvePosition, pow_two]
  case windows =>
    obtain ⟨h1, h2, h3⟩ := lineWindow_sound (h := h) pattern y hp
    exact ⟨h1, h2, h3, lineWindow_none h pattern y, fun hn => lineWindow_all hy hn⟩
  case patterns =>
    exact ⟨shownPixels p, shownLines h p, roundHalfEven_rounded _, roundHalfEven_rounded _, lineWindow_left h p y,
      lineWindow_top h p y, lineWindow_split h p y, lineWindow_box h p y⟩
  case record =>
    have hl := activeLines_eq (std s)
    rw [mixChars_some hm, hl]
    generalize (if std s = Standard.f25 then 288 else 243) = h
    have hfield : m.fieldBytes.length = 7 := by simp [fieldBytes_eq, bytesOf_length]
    refine ⟨fun hs => ?_, fun pattern p hs => ?_, fun seed p hs => ?_, ?_⟩
    · rw [List.length_append, hfield, linesLength (k := 0) (fun y => congrArg List.length (lineBytes_full hs y)),
        Nat.zero_mul]
    · rw [List.length_append, hfield, linesLength (k := 7) (fun y => by simp [lineBytes_spans hs, bytesOf_length])]
      ring
    · rw [List.length_append, hfield, linesLength (k := 9) (fun y => by simp [lineBytes_cells hs, bytesOf_length])]
    · rw [fieldBytes_eq]
      simp only [bytesOf_one, bytesOf_two]
      refine congrArg₂ _ rfl (List.flatMap_congr fun y _ => ?_)
      cases hs : m.shape with
      | full => exact lineBytes_full hs y
      | spans pattern p =>
        rw [lineBytes_spans hs]
        simp only [bytesOf_two]
        rfl
      | cells seed p =>
        rw [lineBytes_cells hs, bytesOf_six]
        simp only [bytesOf_two]
        rfl

end Sys2Proof.Machine

/-! O33. CUE LOAD: the list after a load, the order of its checks, and the cue record as it is read. -/

namespace Sys2Proof.Machine

set_option Elab.async false

/-! ### The list after a load (R136) -/

theorem oldestFinished_none {fc : Word16} {cs : List Cue} (h : oldestFinished fc cs = none) :
    ∀ d ∈ cs, d.finished = false := by
  intro d hd
  by_contra hf
  have ha : cs.any Cue.finished = true := List.any_eq_true.mpr ⟨d, hd, by simpa using hf⟩
  obtain ⟨e, he⟩ := oldestFinished_isSome (fc := fc) ha
  rw [he] at h
  cases h

/-- How long ago a cue finished (R136). -/
def finishAge (fc : Word16) (c : Cue) : Nat := elapsed (c.finish.getD 0) fc

/-- The reclaimed cue is the first of those that finished the longest ago. -/
structure Oldest (fc : Word16) (cs pre : List Cue) (g : Cue) (post : List Cue) : Prop where
  split : cs = pre ++ g :: post
  finished : g.finished = true
  longest : ∀ d ∈ cs, d.finished = true → finishAge fc d ≤ finishAge fc g
  first : ∀ d ∈ pre, d.finished = true → finishAge fc d < finishAge fc g

theorem Oldest.cons {fc : Word16} {cs pre post : List Cue} {c g : Cue} (h : Oldest fc cs pre g post)
    (hc : c.finished = true → finishAge fc c < finishAge fc g) : Oldest fc (c :: cs) (c :: pre) g post where
  split := congrArg (c :: ·) h.split
  finished := h.finished
  longest := List.forall_mem_cons.mpr ⟨fun k => (hc k).le, h.longest⟩
  first := List.forall_mem_cons.mpr ⟨hc, h.first⟩

theorem oldestFinished_oldest {fc : Word16} {cs : List Cue} {g : Cue} (h : oldestFinished fc cs = some g) :
    ∃ pre post, Oldest fc cs pre g post := by
  induction cs generalizing g with
  | nil => cases h
  | cons c cs ih =>
    rw [oldestFinished] at h
    by_cases hf : c.finished = true
    · rw [if_pos hf] at h
      cases hr : oldestFinished fc cs with
      | none =>
        rw [hr] at h
        cases h
        have hn := oldestFinished_none hr
        refine ⟨[], cs, rfl, hf, List.forall_mem_cons.mpr ⟨fun _ => Nat.le_refl _, fun d hd k => ?_⟩, by simp⟩
        rw [hn d hd] at k
        cases k
      | some d =>
        rw [hr] at h
        obtain ⟨pre, post, k⟩ := ih hr
        by_cases hlt : elapsed (c.finish.getD 0) fc < elapsed (d.finish.getD 0) fc
        · dsimp only at h
          rw [if_pos hlt] at h
          cases h
          exact ⟨_, _, k.cons fun _ => hlt⟩
        · dsimp only at h
          rw [if_neg hlt] at h
          cases h
          exact ⟨[], cs, rfl, hf,
            List.forall_mem_cons.mpr ⟨fun _ => Nat.le_refl _, fun e he q => (k.longest e he q).trans (Nat.not_lt.mp hlt)⟩,
            by simp⟩
    · rw [if_neg hf] at h
      obtain ⟨pre, post, k⟩ := ih h
      exact ⟨_, _, k.cons fun q => absurd q hf⟩

theorem tagActive_false {tag : Byte} {s : State} (h : tagActive tag s = false) :
    ∀ d ∈ s.cues.list, d.tag = tag → d.state ≠ .active := by
  intro d hd ht hs
  rw [(tagActive_iff tag s).mpr ⟨d, hd, ht, hs⟩] at h
  cases h

theorem replaces_of_tag {tag : Byte} {s : State} {d : Cue} (h : tagActive tag s = false) (hd : d ∈ s.cues.list)
    (ht : d.tag = tag) : replaces tag s = true := (replaces_iff tag s).mpr ⟨d, hd, ht, tagActive_false h d hd ht⟩

theorem replaces_false {tag : Byte} {s : State} (h : ∀ d ∈ s.cues.list, d.tag ≠ tag) : replaces tag s = false := by
  rw [← Bool.not_eq_true, replaces_iff]
  rintro ⟨d, hd, ht, -⟩
  exact h d hd ht

theorem roomFor_replaced {tag : Byte} {s : State} (h : replaces tag s = true) :
    roomFor tag s = removeTag tag s.cues.list := if_pos h

theorem roomFor_short {tag : Byte} {s : State} (h : replaces tag s = false) (hn : s.cues.list.length < 24) :
    roomFor tag s = s.cues.list := by
  rw [roomFor, if_neg (by simp [h]), if_neg (Nat.not_le.mpr hn)]

/-- No cue of the loaded tag stays in the list. -/
theorem roomFor_tag {tag : Byte} {s : State} (h : tagActive tag s = false) : ∀ d ∈ roomFor tag s, d.tag ≠ tag := by
  intro d hd ht
  have hm := mem_roomFor hd
  rw [roomFor_replaced (replaces_of_tag h hm ht)] at hd
  exact (mem_removeTag.mp hd).2 ht

theorem roomFor_keeps {tag : Byte} {s : State} (h : tagActive tag s = false)
    (hr : s.cues.list.length < 24 ∨ ∃ d ∈ s.cues.list, d.tag = tag) :
    ∀ d ∈ s.cues.list, d.tag ≠ tag → d ∈ roomFor tag s := by
  intro d hd hn
  cases hp : replaces tag s with
  | true =>
    rw [roomFor_replaced hp]
    exact mem_removeTag.mpr ⟨hd, hn⟩
  | false =>
    obtain hl | ⟨e, he, het⟩ := hr
    · rw [roomFor_short hp hl]
      exact hd
    · rw [replaces_of_tag h he het] at hp
      cases hp

theorem finishAge_of {fc x : Word16} {d : Cue} (h : d.finish = some x) : finishAge fc d = elapsed x fc := by
  rw [finishAge, h]
  rfl

theorem mem_loaded {c d : Cue} {s : State} :
    d ∈ (loadCue c s).cues.list ↔ d = c ∨ d ∈ roomFor c.tag s := mem_placeCue

/-! ### The checks of a load (R135, R136) -/

/-- A cue that the role does not take. -/
abbrev ForeignCue (c : Cue) (s : State) : Prop :=
  (role s ≠ .recorder ∧ ∃ tracks length, c.action = .record tracks length)
    ∨ (role s = .live ∧ ∃ command, c.action = .transport command)

theorem cueRoleRefused_iff (c : Cue) (s : State) : cueRoleRefused c s = true ↔ ForeignCue c s := by
  unfold cueRoleRefused ForeignCue
  cases c.action <;> simp

theorem noRoom_iff (tag : Byte) (s : State) :
    (replaces tag s = false ∧ listFull s = true)
      ↔ 24 ≤ s.cues.list.length ∧ (∀ d ∈ s.cues.list, d.state ≠ .done ∧ d.state ≠ .aborted)
        ∧ ∀ d ∈ s.cues.list, d.tag = tag → d.state = .active := by
  have h1 : replaces tag s = false ↔ ∀ d ∈ s.cues.list, d.tag = tag → d.state = .active := by
    rw [← Bool.not_eq_true, replaces_iff]
    push Not
    rfl
  rw [h1, listFull_iff]
  simp only [Cue.finished, Bool.or_eq_false_iff, decide_eq_false_iff_not]
  tauto

theorem loadRefusal_role {c : Cue} {s : State} (h : cueRoleRefused c s = true) :
    loadRefusal c s = some .refusedRole := if_pos h

theorem loadRefusal_full {c : Cue} {s : State} (h : cueRoleRefused c s = false)
    (hf : replaces c.tag s = false ∧ listFull s = true) : loadRefusal c s = some .refusedFull := by
  rw [loadRefusal, h, hf.1, hf.2]
  rfl

theorem loadRefusal_room {c : Cue} {s : State} (h : cueRoleRefused c s = false)
    (hf : ¬(replaces c.tag s = false ∧ listFull s = true)) :
    loadRefusal c s = if tagActive c.tag s then some .refusedTag else none := by
  have hb : (!replaces c.tag s && listFull s) = false := by
    rw [← Bool.not_eq_true, Bool.and_eq_true, Bool.not_eq_true']
    exact hf
  rw [loadRefusal, h, hb]
  rfl

theorem judgeCueLoad_read {r : Request} {c : Coerced Cue} {s : State} (h : readCue (std s) r.params = some c) :
    judgeCueLoad r s = answer (loadRefusal c.value s) (resultOf c.coerced) (loadCue c.value) s := by
  rw [judgeCueLoad, h]

/-! ### The cue record (Tables 12.5, 12.6, 9.4) -/

theorem byteAt_lt (bs : List Byte) (i : Nat) : byteAt bs i < 256 := (bs.getD i 0).isLt

theorem wordAt_lt (bs : List Byte) (i : Nat) : wordAt bs i < 65536 := by
  have := byteAt_lt bs i
  have := byteAt_lt bs (i + 1)
  rw [wordAt]
  omega

theorem readLabel_some {x : Standard} {l : Label} {c : Coerced Nat} (h : readLabel x l = some c) :
    c = { value := requestCount x l, coerced := labelOmitted x l } := by
  unfold readLabel at h
  split at h
  · exact (Option.some.inj h).symm
  · cases h

theorem readTrigger_values {x : Standard} {bs : List Byte} {t : Coerced Trigger} (h : readTrigger x bs = some t) :
    [Trigger.own (requestCount x (labelAt bs 2)), .lead (requestCount x (labelAt bs 2)), .gpi 0, .gpi 1, .gpi 2, .gpi 3,
        .manual][byteAt bs 1]? = some t.value
      ∧ (t.coerced = true ↔ byteAt bs 1 ≤ 1 ∧ labelOmitted x (labelAt bs 2) = true) := by
  unfold readTrigger at h
  split at h
  case h_1 hb | h_2 hb =>
    obtain ⟨c, hc, rfl⟩ := Option.map_eq_some_iff.mp h
    rw [readLabel_some hc, hb]
    exact ⟨rfl, by simp⟩
  case h_3 hb | h_4 hb | h_5 hb | h_6 hb | h_7 hb =>
    cases h
    rw [hb]
    exact ⟨rfl, by simp⟩
  case h_8 => cases h

theorem readAction_of_record {x : Standard} {bs : List Byte} (h : byteAt bs 9 = 0) :
    readAction x bs
      = some { value := .record (BitVec.ofNat 4 (byteAt bs 10)) (max 1 (wordAt bs 11)), coerced := wordAt bs 11 = 0 } := by
  rw [readAction, h]
  rfl

theorem readAction_of_transition {x : Standard} {bs : List Byte} (h : byteAt bs 9 = 1) :
    readAction x bs = readTransition bs := by
  rw [readAction, h]
  rfl

theorem readAction_of_transport {x : Standard} {bs : List Byte} (h : byteAt bs 9 = 2) :
    readAction x bs = readTransport x bs := by
  rw [readAction, h]
  rfl

theorem readAction_of_pulse {x : Standard} {bs : List Byte} (h : byteAt bs 9 = 3) :
    readAction x bs
      = (lineOfCode (byteAt bs 10)).map fun line =>
          { value := .gpiPulse line (max 1 (byteAt bs 11)), coerced := byteAt bs 11 = 0 } := by
  rw [readAction, h]
  rfl

theorem readAction_of_mark {x : Standard} {bs : List Byte} (h : byteAt bs 9 = 4) :
    readAction x bs = some { value := .mark, coerced := false } := by
  rw [readAction, h]
  rfl

theorem partnerOf_none (n : Nat) : partnerOf n = none ↔ n / 16 % 2 = 0 := by
  unfold partnerOf bitOf
  split
  · next h => simp at h; simp [h]
  · next h => simp at h; simp [h]

theorem partnerOf_some {n : Nat} {st : Station} (h : partnerOf n = some st) : st.val = n % 16 := by
  unfold partnerOf at h
  split at h
  · cases h
    rfl
  · cases h

/-- The parameters of a TRANSITION as they are read. -/
abbrev TransitionRead (bs : List Byte) (p : TransParams) : Prop :=
  [TransKind.dissolve, .wipe][byteAt bs 10]? = some p.kind
    ∧ [Direction.inward, .outward][byteAt bs 11]? = some p.direction
    ∧ p.target = min 1024 (wordAt bs 12) ∧ p.duration = min 999 (wordAt bs 14)
    ∧ [Curve.linear, .smooth, .fast][byteAt bs 16]? = some p.curve
    ∧ [Pattern.left, .top, .box, .split, .sparkle][byteAt bs 17]? = some p.pattern
    ∧ p.softness = byteAt bs 18 % 64
    ∧ (p.partner = none ↔ byteAt bs 19 / 16 % 2 = 0)
    ∧ (∀ st, p.partner = some st → st.val = byteAt bs 19 % 16)
    ∧ [AudioLaw.linear, .power, .cut][byteAt bs 20]? = some p.law

theorem readTransition_values {bs : List Byte} {a : Coerced CueAction} (h : readTransition bs = some a) :
    (∃ p, a.value = .transition p ∧ TransitionRead bs p)
      ∧ (a.coerced = true ↔ 1024 < wordAt bs 12 ∨ 999 < wordAt bs 14) := by
  unfold readTransition at h
  split at h
  · next h1 h2 h3 h4 h5 =>
    cases h
    rw [kindOfCode_eq] at h1
    rw [directionOfCode_eq] at h2
    rw [curveOfCode_eq] at h3
    rw [patternOfCode_eq] at h4
    rw [lawOfCode_eq] at h5
    exact ⟨⟨_, rfl, h1, h2, rfl, rfl, h3, h4, rfl, partnerOf_none _, fun st k => partnerOf_some k, h5⟩, by simp [atMost]⟩
  · cases h

theorem readTransport_values {x : Standard} {bs : List Byte} {a : Coerced CueAction} (h : readTransport x bs = some a) :
    (∃ command, a.value = .transport command
        ∧ [CueCommand.stop, .play, .locate (requestCount x (labelAt bs 11))][byteAt bs 10]? = some command)
      ∧ (a.coerced = true ↔ byteAt bs 10 = 2 ∧ labelOmitted x (labelAt bs 11) = true) := by
  unfold readTransport at h
  split at h
  case h_1 hb | h_2 hb =>
    cases h
    rw [hb]
    exact ⟨⟨_, rfl, rfl⟩, by simp⟩
  case h_3 hb =>
    obtain ⟨c, hc, rfl⟩ := Option.map_eq_some_iff.mp h
    rw [readLabel_some hc, hb]
    exact ⟨⟨_, rfl, rfl⟩, by simp⟩
  case h_4 => cases h

/-- The action of a cue record as it is read, kind by kind. -/
abbrev ActionRead (x : Standard) (bs : List Byte) (action : CueAction) : Prop :=
  (byteAt bs 9 = 0 → action = .record (BitVec.ofNat 4 (byteAt bs 10)) (max 1 (wordAt bs 11)))
    ∧ (byteAt bs 9 = 1 → ∃ p, action = .transition p ∧ TransitionRead bs p)
    ∧ (byteAt bs 9 = 2 →
      ∃ command, action = .transport command
        ∧ [CueCommand.stop, .play, .locate (requestCount x (labelAt bs 11))][byteAt bs 10]? = some command)
    ∧ (byteAt bs 9 = 3 →
      ∃ line : GpiLine, line.val + 1 = byteAt bs 10 ∧ action = .gpiPulse line (max 1 (byteAt bs 11)))
    ∧ (byteAt bs 9 = 4 → action = .mark)

/-- A value of the action is coerced on the way (R68). -/
abbrev ActionCoerced (x : Standard) (bs : List Byte) : Prop :=
  (byteAt bs 9 = 0 ∧ wordAt bs 11 = 0) ∨ (byteAt bs 9 = 1 ∧ (1024 < wordAt bs 12 ∨ 999 < wordAt bs 14))
    ∨ (byteAt bs 9 = 2 ∧ byteAt bs 10 = 2 ∧ labelOmitted x (labelAt bs 11) = true)
    ∨ (byteAt bs 9 = 3 ∧ byteAt bs 11 = 0)

theorem readAction_kind {x : Standard} {bs : List Byte} {a : Coerced CueAction} (h : readAction x bs = some a) :
    byteAt bs 9 = 0 ∨ byteAt bs 9 = 1 ∨ byteAt bs 9 = 2 ∨ byteAt bs 9 = 3 ∨ byteAt bs 9 = 4 := by
  unfold readAction at h
  split at h
  case h_6 => cases h
  all_goals simp [*]

theorem readAction_values {x : Standard} {bs : List Byte} {a : Coerced CueAction} (h : readAction x bs = some a) :
    ActionRead x bs a.value ∧ (a.coerced = true ↔ ActionCoerced x bs) := by
  obtain h9 | h9 | h9 | h9 | h9 := readAction_kind h
  · rw [readAction_of_record h9] at h
    cases h
    simp [ActionRead, ActionCoerced, h9]
  · rw [readAction_of_transition h9] at h
    obtain ⟨h1, h2⟩ := readTransition_values h
    exact ⟨by simp only [ActionRead, h9]; simpa using h1, by rw [h2]; simp [ActionCoerced, h9]⟩
  · rw [readAction_of_transport h9] at h
    obtain ⟨h1, h2⟩ := readTransport_values h
    exact ⟨by simp only [ActionRead, h9]; simpa using h1, by rw [h2]; simp [ActionCoerced, h9]⟩
  · rw [readAction_of_pulse h9] at h
    obtain ⟨line, hl, rfl⟩ := Option.map_eq_some_iff.mp h
    have hv := lineOfCode_some.mp hl
    exact ⟨⟨fun k => by omega, fun k => by omega, fun k => by omega, fun _ => ⟨line, hv, rfl⟩, fun k => by omega⟩,
      by simp [ActionCoerced, h9]⟩
  · rw [readAction_of_mark h9] at h
    cases h
    simp [ActionRead, ActionCoerced, h9]

/-- Settles O33: the load accepted, the checks in their order, and the record as it is read. -/
theorem cueLoadRequest : Obligations.CueLoadRequest := by
  unfold Obligations.CueLoadRequest
  refine ⟨fun r c s ht hc hr => ?loaded, fun r c s ht hc => ?checks, fun x r hn => ⟨fun h => (readCue_none hn).mpr h, ?record⟩⟩
  case loaded =>
    obtain ⟨-, hroom, hact⟩ := loadRefusal_none hr
    have hj : judgeCueLoad r (received s) = (resultOf c.coerced, loadCue c.value (received s)) := by
      rw [judgeCueLoad_read (s := received s) hc, show loadRefusal c.value (received s) = none from hr]
      rfl
    have e := exec_accepted (c := .cueLoad r) (effect := loadCue c.value) rfl ht hj
    refine ⟨_, e, rfl, mem_loaded.mpr (.inl rfl), (readCue_waiting hc).1, tagActive_false hact, fun d hd hdt => ?_,
      fun d hd hdt => ?_, fun hk d hd hdt => ?_, fun hl hno => ?_, rfl, rfl, rfl⟩
    · exact (mem_loaded.mp hd).resolve_right fun k => roomFor_tag (s := received s) hact d k hdt
    · exact mem_roomFor ((mem_loaded.mp hd).resolve_left fun k => hdt (congrArg Cue.tag k))
    · exact mem_loaded.mpr (.inr (roomFor_keeps (s := received s) hact hk d hd hdt))
    · have hrep := replaces_false hno
      obtain ⟨k, -⟩ | ⟨-, k, -⟩ | ⟨-, -, g, hg, hroomg⟩ := roomFor_cases hroom
      · rw [hrep] at k
        cases k
      · exact absurd hl (Nat.not_le.mpr k)
      obtain ⟨pre, post, o⟩ := oldestFinished_oldest hg
      have hgm := (oldestFinished_mem hg).1
      have hm {d : Cue} : d ∈ (loadCue c.value (received s)).cues.list ↔ d = c.value ∨ (d ∈ s.cues.list ∧ d.tag ≠ g.tag) := by
        rw [mem_loaded, show roomFor c.value.tag (received s) = roomFor c.value.tag s from rfl, hroomg, mem_removeTag]
      refine ⟨pre, g, post, o.split, o.finished, fun d hd hdt => hm.mpr (.inr ⟨hd, hdt⟩), fun d hd => ?_, fun y hy =>
        ⟨fun d hd q hf hq => ?_, fun d hd q hf hq => ?_⟩⟩
      · obtain rfl | ⟨-, k⟩ := hm.mp hd
        · exact fun k => hno g hgm k.symm
        · exact k
      · rw [← finishAge_of hq, ← finishAge_of hy]
        exact o.longest d hd hf
      · rw [← finishAge_of hq, ← finishAge_of hy]
        exact o.first d hd hf
  case checks =>
    intro foreign full held
    have hf : cueRoleRefused c.value s = true ↔ foreign := cueRoleRefused_iff c.value s
    have hfull : (replaces c.value.tag s = false ∧ listFull s = true) ↔ full := noRoom_iff c.value.tag s
    have hheld : tagActive c.value.tag s = true ↔ held := tagActive_iff c.value.tag s
    have refused {y : ReqResult} (h : loadRefusal c.value s = some y) :
        exec (.cueLoad r) s = .next ((received s).setReq (requestRecord r y s)) := by
      refine exec_refused (c := .cueLoad r) rfl ht ?_
      show judgeCueLoad r (received s) = _
      rw [judgeCueLoad_read (s := received s) hc, show loadRefusal c.value (received s) = some y from h]
      rfl
    have hn (h : ¬foreign) : cueRoleRefused c.value s = false := by
      rw [← Bool.not_eq_true, hf]
      exact h
    refine ⟨fun h => refused (loadRefusal_role (hf.mpr h)), fun h k => refused (loadRefusal_full (hn h) (hfull.mpr k)),
      fun h k q => refused ?_, fun h k q => ?_⟩
    · rw [loadRefusal_room (hn h) (fun l => k (hfull.mp l)), hheld.mpr q]
      rfl
    · rw [loadRefusal_room (hn h) (fun l => k (hfull.mp l)), if_neg fun l => q (hheld.mp l)]
  case record =>
    intro hb word
    obtain ⟨c, hc⟩ := Option.ne_none_iff_exists'.mp fun k => hb ((readCue_none hn).mp k)
    obtain ⟨t, a, m, h1, h2, h3, h4, h5, -, -⟩ := readCue_parts hc
    obtain ⟨k1, k2⟩ := readTrigger_values h1
    obtain ⟨⟨a0, a1, a2, a3, a4⟩, k3⟩ := readAction_values h2
    rw [flagOfCode_eq] at h3
    have hm : (!m) = true ↔ paramAt r 6 = 0 := by
      have e : paramAt r 6 = byteAt r.params 6 := rfl
      rw [e]
      match hb6 : byteAt r.params 6, h3 with
      | 0, h3 => cases h3; simp
      | 1, h3 => cases h3; simp
      | _ + 2, h3 => cases h3
    have hq : (BitVec.ofNat 16 (wordAt r.params 7)).toNat = word 7 := by
      rw [BitVec.toNat_ofNat]
      exact Nat.mod_eq_of_lt (wordAt_lt r.params 7)
    refine ⟨newCue (r.params.getD 0 0) t.value (!m) (BitVec.ofNat 16 (wordAt r.params 7)) a.value, t.coerced || a.coerced,
      ?_, rfl, hm, hq, rfl, rfl, rfl, rfl, rfl, rfl, rfl, k1, a0, a1, a2, a3, a4, ?_⟩
    · rw [hc, ← h4, ← h5]
    · rw [Bool.or_eq_true, k2, k3]
      exact Iff.rfl

end Sys2Proof.Machine

/-! O51. The line as it is read, the start of a frame, the frame that is broken, and the line that becomes quiet. -/

namespace Sys2Proof.Machine

set_option Elab.async false

/-! ### The line becomes quiet (R35, R39) -/

/-- The head has nothing to begin a deferral with (R42, R47). -/
abbrev HeadRests (l : Link) : Prop := headFrame l = none ∨ (l.position.isSome = true ∧ l.heldBack = true)

theorem beginDeferral_rests {s : State} (h : HeadRests s.link) : beginDeferral s = s := by
  obtain h | h := h
  · exact beginDeferral_of_none h
  · exact beginDeferral_stays fun k => k.2.2 h

theorem quietNow_inside {s : State} (h : s.link.rx = .frame) :
    quietNow s
      = beginDeferral ((discardFrame .wait s).setLink { (discardFrame .wait s).link with quiet := true, rx := .wait }) := by
  rw [quietNow, if_pos h]

theorem quietNow_discards {s : State} (hx : s.link.rx = .frame) (h : HeadRests s.link) :
    quietNow s
      = (s.setLink { s.link with quiet := true, rx := .wait, rxBad := bumpCounter s.link.rxBad }).setFlags
          (s.flags ||| Flag.linkError.mask) := by
  rw [quietNow_inside hx]
  exact beginDeferral_rests h

theorem gapError_due {time : Nat} {s : State} (hx : s.link.rx = .frame) (hr : driverReleased s.link = true) :
    gapError time s = quietNow (atTime time s) := if_pos ⟨hx, hr⟩

theorem exec_gapError {time : Nat} {s : State} (hr : Running s) : exec (.gapError time) s = .next (gapError time s) :=
  inRun_of_running _ hr

/-! ### Reading the line (R34, R35) -/

/-- Turns beyond the samples read nothing more. -/
theorem readChars_enough {n m : Nat} {line : List Bool} (hn : line.length ≤ n) (hm : line.length ≤ m) :
    readChars n line = readChars m line := by
  induction n generalizing m line with
  | zero =>
    obtain rfl : line = [] := List.length_eq_zero_iff.mp (Nat.le_zero.mp hn)
    cases m <;> rfl
  | succ n ih =>
    match line, m with
    | [], 0 => rfl
    | [], _ + 1 => rfl
    | true :: rest, m + 1 =>
      have h1 : rest.length ≤ n := Nat.le_of_succ_le_succ hn
      have h2 : rest.length ≤ m := Nat.le_of_succ_le_succ hm
      rw [readChars, readChars, ih h1 h2]
    | false :: rest, m + 1 =>
      have hl : (afterChar (charOf (rest.take 9)) (rest.drop 9)).length ≤ rest.length := by
        unfold afterChar
        split
        · exact ((List.dropWhile_sublist _).length_le).trans (by simp)
        · simp
      have h1 := hl.trans (Nat.le_of_succ_le_succ hn)
      have h2 := hl.trans (Nat.le_of_succ_le_succ hm)
      rw [readChars, readChars, ih h1 h2]

theorem readChars_readLine {n : Nat} {line : List Bool} (h : line.length ≤ n) : readChars n line = readLine line :=
  readChars_enough h (Nat.le_refl _)

theorem gapFollows_iff (rest : List Bool) :
    gapFollows (true :: rest) = true ↔ rest.take 9 = List.replicate 9 true := by
  simp [gapFollows, List.replicate_succ]

theorem readLine_gap {rest : List Bool} (h : rest.take 9 = List.replicate 9 true) : readLine (true :: rest) = [] := by
  rw [readLine, List.length_cons, readChars, if_pos ((gapFollows_iff rest).mpr h)]

theorem readLine_idle {rest : List Bool} (h : rest.take 9 ≠ List.replicate 9 true) :
    readLine (true :: rest) = readLine rest := by
  rw [readLine, List.length_cons, readChars, if_neg fun k => h ((gapFollows_iff rest).mp k)]
  rfl

theorem charOf_stop (b : Byte) (stop : Bool) :
    charOf ((List.range 8).map b.getLsbD ++ [stop]) = { byte := b, framing := !stop } := by
  have h : ((List.range 8).map b.getLsbD ++ [stop]).take 8 = (List.range 8).map b.getLsbD := by simp
  rw [charOf, h, numberOfBits_range]
  simp

theorem readLine_char (b : Byte) (stop : Bool) (rest : List Bool) :
    readLine (false :: ((List.range 8).map b.getLsbD ++ stop :: rest))
      = { byte := b, framing := !stop } :: readLine (if stop then rest else rest.dropWhile (!·)) := by
  have e : (List.range 8).map b.getLsbD ++ stop :: rest = ((List.range 8).map b.getLsbD ++ [stop]) ++ rest := by simp
  have l : ((List.range 8).map b.getLsbD ++ [stop]).length = 9 := by simp
  have ha : afterChar { byte := b, framing := !stop } rest = if stop then rest else rest.dropWhile (!·) := by
    cases stop <;> rfl
  rw [readLine, List.length_cons, readChars, if_neg (by simp; omega), e, List.take_append_of_le_length (by rw [l]),
    List.take_of_length_le (by rw [l]), List.drop_append_of_le_length (by rw [l]), List.drop_of_length_le (by rw [l]),
    charOf_stop, List.nil_append, ha]
  refine congrArg _ (readChars_readLine ?_)
  rw [List.length_append, l]
  cases stop
  · exact ((List.dropWhile_sublist _).length_le).trans (Nat.le_add_left _ _)
  · exact Nat.le_add_left _ _

/-! ### The start of a frame (R38) -/

theorem cleanChar_iff (c : LinkChar) (value : Byte) :
    cleanChar c value = true ↔ c = { byte := value, framing := false } := by
  obtain ⟨b, f⟩ := c
  simp [cleanChar]

theorem startRecognised_iff (first : LinkChar) (second : Option LinkChar) :
    startRecognised first second = true
      ↔ first = { byte := 0xD3, framing := false }
        ∨ (first = { byte := 0x55, framing := false } ∧ second = some { byte := 0xD3, framing := false }) := by
  cases second with
  | none => simp [startRecognised, cleanChar_iff]
  | some c => simp [startRecognised, cleanChar_iff]

theorem startBit_idle {s : State} (h : driverReleased s.link = true) :
    startBit s = s.setLink { s.link with phase := .idle, quiet := false } := by
  rw [startBit, if_pos h, abandonDeferral_idle h]
  rfl

theorem judgeStart_waiting {first : LinkChar} {second : Option LinkChar} {s : State} (hx : s.link.rx = .wait)
    (h : driverReleased s.link = true) :
    judgeStart first second s
      = s.setLink
          { s.link with
            phase := .idle, quiet := false, rx := if startRecognised first second then .frame else .ignore } := by
  rw [judgeStart, if_pos ⟨hx, h⟩, startBit_idle h]
  rfl

theorem judgeStart_elsewhere {first : LinkChar} {second : Option LinkChar} {s : State} (hx : s.link.rx ≠ .wait) :
    judgeStart first second s = s := if_neg fun k => hx k.1

theorem frameStart_nothing {line : List Bool} (s : State) (h : readLine line = []) : frameStart line s = s := by
  rw [frameStart, h]

theorem frameStart_read {line : List Bool} {first : LinkChar} {rest : List LinkChar} (s : State)
    (h : readLine line = first :: rest) : frameStart line s = judgeStart first rest.head? s := by rw [frameStart, h]

theorem frameStart_elsewhere (line : List Bool) {s : State} (hx : s.link.rx ≠ .wait) : frameStart line s = s := by
  cases h : readLine line with
  | nil => exact frameStart_nothing s h
  | cons first rest => rw [frameStart_read s h, judgeStart_elsewhere hx]

theorem exec_frameStart {start next : List Bool} {s : State} (hr : Running s) :
    exec (.frameStart start next) s = .next (frameStart (start ++ next) s) := inRun_of_running _ hr

/-! ### A broken frame (R39) -/

/-- The value of the n-th character. -/
def charValue (chars : List LinkChar) (n : Nat) : Nat := (chars.map fun c => c.byte.toNat).getD n 0

theorem byteAt_chars (chars : List LinkChar) (n : Nat) : byteAt (chars.map LinkChar.byte) n = charValue chars n := by
  rw [byteAt, charValue, List.getD_eq_getElem?_getD, List.getD_eq_getElem?_getD, List.getElem?_map, List.getElem?_map]
  cases chars[n]? <;> rfl

theorem any_take_iff (chars : List LinkChar) (total : Nat) :
    (chars.take total).any LinkChar.framing = true
      ↔ ∃ n c, n < total ∧ chars[n]? = some c ∧ c.framing = true := by
  rw [List.any_eq_true]
  constructor
  · rintro ⟨c, hc, hf⟩
    obtain ⟨n, hn⟩ := List.mem_iff_getElem?.mp hc
    rw [List.getElem?_take] at hn
    split at hn
    · next hlt => exact ⟨n, c, hlt, hn, hf⟩
    · cases hn
  · rintro ⟨n, c, hlt, hn, hf⟩
    refine ⟨c, List.mem_iff_getElem?.mpr ⟨n, ?_⟩, hf⟩
    rw [List.getElem?_take, if_pos hlt, hn]

theorem foreignStandard_iff (source : Byte) (s : State) :
    foreignStandard source s = true ↔ source.toNat / 64 ≠ s.straps.std.toNat := by
  have hlt : source.toNat / 64 < 4 := by
    have := source.isLt
    omega
  have hn : (sourceStandard source).toNat = source.toNat / 64 := by
    rw [sourceStandard, BitVec.toNat_ofNat]
    exact Nat.mod_eq_of_lt hlt
  rw [foreignStandard, bne_iff_ne, ne_eq, ← BitVec.toNat_inj, hn]

theorem frameBroken_iff (chars : List LinkChar) (s : State) :
    let total := 5 + charValue chars 2
    frameBroken chars s = true
      ↔ (∃ n c, n < total ∧ chars[n]? = some c ∧ c.framing = true) ∨ (3 ≤ chars.length ∧ 48 < charValue chars 2)
        ∨ (3 ≤ chars.length ∧ total ≤ chars.length
          ∧ (256 * charValue chars (total - 2) + charValue chars (total - 1)
                ≠ (crcOf ((chars.map LinkChar.byte).take (total - 2))).toNat
            ∨ charValue chars 1 / 64 ≠ s.straps.std.toNat)) := by
  intro total
  have hsource : ((chars.map LinkChar.byte).getD 1 0).toNat = charValue chars 1 := byteAt_chars chars 1
  have hlast : total - 2 + 1 = total - 1 := by omega
  rw [← hsource, ← foreignStandard_iff, ← any_take_iff]
  unfold frameBroken
  dsimp only
  simp only [wordAt, byteAt_chars, Bool.or_eq_true, Bool.and_eq_true, decide_eq_true_eq, bne_iff_ne, List.length_map,
    or_assoc, and_assoc]
  rw [show 5 + charValue chars 2 - 2 + 1 = total - 1 from hlast]

theorem brokenFrame_broken {line : List Bool} {s : State} (hx : s.link.rx = .frame)
    (h : frameBroken (readLine line) s = true) : brokenFrame line s = discardFrame .ignore s := if_pos ⟨hx, h⟩

theorem brokenFrame_whole {line : List Bool} {s : State}
    (h : s.link.rx ≠ .frame ∨ frameBroken (readLine line) s = false) : brokenFrame line s = s := by
  refine if_neg fun k => ?_
  obtain h | h := h
  · exact h k.1
  · rw [h] at k
    cases k.2

/-- Settles O51: the quiet, the line read, the start judged, and the frame discarded. -/
theorem quietLineAndFrameStart : Obligations.QuietLineAndFrameStart := by
  unfold Obligations.QuietLineAndFrameStart
  refine ⟨fun time s hr hd hq hh => ⟨fun hx => ?outside, fun c hx hc => ?inside⟩,
    ⟨rfl, fun rest => ⟨readLine_gap, readLine_idle⟩, readLine_char⟩, fun start next s hr => ?start, fun chars s => ?broken,
    fun s hr => ⟨fun line hx hb => ?discards, fun line h => ?keeps, fun source payload hx hf => ?foreign⟩⟩
  case outside =>
    rw [exec_lineQuiet hr, lineQuiet_due hd hq, quietNow_outside (s := atTime time s) hx]
    exact congrArg _ (beginDeferral_rests hh)
  case inside =>
    have hn : quietNow (atTime time s) = _ := quietNow_discards (s := atTime time s) hx hh
    obtain rfl | rfl := hc
    · rw [exec_lineQuiet hr, lineQuiet_due hd hq, hn]
      rfl
    · rw [exec_gapError hr, gapError_due hx hd, hn]
      rfl
  case start =>
    intro line sync preamble
    refine ⟨fun first rest hx hd hl => ?_, fun hl => ?_, fun hx => ?_⟩
    · rw [exec_frameStart hr, frameStart_read s hl, judgeStart_waiting hx hd]
      simp only [startRecognised_iff]
      rfl
    · rw [exec_frameStart hr, frameStart_nothing s hl]
    · rw [exec_frameStart hr, frameStart_elsewhere _ hx]
  case broken => exact frameBroken_iff chars s
  case discards =>
    exact (inRun_of_running _ hr).trans (congrArg _ (brokenFrame_broken hx hb))
  case keeps =>
    exact (inRun_of_running _ hr).trans (congrArg _ (brokenFrame_whole h))
  case foreign =>
    have hs := (foreignStandard_iff source s).mpr hf
    exact ⟨(inRun_of_running _ hr).trans (congrArg _ (arrive_foreign hx hs _)),
      (inRun_of_running _ hr).trans (congrArg _ (arrive_foreign hx hs _))⟩

end Sys2Proof.Machine

/-! O53. What the station sends reads back: characters, frames and their CRC, the bulletin and the speed word. -/

namespace Sys2Proof.Machine

set_option Elab.async false

/-! ### Two bytes and their number -/

theorem wordAt_two {n : Nat} (h : n < 65536) : wordAt [BitVec.ofNat 8 (n / 256), BitVec.ofNat 8 n] 0 = n := by
  show 256 * (BitVec.ofNat 8 (n / 256)).toNat + (BitVec.ofNat 8 n).toNat = n
  rw [BitVec.toNat_ofNat, BitVec.toNat_ofNat]
  omega

theorem bytes_append {n : Nat} (h : n < 65536) :
    (BitVec.ofNat 8 (n / 256) : Byte) ++ (BitVec.ofNat 8 n : Byte) = BitVec.ofNat 16 n := by
  rw [← targetAt_cons _ _ [], targetAt, wordAt_two h]

theorem wordOfInt_lt (x : Int) : wordOfInt x < 65536 := by
  rw [wordOfInt]
  omega

theorem signedWord_wordOfInt {x : Int} (h1 : -32768 ≤ x) (h2 : x ≤ 32767) : signedWord (wordOfInt x) = x := by
  unfold signedWord wordOfInt
  split <;> omega

/-! ### Characters, frames and the CRC -/

theorem charLevels_bits (b : Byte) :
    charLevels b
      = [false, b.getLsbD 0, b.getLsbD 1, b.getLsbD 2, b.getLsbD 3, b.getLsbD 4, b.getLsbD 5, b.getLsbD 6,
          b.getLsbD 7, true] := rfl

theorem txLevels_sending {f : TxFrame} {gone : Bool} {s : State} (h : s.link.phase = .sending f gone) :
    txLevels s = (frameChars s.straps f).flatMap charLevels := by
  have hc : txChars s = frameChars s.straps f := by rw [txChars, h]
  rw [txLevels, h, hc]
  rfl

theorem txLevels_jamming {s : State} (h : s.link.phase = .jamming) : txLevels s = List.replicate 10 false := by
  rw [txLevels, h]

/-- What the CRC of a frame covers (R37). -/
def coveredChars (p : Straps) (f : TxFrame) : List Byte :=
  [f.kind.byte, sourceByte p, BitVec.ofNat 8 f.payload.length] ++ f.payload

theorem frameChars_eq (p : Straps) (f : TxFrame) :
    frameChars p f = [0x55, 0xD3] ++ coveredChars p f ++ bytesOf 2 (crcOf (coveredChars p f)).toNat := rfl

theorem sourceByte_eq (p : Straps) :
    sourceByte p
      = BitVec.ofNat 8 (p.station.val + 16 * [Role.player, .recorder, .live].idxOf (heldRole p) + 64 * p.std.toNat) := by
  rw [sourceByte, Role.code_eq]

theorem crcBit_eq (crc : BitVec 16) (bit : Bool) :
    crcBit crc bit = (crc <<< 1) ^^^ (if crc.getLsbD 15 = bit then 0 else 0x1021) := by
  unfold crcBit
  cases hb : bit <;> cases hc : crc.getLsbD 15 <;> simp

theorem crcByte_eq (crc : BitVec 16) (b : Byte) :
    crcByte crc b
      = [7, 6, 5, 4, 3, 2, 1, 0].foldl
          (fun (crc : BitVec 16) (i : Nat) =>
            (crc <<< 1) ^^^ (if crc.getLsbD 15 = b.getLsbD i then 0 else 0x1021)) crc := by
  unfold crcByte
  simp only [crcBit_eq]

/-- A SOURCE byte holds the strapped standard (Table 12.1). -/
theorem sourceByte_standard (p : Straps) : sourceStandard (sourceByte p) = p.std := by
  apply BitVec.eq_of_toNat_eq
  have h1 := p.station.isLt
  have h2 := p.std.isLt
  have h3 : (heldRole p).code ≤ 2 := by cases heldRole p <;> decide
  rw [sourceStandard, sourceByte, BitVec.toNat_ofNat, BitVec.toNat_ofNat]
  omega

/-- Characters received as they were sent. -/
def cleanChars (bs : List Byte) : List LinkChar := bs.map fun b => { byte := b, framing := false }

theorem cleanChars_bytes (bs : List Byte) : (cleanChars bs).map LinkChar.byte = bs := by
  simp [cleanChars, Function.comp_def]

theorem cleanChars_framing (bs : List Byte) (n : Nat) : ((cleanChars bs).take n).any LinkChar.framing = false := by
  rw [List.any_eq_false]
  intro c hc
  obtain ⟨b, -, rfl⟩ := List.mem_map.mp (List.mem_of_mem_take hc)
  exact Bool.false_ne_true

/-- A frame of LENGTH at most 48 with its CRC passes every check of R39. -/
theorem frameBroken_whole {kind source : Byte} {payload : List Byte} {s : State} (hn : payload.length ≤ 48)
    (hs : foreignStandard source s = false) :
    let body := [kind, source, BitVec.ofNat 8 payload.length] ++ payload
    frameBroken (cleanChars (body ++ bytesOf 2 (crcOf body).toNat)) s = false := by
  intro body
  have hl : byteAt (body ++ bytesOf 2 (crcOf body).toNat) 2 = payload.length := by
    show (BitVec.ofNat 8 payload.length).toNat = _
    rw [BitVec.toNat_ofNat]
    exact Nat.mod_eq_of_lt (by omega)
  have hb : body.length = 5 + payload.length - 2 := by simp [body]; omega
  have htake : (body ++ bytesOf 2 (crcOf body).toNat).take (5 + payload.length - 2) = body := by
    rw [← hb]
    exact List.take_left
  have hcrc : wordAt (body ++ bytesOf 2 (crcOf body).toNat) (5 + payload.length - 2) = (crcOf body).toNat := by
    rw [← hb, bytesOf_two]
    have h0 : byteAt (body ++ [BitVec.ofNat 8 ((crcOf body).toNat / 256), BitVec.ofNat 8 (crcOf body).toNat]) body.length
        = (BitVec.ofNat 8 ((crcOf body).toNat / 256)).toNat := by simp [byteAt]
    have h1 : byteAt (body ++ [BitVec.ofNat 8 ((crcOf body).toNat / 256), BitVec.ofNat 8 (crcOf body).toNat])
        (body.length + 1) = (BitVec.ofNat 8 (crcOf body).toNat).toNat := by simp [byteAt]
    have := (crcOf body).isLt
    rw [wordAt, h0, h1, BitVec.toNat_ofNat, BitVec.toNat_ofNat]
    omega
  have hf : foreignStandard ((body ++ bytesOf 2 (crcOf body).toNat).getD 1 0) s = false := hs
  unfold frameBroken
  rw [cleanChars_bytes]
  dsimp only
  rw [cleanChars_framing, hl, htake, hcrc, hf]
  simp [hn]

/-! ### The bulletin (Table 12.2) -/

/-- The layout of a bulletin, by the numbers of its fields. -/
def bulletinLayout (v0 f w4 w6 v8 v9 w10 v14 w15 : Nat) (tag record last count : Byte) : List Byte :=
  bytesOf 1 v0 ++ bytesOf 3 f ++ bytesOf 2 w4 ++ bytesOf 2 w6 ++ bytesOf 1 v8 ++ bytesOf 1 v9 ++ bytesOf 2 w10
    ++ [tag, record] ++ bytesOf 1 v14 ++ bytesOf 2 w15 ++ [last, count, 0]

section
variable (v0 f w4 w6 v8 v9 w10 v14 w15 : Nat) (tag record last count : Byte)

theorem bulletinLayout_length :
    (bulletinLayout v0 f w4 w6 v8 v9 w10 v14 w15 tag record last count).length = 20 := by
  simp [bulletinLayout, bytesOf_length]

/-- The fields read back from the layout. -/
theorem bulletinLayout_read (h0 : v0 < 256) (hf : f < 16777216) (h4 : w4 < 65536) (h6 : w6 < 65536) (h9 : v9 < 256)
    (h10 : w10 < 65536) (h14 : v14 < 256) :
    let bs := bulletinLayout v0 f w4 w6 v8 v9 w10 v14 w15 tag record last count
    byteAt bs 0 = v0 ∧ wideAt bs 1 = f ∧ wordAt bs 4 = w4 ∧ wordAt bs 6 = w6 ∧ byteAt bs 9 = v9 ∧ wordAt bs 10 = w10
      ∧ bs.getD 12 0 = tag ∧ byteAt bs 14 = v14 := by
  intro bs
  have hbs : bs = bulletinLayout v0 f w4 w6 v8 v9 w10 v14 w15 tag record last count := rfl
  have hone (n : Nat) (h : n < 256) : (BitVec.ofNat 8 n).toNat = n := by
    rw [BitVec.toNat_ofNat]
    exact Nat.mod_eq_of_lt h
  simp only [bulletinLayout, bytesOf_one, bytesOf_two, bytesOf_three, List.cons_append, List.nil_append] at hbs
  refine ⟨?_, ?_, ?_, ?_, ?_, ?_, ?_, ?_⟩
  · rw [hbs]; exact hone v0 h0
  · rw [hbs, wideAt_eq]
    show 65536 * (BitVec.ofNat 8 (f / 65536)).toNat + 256 * (BitVec.ofNat 8 (f / 256)).toNat + (BitVec.ofNat 8 f).toNat = f
    simp only [BitVec.toNat_ofNat]
    omega
  · rw [hbs]; exact wordAt_two h4
  · rw [hbs]; exact wordAt_two h6
  · rw [hbs]; exact hone v9 h9
  · rw [hbs]; exact wordAt_two h10
  · rw [hbs]; rfl
  · rw [hbs]; exact hone v14 h14

end

theorem bulletinBytes_layout (s : State) :
    bulletinBytes s
      = bulletinLayout
          ((transportState s).code + 8 * s.chase.handed.state.code + 64 * s.time.refState.code)
          (frameView s.pos.published.position)
          (phaseView s.pos.published.position + 512 * s.pos.published.quality.code
            + 2048 * boolCode s.chase.handed.ready + 4096 * s.chase.handed.compare.code)
          (wordOfInt s.pos.published.motion) (s.chase.lead.val + 16 * s.tr.armed.toNat)
          ((editLines s).toNat + 16 * s.marks.length)
          (s.fader.level + 2048 * boolCode (onAir s) + 4096 * s.req.lastResult.code) (waitingCount s) s.flags.toNat
          (match s.fader.context with | some x => x.tag | none => 0) (activeRecordTag s) s.req.lastTag s.req.count := by
  unfold bulletinBytes bulletinLayout
  rfl

theorem TransportState.code_eq (x : TransportState) :
    x.code = [TransportState.stopped, .parked, .play, .vari, .wind, .locating, .offline, .localControl].idxOf x := by
  cases x <;> rfl

theorem ChaseState.code_eq (x : ChaseState) :
    x.code = [ChaseState.free, .park, .seek, .sync, .locked, .lost].idxOf x := by cases x <;> rfl

theorem Compare.code_eq (x : Compare) : x.code = [Compare.level, .ahead, .behind].idxOf x := by cases x <;> rfl

theorem ReqResult.code_eq (x : ReqResult) :
    x.code
      = [ReqResult.ok, .clamped, .refusedState, .refusedRole, .refusedFull, .refusedFormat, .refusedUnknown, .refusedTag,
          .refusedLocal].idxOf x := by cases x <;> rfl

theorem qualityOfCode_code (x : Quality) : qualityOfCode x.code = x := by cases x <;> rfl

theorem transportOfCode_code (x : TransportState) : transportOfCode x.code = x := by cases x <;> rfl

theorem TransportState.code_le (x : TransportState) : x.code ≤ 7 := by cases x <;> decide

theorem ChaseState.code_le (x : ChaseState) : x.code ≤ 5 := by cases x <;> decide

theorem RefState.code_le (x : RefState) : x.code ≤ 2 := by cases x <;> decide

theorem Quality.code_le (x : Quality) : x.code ≤ 3 := by cases x <;> decide

theorem Compare.code_le (x : Compare) : x.code ≤ 2 := by cases x <;> decide

theorem ReqResult.code_le (x : ReqResult) : x.code ≤ 8 := by cases x <;> decide

theorem boolCode_le (b : Bool) : boolCode b ≤ 1 := by cases b <;> decide

theorem fpd_le (x : Standard) : x.fpd ≤ 2592000 := by cases x <;> decide

theorem onAir_code (s : State) :
    2048 * boolCode (onAir s) = if 0 < s.fader.level ∨ s.fader.context.isSome = true then 2048 else 0 := by
  by_cases h : 0 < s.fader.level ∨ s.fader.context.isSome = true
  · have ho : onAir s = true := by simpa [onAir] using h
    rw [if_pos h, ho]
    rfl
  · have ho : onAir s = false := by
      rw [← Bool.not_eq_true]
      exact fun k => h (by simpa [onAir] using k)
    rw [if_neg h, ho]
    rfl

theorem bulletinBytes_eq (s : State) :
    bulletinBytes s
      = bulletinLayout
          ([TransportState.stopped, .parked, .play, .vari, .wind, .locating, .offline, .localControl].idxOf
              (transportState s)
            + 8 * [ChaseState.free, .park, .seek, .sync, .locked, .lost].idxOf s.chase.handed.state
            + 64 * [RefState.lost, .settling, .present].idxOf s.time.refState)
          (s.pos.published.position / 512)
          (s.pos.published.position % 512 + 512 * [Quality.none, .tach, .ltc, .virtual].idxOf s.pos.published.quality
            + (if s.chase.handed.ready = true then 2048 else 0)
            + 4096 * [Compare.level, .ahead, .behind].idxOf s.chase.handed.compare)
          (s.pos.published.motion % 65536).toNat (s.chase.lead.val + 16 * s.tr.armed.toNat)
          ((match s.tr.punch with | some p => p.tracks.toNat | none => 0) + 16 * s.marks.length)
          (s.fader.level + (if 0 < s.fader.level ∨ s.fader.context.isSome = true then 2048 else 0)
            + 4096 * [ReqResult.ok, .clamped, .refusedState, .refusedRole, .refusedFull, .refusedFormat, .refusedUnknown,
                .refusedTag, .refusedLocal].idxOf s.req.lastResult)
          (s.cues.list.countP fun c => c.state = .waiting) s.flags.toNat
          (match s.fader.context with | some k => k.tag | none => 0)
          (match activeRecord s with | some c => c.tag | none => 0) s.req.lastTag s.req.count := by
  have hready : 2048 * boolCode s.chase.handed.ready = if s.chase.handed.ready = true then 2048 else 0 := by
    cases s.chase.handed.ready <;> rfl
  have hedit : (editLines s).toNat = match s.tr.punch with | some p => p.tracks.toNat | none => 0 := by
    unfold editLines
    cases s.tr.punch <;> rfl
  have hwait : waitingCount s = s.cues.list.countP fun c => c.state = .waiting := List.countP_eq_length_filter.symm
  rw [bulletinBytes_layout, hready, hedit, hwait, onAir_code, TransportState.code_eq, ChaseState.code_eq,
    RefState.code_eq, Quality.code_eq, Compare.code_eq, ReqResult.code_eq]
  rfl

/-- The bulletin of a sound station is well formed, and read as it was composed (R57, R60). -/
theorem bulletin_reads {s : State} (hp : PositionsSound s) (hf : FaderSound s) (hc : CueListSound s)
    (hm : MarksSound s) (h1 : -32768 ≤ s.pos.published.motion) (h2 : s.pos.published.motion ≤ 32767) :
    (bulletinBytes s).length = 20 ∧ bulletinWellFormed (std s) (bulletinBytes s) = true
      ∧ readBulletin (bulletinBytes s)
        = { frame := s.pos.published.position / 512, phase := s.pos.published.position % 512
            quality := s.pos.published.quality, speed := s.pos.published.motion
            transport := transportState s, ready := s.chase.handed.ready
            tag := match s.fader.context with | some k => k.tag | none => 0 } := by
  obtain ⟨-, -, hpos, -⟩ := hp
  obtain ⟨hframe, hphase⟩ := frameView_lt hpos
  obtain ⟨hlevel, -⟩ := hf
  obtain ⟨hlist, -⟩ := hc
  obtain ⟨hmarks, -⟩ := hm
  have hfpd := fpd_le (std s)
  have ht := TransportState.code_le (transportState s)
  have hcs := ChaseState.code_le s.chase.handed.state
  have hrs := RefState.code_le s.time.refState
  have hq := Quality.code_le s.pos.published.quality
  have hcmp := Compare.code_le s.chase.handed.compare
  have hres := ReqResult.code_le s.req.lastResult
  have hr := boolCode_le s.chase.handed.ready
  have ho := boolCode_le (onAir s)
  have he : (editLines s).toNat < 16 := (editLines s).isLt
  have hwait : waitingCount s ≤ 24 := (List.length_filter_le _ _).trans hlist
  obtain ⟨k0, k1, k4, k6, k9, k10, k12, k14⟩ := bulletinLayout_read
    ((transportState s).code + 8 * s.chase.handed.state.code + 64 * s.time.refState.code)
    (frameView s.pos.published.position)
    (phaseView s.pos.published.position + 512 * s.pos.published.quality.code
      + 2048 * boolCode s.chase.handed.ready + 4096 * s.chase.handed.compare.code)
    (wordOfInt s.pos.published.motion) (s.chase.lead.val + 16 * s.tr.armed.toNat)
    ((editLines s).toNat + 16 * s.marks.length)
    (s.fader.level + 2048 * boolCode (onAir s) + 4096 * s.req.lastResult.code) (waitingCount s) s.flags.toNat
    (match s.fader.context with | some x => x.tag | none => 0) (activeRecordTag s) s.req.lastTag s.req.count
    (by omega) (by omega) (by omega) (wordOfInt_lt _) (by omega) (by omega) (by omega)
  have hl : (bulletinBytes s).length = 20 := by rw [bulletinBytes_layout, bulletinLayout_length]
  rw [← bulletinBytes_layout] at k0 k1 k4 k6 k9 k10 k12 k14
  refine ⟨hl, ?_, ?_⟩
  · rw [bulletinWellFormed_iff, ← wideAt_eq, k0, k1, k4, k9, k10, k14]
    exact ⟨hl, by omega, by omega, hframe, by omega, by omega, by omega, by omega, by omega⟩
  · have hw4 : (phaseView s.pos.published.position + 512 * s.pos.published.quality.code
        + 2048 * boolCode s.chase.handed.ready + 4096 * s.chase.handed.compare.code) / 512 % 4
        = s.pos.published.quality.code := by omega
    have hph : (phaseView s.pos.published.position + 512 * s.pos.published.quality.code
        + 2048 * boolCode s.chase.handed.ready + 4096 * s.chase.handed.compare.code) % 512
        = phaseView s.pos.published.position := by omega
    have htr : ((transportState s).code + 8 * s.chase.handed.state.code + 64 * s.time.refState.code) % 8
        = (transportState s).code := by omega
    have hrd : bitOf (phaseView s.pos.published.position + 512 * s.pos.published.quality.code
        + 2048 * boolCode s.chase.handed.ready + 4096 * s.chase.handed.compare.code) 11 = s.chase.handed.ready := by
      have hb : (phaseView s.pos.published.position + 512 * s.pos.published.quality.code
        + 2048 * boolCode s.chase.handed.ready + 4096 * s.chase.handed.compare.code) / 2 ^ 11 % 2
          = boolCode s.chase.handed.ready := by omega
      rw [bitOf, hb]
      cases s.chase.handed.ready <;> rfl
    rw [readBulletin, k0, k1, k4, k6, k12, hw4, hph, htr, hrd, qualityOfCode_code, transportOfCode_code,
      signedWord_wordOfInt h1 h2]
    rfl

/-- Settles O53: each of the station's outputs by its layout, and read back. -/
theorem sentCharactersReadBack : Obligations.SentCharactersReadBack := by
  unfold Obligations.SentCharactersReadBack
  refine ⟨charLevels_bits, fun s => ⟨fun f gone h => txLevels_sending h, txLevels_jamming⟩, fun p f => ?frame, rfl,
    fun bs b => ?crc, fun f s u hn hu => ?passes, ?check, fun s => ?bulletin,
    fun s hp hf hc hm h1 h2 => bulletin_reads hp hf hc hm h1 h2, fun s hs hsent => ?speed⟩
  case frame =>
    intro kind source covered
    have hk : f.kind.byte = kind := by
      show f.kind.byte = match f.kind with | .position => (0x31 : Byte) | .report => 0x64
      cases f.kind <;> rfl
    have hc : coveredChars p f = covered := by
      rw [coveredChars, hk, sourceByte_eq]
    have hlt : (crcOf covered).toNat < 65536 := (crcOf covered).isLt
    refine ⟨BitVec.ofNat 8 ((crcOf covered).toNat / 256), BitVec.ofNat 8 (crcOf covered).toNat, ?_, ?_⟩
    · rw [bytes_append hlt, BitVec.ofNat_toNat, BitVec.setWidth_eq]
    · rw [frameChars_eq, hc, bytesOf_two]
  case crc => rw [crcOf_append, crcByte_eq]
  case passes =>
    intro chars
    have hread (bs : List Byte) : readLine (bs.flatMap charLevels) = cleanChars bs := readLine_levels bs
    refine ⟨readLine_levels chars, fun hr hx hd start next hl => ?_, ?_⟩
    · have hline : readLine (start ++ next) = cleanChars chars := by rw [hl, hread]
      have hfirst : cleanChars chars
          = { byte := 0x55, framing := false } :: cleanChars (0xD3 :: (coveredChars s.straps f
              ++ bytesOf 2 (crcOf (coveredChars s.straps f)).toNat)) := rfl
      refine ⟨_, exec_frameStart hr, ?_⟩
      rw [frameStart_read u (hline.trans hfirst), judgeStart_waiting hx hd]
      have hrec : startRecognised { byte := 0x55, framing := false }
          (cleanChars (0xD3 :: (coveredChars s.straps f
              ++ bytesOf 2 (crcOf (coveredChars s.straps f)).toNat))).head? = true := rfl
      exact (if_pos hrec : (if _ then RxState.frame else RxState.ignore) = .frame)
    · rw [hread]
      have hs : foreignStandard (sourceByte s.straps) u = false := by
        rw [foreignStandard, sourceByte_standard, hu, bne_self_eq_false]
      exact frameBroken_whole hn hs
  case check => decide +kernel
  case bulletin =>
    intro byte two frame x transport onAir result
    rw [bulletinBytes_eq]
    simp only [bulletinLayout, bytesOf_one, bytesOf_two, bytesOf_three]
    rfl
  case speed =>
    obtain ⟨-, -, h1, h2⟩ := hs
    refine ⟨BitVec.ofNat 8 (wordOfInt s.tr.speedWord / 256), BitVec.ofNat 8 (wordOfInt s.tr.speedWord), ?_, ?_⟩
    · rw [speedWordChars, if_pos hsent, bytesOf_two]
    · rw [← signedWord_bytes, wordAt_two (wordOfInt_lt _), signedWord_wordOfInt (by omega) (by omega)]

end Sys2Proof.Machine

/-! O32. The Chase Servo's own limits, between two evaluations. -/

namespace Sys2Proof.Machine

set_option Elab.async false

theorem exec_freewheelExpiry {s : State} (hr : Running s) : exec .freewheelExpiry s = .next (freewheelStop s) :=
  inRun_of_running _ hr

theorem exec_chaseLock {s : State} (hr : Running s) : exec .chaseLock s = .next (chaseLock s) := inRun_of_running _ hr

theorem exec_outWindowExpiry {s : State} (hr : Running s) : exec .outWindowExpiry s = .next (outWindowExpiry s) :=
  inRun_of_running _ hr

theorem freewheelStop_due {s : State} (hl : s.chase.state = .lost) (hc : 50 ≤ s.chase.freewheel) :
    freewheelStop s = takeCommand .stop s := if_pos ⟨hl, hc⟩

theorem freewheelStop_below {s : State} (hc : s.chase.freewheel < 50) : freewheelStop s = s :=
  if_neg fun h => absurd h.2 (Nat.not_le.mpr hc)

theorem lockConditions_iff (s : State) :
    lockConditions s = true
      ↔ s.time.refState = .present ∧ s.pins.servo = true
        ∧ (s.pos.published.quality = .ltc ∨ s.pos.published.quality = .tach) ∧ leadClass s = .fresh := by
  unfold lockConditions
  simp only [Bool.and_eq_true, Bool.or_eq_true, decide_eq_true_eq, and_assoc]

/-- The chase locked by its in-window count (R123). -/
def Chase.asLocked (c : Chase) : Chase := { c with state := .locked, outWindow := 0 }

theorem lockIfDue_due {s : State} (hs : s.chase.state = .sync) (hc : s.chase.inWindow = 10)
    (h : lockConditions s = true) : lockIfDue s = s.setChase s.chase.asLocked := if_pos ⟨hs, hc, h⟩

theorem lockIfDue_early {s : State} (h : ¬(s.chase.inWindow = 10 ∧ lockConditions s = true)) : lockIfDue s = s :=
  if_neg fun k => h k.2

theorem refreshRecord_moved {s t : State} (h : t.chase.state ≠ s.chase.state) :
    refreshRecord s t
      = t.setChase { t.chase with record := { t.chase.record with state := t.chase.state, ready := ownReady t } } :=
  if_neg h

theorem ownReady_unlocked {s : State} (hf : s.chase.state ≠ .free) (hl : s.chase.state ≠ .locked) :
    ownReady s = false := by
  rw [← Bool.not_eq_true, ownReady_iff]
  exact fun h => h.elim hl fun k => hf k.1

theorem unlockIfOut_due {s : State} (hl : s.chase.state = .locked) (hc : 3 ≤ s.chase.outWindow) :
    unlockIfOut s = unlock s := if_pos ⟨hl, hc⟩

theorem unlockIfOut_below {s : State} (hc : s.chase.outWindow < 3) : unlockIfOut s = s :=
  if_neg fun h => absurd h.2 (Nat.not_le.mpr hc)

theorem chaseLock_due {s : State} (hd : isDeck s = true) (hs : s.chase.state = .sync) (hc : s.chase.inWindow = 10)
    (h : lockConditions s = true) :
    (chaseLock s).chase.state = .locked ∧ (chaseLock s).chase.outWindow = 0
      ∧ (chaseLock s).chase.record.ready = true := by
  have hm : (lockIfDue s).chase.state ≠ s.chase.state := by
    rw [lockIfDue_due hs hc h, hs]
    exact ChaseState.noConfusion
  have e : chaseLock s = refreshRecord s (lockIfDue s) := if_pos hd
  rw [e, refreshRecord_moved hm, lockIfDue_due hs hc h]
  exact ⟨rfl, rfl, rfl⟩

theorem outWindowExpiry_due {s : State} (hd : isDeck s = true) (hs : s.chase.state = .locked)
    (hc : 3 ≤ s.chase.outWindow) :
    (outWindowExpiry s).chase.state = .sync ∧ (outWindowExpiry s).chase.inWindow = 0
      ∧ (outWindowExpiry s).chase.outWindow = 0 ∧ (outWindowExpiry s).chase.record.ready = false := by
  have hm : (unlockIfOut s).chase.state ≠ s.chase.state := by
    rw [unlockIfOut_due hs hc, hs]
    exact ChaseState.noConfusion
  have e : outWindowExpiry s = refreshRecord s (unlockIfOut s) := if_pos hd
  rw [e, refreshRecord_moved hm, unlockIfOut_due hs hc]
  exact ⟨rfl, rfl, rfl, rfl⟩

/-- Settles O32: each limit command does what its evaluation would do. -/
theorem chaseLimits : Obligations.ChaseLimits := by
  unfold Obligations.ChaseLimits
  refine fun s hr hd => ⟨fun hl hc hdr => ?_, fun hs hc hp hv hq hf => ?_, fun hs hc => ?_⟩
  · have k : CommandTaken .stop s (freewheelStop s) := by
      rw [freewheelStop_due hl hc.ge]
      exact takeCommand_taken hdr
    have hw := freewheelStop_frame s
    exact ⟨_, exec_freewheelExpiry hr, k.command, k.locate, hw.same .chase, hw.mono.self_record⟩
  · obtain ⟨hstate, hout, hready⟩ := chaseLock_due hd hs hc ((lockConditions_iff s).mpr ⟨hp, hv, hq, hf⟩)
    exact ⟨_, exec_chaseLock hr, hstate, hout, hready, Frame.eq (.onto_chase (chaseLock_frame s))⟩
  · obtain ⟨hstate, hin, hout, hready⟩ := outWindowExpiry_due hd hs hc.ge
    exact ⟨_, exec_outWindowExpiry hr, hstate, hin, hout, hready, Frame.eq (.onto_chase (outWindowExpiry_frame s))⟩

end Sys2Proof.Machine

/-! O30, O31. What the Chase Servo reads, and what one evaluation leaves. -/

namespace Sys2Proof.Machine

set_option Elab.async false

/-! ### The lead, the target and the error -/

theorem leadClass_congr {s t : State} (hp : t.peers = s.peers) (ht : t.time = s.time)
    (hl : t.chase.lead = s.chase.lead) : leadClass t = leadClass s := by
  unfold leadClass leadEntry entry freshness ageOf
  rw [hp, ht, hl]

theorem ageOf_eq (x : PeerEntry) (s : State) :
    ageOf x s = (65536 + s.time.fieldCount.toNat - x.arrival.toNat) % 65536 := elapsed_eq _ _

theorem freshness_stale {x : PeerEntry} {s : State} : freshness x s = .stale ↔ x.heard = false ∨ 8 < ageOf x s := by
  unfold freshness
  cases x.heard
  · simp
  · simp only [Bool.not_true, Bool.false_eq_true, if_false, Bool.true_eq_false, false_or]
    by_cases h4 : ageOf x s ≤ 4
    · rw [if_pos h4]
      exact ⟨fun k => Freshness.noConfusion k, fun k => absurd h4 (by omega)⟩
    · rw [if_neg h4]
      by_cases h8 : ageOf x s ≤ 8
      · rw [if_pos h8]
        exact ⟨fun k => Freshness.noConfusion k, fun k => absurd h8 (by omega)⟩
      · rw [if_neg h8]
        exact ⟨fun _ => by omega, fun _ => rfl⟩

theorem leadClass_fresh (s : State) :
    leadClass s = .fresh
      ↔ (leadEntry s).heard = true ∧ ageOf (leadEntry s) s ≤ 4 ∧ (leadEntry s).quality ≠ .none := by
  rw [← and_assoc, ← freshness_fresh]
  unfold leadClass
  split
  · next h => split <;> simp_all
  · next h => simp [h]
  · next h => simp [h]

theorem leadClass_stale (s : State) :
    leadClass s = .stale ↔ (leadEntry s).heard = false ∨ 8 < ageOf (leadEntry s) s := by
  rw [← freshness_stale]
  unfold leadClass
  split
  · next h => split <;> simp [h]
  · next h => simp [h]
  · next h => simp [h]

theorem modSum_eq (x : Standard) (a : Nat) (b : Int) : (modSum x a b : Int) = ((a : Int) + b) % x.day :=
  Int.toNat_of_nonneg (Int.emod_nonneg _ (by have := day_pos x; omega))

theorem chaseTarget_eq (s : State) :
    (chaseTarget s : Int)
      = (512 * (leadEntry s).frame + (leadEntry s).phase + (leadEntry s).speed * ageOf (leadEntry s) s
          + 512 * s.chase.offset) % (std s).day := by
  rw [chaseTarget, modSum_eq, extrapolated, modSum_eq, Int.emod_add_emod, PeerEntry.position]
  push_cast
  rfl

theorem signedDiff_le (x : Standard) (a b : Nat) : 2 * signedDiff x a b ≤ x.day := by
  have hd := day_pos x
  have := Int.emod_lt_of_pos ((a : Int) - b) (show (0 : Int) < x.day by omega)
  unfold signedDiff
  dsimp only
  split <;> omega

theorem signedDiff_gt (x : Standard) (a b : Nat) : -(x.day : Int) < 2 * signedDiff x a b := by
  have hd := day_pos x
  have := Int.emod_nonneg ((a : Int) - b) (show (x.day : Int) ≠ 0 by omega)
  unfold signedDiff
  dsimp only
  split <;> omega

theorem signedDiff_dvd (x : Standard) (a b : Nat) : (x.day : Int) ∣ signedDiff x a b - ((a : Int) - b) := by
  have h : (x.day : Int) ∣ ((a : Int) - b) % x.day - ((a : Int) - b) :=
    ⟨-(((a : Int) - b) / x.day), by have := Int.emod_add_mul_ediv ((a : Int) - b) x.day; rw [Int.mul_neg]; omega⟩
  unfold signedDiff
  dsimp only
  split
  · rw [sub_right_comm]
    exact dvd_sub h (dvd_refl _)
  · exact h

theorem leadParked_iff (s : State) :
    leadParked s = true
      ↔ (leadEntry s).speed = 0
        ∧ ((leadEntry s).transport = .stopped ∨ (leadEntry s).transport = .parked
          ∨ (leadEntry s).transport = .offline ∨ (leadEntry s).transport = .localControl) := by
  unfold leadParked
  simp only [Bool.and_eq_true, Bool.or_eq_true, decide_eq_true_eq, or_assoc]

theorem seekDue_iff (v e : Int) : seekDue v e = true ↔ 65536 < e.natAbs ∨ v < -12832 ∨ 12832 < v := by
  unfold seekDue
  rw [Bool.or_eq_true, decide_eq_true_eq, decide_eq_true_eq]
  omega

theorem compareOf_ahead (e : Int) : compareOf e = .ahead ↔ e < -64 := by
  unfold compareOf
  split
  · simp_all
  · split <;> simp_all

theorem compareOf_behind (e : Int) : compareOf e = .behind ↔ 64 < e := by
  unfold compareOf
  split
  · exact ⟨fun h => Compare.noConfusion h, fun h => by omega⟩
  · split <;> simp_all

/-! ### One evaluation -/

theorem chaseBoundary_enabled {s : State} (h : s.chase.state ≠ .free) :
    chaseBoundary s = publishChase (followRecord (targetNow s) (follow s)) (follow s) := if_neg h

theorem chaseBoundary_free {s : State} (h : s.chase.state = .free) :
    chaseBoundary s = publishChase (freeRecord s.pos.published s) s := if_pos h

theorem freeRecord_ready {r : PosRecord} {s : State} (h : s.chase.state = .free) :
    (freeRecord r s).ready = true
      ↔ s.time.refState = .present ∧ (role s = .live ∨ (transportState s = .play ∧ s.pins.servo = true)) := by
  show ownReady s = true ↔ _
  rw [ownReady_iff, h]
  simp

theorem not_deck_iff (s : State) : isDeck s = false ↔ role s = .live := by simp [isDeck]

theorem targetNow_fresh {s : State} (h : leadClass s = .fresh) : targetNow s = some (chaseTarget s) := if_pos h

theorem targetNow_not_fresh {s : State} (h : leadClass s ≠ .fresh) : targetNow s = none := if_neg h

theorem follow_fresh {s : State} (hd : isDeck s = true) (h : leadClass s = .fresh) : follow s = followFresh s := by
  rw [follow, if_pos hd, h]

theorem follow_coasting {s : State} (hd : isDeck s = true) (h : leadClass s = .coasting) :
    follow s = followCoasting s := by rw [follow, if_pos hd, h]

theorem follow_stale {s : State} (hd : isDeck s = true) (h : leadClass s = .stale) : follow s = followStale s := by
  rw [follow, if_pos hd, h]

theorem follow_live {s : State} (h : role s = .live) : follow s = followLive s :=
  if_neg (by rw [(not_deck_iff s).mpr h]; exact Bool.false_ne_true)

/-- What the record of an evaluation t of s says of the chase it leaves (R127, R129). -/
structure RecordPublished (target : Nat) (usable : Bool) (t : State) : Prop where
  handed : t.chase.handed = t.chase.record
  state : t.chase.record.state = t.chase.state
  target : t.chase.record.target = target
  usable : t.chase.record.usable = usable
  error : t.chase.record.error = t.chase.lastError
  compare : t.chase.record.compare = compareOf t.chase.lastError
  ready : t.chase.state ≠ .free → (t.chase.record.ready = true ↔ t.chase.state = .locked)

theorem publishChase_record (target : Option Nat) (t : State) :
    RecordPublished (target.getD t.pos.published.position) target.isSome (publishChase (followRecord target t) t) where
  handed := rfl
  state := rfl
  target := rfl
  usable := rfl
  error := rfl
  compare := rfl
  ready hf := by
    show ownReady t = true ↔ t.chase.state = .locked
    rw [ownReady_iff]
    exact ⟨fun h => h.elim id fun k => absurd k.1 hf, .inl⟩

theorem evaluated_fresh {s : State} (he : s.chase.state ≠ .free) (h : leadClass s = .fresh) :
    RecordPublished (chaseTarget s) true (chaseBoundary s) := by
  rw [chaseBoundary_enabled he, targetNow_fresh h]
  exact publishChase_record (some (chaseTarget s)) (follow s)

theorem evaluated_not_fresh {s : State} (he : s.chase.state ≠ .free) (h : leadClass s ≠ .fresh) :
    RecordPublished s.pos.published.position false (chaseBoundary s) := by
  have hp : (follow s).pos = s.pos := (follow_frame s).same .pos
  rw [chaseBoundary_enabled he, targetNow_not_fresh h, ← hp]
  exact publishChase_record none (follow s)

/-- An evaluation of an enabled chase is the chase it follows to, with its record. -/
theorem evaluated_chase {s : State} (he : s.chase.state ≠ .free) :
    (chaseBoundary s).chase
      = { (follow s).chase with record := (chaseBoundary s).chase.record, handed := (chaseBoundary s).chase.handed } := by
  rw [chaseBoundary_enabled he]
  rfl

theorem evaluated_tr {s : State} (he : s.chase.state ≠ .free) : (chaseBoundary s).tr = (follow s).tr := by
  rw [chaseBoundary_enabled he]
  rfl

end Sys2Proof.Machine

/-! O31. Acquiring, seeking, parking, coasting, freewheeling, and the LIVE role. -/

namespace Sys2Proof.Machine

set_option Elab.async false

/-- The chase of t is c but for its records. -/
structure Leaves (c : Chase) (t : State) : Prop where
  state : t.chase.state = c.state
  lead : t.chase.lead = c.lead
  offset : t.chase.offset = c.offset
  integral : t.chase.integral = c.integral
  inWindow : t.chase.inWindow = c.inWindow
  outWindow : t.chase.outWindow = c.outWindow
  freewheel : t.chase.freewheel = c.freewheel
  parkFrame : t.chase.parkFrame = c.parkFrame
  parkDone : t.chase.parkDone = c.parkDone
  lastError : t.chase.lastError = c.lastError

theorem evaluated_leaves {c : Chase} {s : State} (he : s.chase.state ≠ .free) (h : (follow s).chase = c) :
    Leaves c (chaseBoundary s) := by
  rw [chaseBoundary_enabled he, ← h]
  exact ⟨rfl, rfl, rfl, rfl, rfl, rfl, rfl, rfl, rfl, rfl⟩

/-! ### A command of the servo -/

theorem deckReady_setChase (c : Chase) (s : State) : deckReady (s.setChase c) = deckReady s := rfl

theorem live_not_ready {s : State} (h : role s = .live) : deckReady s = false := by
  rw [deckReady, (not_deck_iff s).mpr h]
  rfl

/-- The servo's speed w is the command of t where the deck of s takes commands, and nothing else is done (R87). -/
def ServoSpeed (w : Int) (s t : State) : Prop :=
  (deckReady s = true → t.tr.command = .speed w ∧ t.tr.locate = none ∧ t.tr.parkedMark = false)
    ∧ (deckReady s = false → t.tr = s.tr)

theorem takeCommand_servoSpeed (w : Int) (c : Chase) (s : State) :
    ServoSpeed w s (takeCommand (.speed w) (s.setChase c)) := by
  refine ⟨fun h => ?_, fun h => ?_⟩
  · have k := takeCommand_taken (c := .speed w) ((deckReady_setChase c s).trans h)
    exact ⟨k.command, k.locate, k.mark⟩
  · rw [takeCommand_of_not_ready ((deckReady_setChase c s).trans h)]
    rfl

/-! ### Acquiring and seeking -/

theorem followFresh_acquire {s : State} (hq : s.pos.published.quality = .none) :
    followFresh s = takeCommand (.speed 256) (s.setChase (s.chase.enter .seek 0)) := if_pos hq

theorem followFresh_park {s : State} (hq : s.pos.published.quality ≠ .none) (hp : leadParked s = true) :
    followFresh s = park (chaseError s) s := by
  rw [followFresh, if_neg hq, if_pos hp]

theorem followFresh_seek {s : State} (hq : s.pos.published.quality ≠ .none) (hp : leadParked s = false)
    (hs : seekDue (leadEntry s).speed (chaseError s) = true) :
    followFresh s
      = takeCommand (.speed (seekSpeed (leadEntry s).speed (chaseError s)))
          (s.setChase (s.chase.enter .seek (chaseError s))) := by
  rw [followFresh, if_neg hq, hp, if_neg Bool.false_ne_true, if_pos hs]
  rfl

theorem followFresh_sync {s : State} (hq : s.pos.published.quality ≠ .none) (hp : leadParked s = false)
    (hs : seekDue (leadEntry s).speed (chaseError s) = false) : followFresh s = syncLaw (chaseError s) s := by
  rw [followFresh, if_neg hq, hp, if_neg Bool.false_ne_true, hs]
  rfl

/-! ### Parking -/

/-- The chase of an evaluation that parks (R120). -/
def Chase.parked (c : Chase) (e : Int) (target : Nat) (done : Bool) : Chase :=
  Chase.parkAt { c with state := .park, integral := 0, inWindow := 0, outWindow := 0, lastError := e } target done

/-- Park done is kept only where no locate runs and the last one to the target has ended. -/
def parkStays (s : State) : Bool := parkSettled (parkTarget s) s && s.tr.locate.isNone

theorem park_settled {e : Int} {s : State} (h : parkSettled (parkTarget s) s = true) :
    park e s = s.setChase (s.chase.parked e (parkTarget s) (parkStays s)) := if_pos h

theorem park_due {e : Int} {s : State} (h : parkSettled (parkTarget s) s = false) :
    park e s = giveLocate none (parkTarget s) (s.setChase (s.chase.parked e (parkTarget s) (parkStays s))) :=
  if_neg (by rw [h]; exact Bool.false_ne_true)

theorem park_chase (e : Int) (s : State) : (park e s).chase = s.chase.parked e (parkTarget s) (parkStays s) := by
  cases h : parkSettled (parkTarget s) s
  · rw [park_due h, giveLocate_chase]
    rfl
  · rw [park_settled h]
    rfl

theorem parkSettled_running {l : Locate} {target : Nat} {s : State} (h : s.tr.locate = some l) :
    parkSettled target s = decide (l.target = target) := by rw [parkSettled, h]

theorem parkSettled_idle {target : Nat} {s : State} (h : s.tr.locate = none) :
    parkSettled target s = true ↔ s.chase.parkFrame = some target ∧ s.chase.parkDone = true := by
  rw [parkSettled, h]
  simp

theorem parkStays_running {l : Locate} {s : State} (h : s.tr.locate = some l) : parkStays s = false := by
  rw [parkStays, h]
  exact Bool.and_false _

theorem parkStays_idle {s : State} (h : s.tr.locate = none) : parkStays s = parkSettled (parkTarget s) s := by
  rw [parkStays, h]
  exact Bool.and_true _

theorem park_command (e : Int) (s : State) : (park e s).tr.command = s.tr.command := by
  cases h : parkSettled (parkTarget s) s
  · rw [park_due h]
    cases hd : deckReady s
    · rw [giveLocate_of_not_ready ((deckReady_setChase _ s).trans hd)]
      rfl
    · obtain ⟨l, hl⟩ := giveLocate_taken (skips := none) (target := parkTarget s)
        ((deckReady_setChase (s.chase.parked e (parkTarget s) (parkStays s)) s).trans hd)
      exact hl.command
  · rw [park_settled h]
    rfl

theorem park_tr_kept {e : Int} {s : State} (h : parkSettled (parkTarget s) s = true ∨ deckReady s = false) :
    (park e s).tr = s.tr := by
  cases k : parkSettled (parkTarget s) s
  · have hd := h.resolve_left (by rw [k]; exact Bool.false_ne_true)
    rw [park_due k, giveLocate_of_not_ready ((deckReady_setChase _ s).trans hd)]
    rfl
  · rw [park_settled k]
    rfl

theorem park_retargets {e : Int} {l : Locate} {s : State} (hl : s.tr.locate = some l) (ht : l.target ≠ parkTarget s)
    (hd : deckReady s = true) : (park e s).tr.locate = some (l.retarget none (parkTarget s)) := by
  have k : parkSettled (parkTarget s) s = false := (parkSettled_running hl).trans (decide_eq_false ht)
  have hr : deckReady (s.setChase (s.chase.parked e (parkTarget s) (parkStays s))) = true := hd
  rw [park_due k, giveLocate_retarget hr (l := l) hl]
  rfl

theorem park_starts {e : Int} {s : State} (hl : s.tr.locate = none) (k : parkSettled (parkTarget s) s = false)
    (hd : deckReady s = true) :
    (park e s).tr.locate = some (Locate.start none (parkTarget s) s.pos.record.quality s.tr.command)
      ∧ (park e s).tr.punch = none := by
  have hr : deckReady (s.setChase (s.chase.parked e (parkTarget s) (parkStays s))) = true := hd
  rw [park_due k]
  refine ⟨?_, ?_⟩
  · rw [giveLocate_start hr hl, breakRecord_tr]
    rfl
  · obtain ⟨l, h⟩ := giveLocate_taken (skips := none) (target := parkTarget s) hr
    exact (h.started hl).2.2.1

/-! ### Coasting and freewheeling -/

/-- The chase with its freewheel count raised (R116). -/
def Chase.freewheeled (c : Chase) : Chase := { c with freewheel := c.freewheel + 1 }

theorem countFreewheel_counts {s : State} (h : s.chase.freewheel < 50) :
    countFreewheel s = freewheelStop (s.setChase s.chase.freewheeled) := if_pos h

theorem countFreewheel_chase (s : State) :
    (countFreewheel s).chase
      = { s.chase with
          freewheel := if s.chase.freewheel < 50 then s.chase.freewheel + 1 else s.chase.freewheel } := by
  unfold countFreewheel
  split
  · exact (freewheelStop_frame _).same .chase
  · rfl

theorem countFreewheel_kept {s : State} (h : s.chase.freewheel ≠ 49 ∨ deckReady s = false) :
    (countFreewheel s).tr = s.tr := by
  unfold countFreewheel
  split
  · next hlt =>
    unfold freewheelStop
    split
    · next hdue =>
      have hle : 50 ≤ s.chase.freewheel + 1 := hdue.2
      have hd := h.resolve_left (by omega)
      rw [takeCommand_of_not_ready ((deckReady_setChase _ s).trans hd)]
      rfl
    · rfl
  · rfl

theorem countFreewheel_stops {s : State} (hl : s.chase.state = .lost) (hc : s.chase.freewheel = 49)
    (hd : deckReady s = true) : (countFreewheel s).tr.command = .stop ∧ (countFreewheel s).tr.locate = none := by
  have hdue : 50 ≤ (s.setChase s.chase.freewheeled).chase.freewheel := by
    show 50 ≤ s.chase.freewheel + 1
    omega
  rw [countFreewheel_counts (by omega), freewheelStop_due (s := s.setChase s.chase.freewheeled) hl hdue]
  have k := takeCommand_taken (c := .stop) ((deckReady_setChase s.chase.freewheeled s).trans hd)
  exact ⟨k.command, k.locate⟩

theorem followStale_lost {s : State} (h : s.chase.state = .lost) : followStale s = countFreewheel s := if_pos h

theorem followStale_enters {s : State} (h : s.chase.state ≠ .lost) : followStale s = enterLost s := if_neg h

theorem followCoasting_lost {s : State} (h : s.chase.state = .lost) : followCoasting s = countFreewheel s := if_pos h

/-- The chase of a coasting evaluation out of LOST (R117). -/
def Chase.coasted (c : Chase) : Chase :=
  { c with state := if c.state = .locked then .sync else c.state, inWindow := 0, outWindow := 0 }

theorem followCoasting_out {s : State} (h : s.chase.state ≠ .lost) : followCoasting s = s.setChase s.chase.coasted :=
  if_neg h

theorem coasted_unlocked {c : Chase} (h : c.state ≠ .free) :
    c.coasted.state ≠ .free ∧ c.coasted.state ≠ .locked := by
  unfold Chase.coasted
  dsimp only
  split
  · exact ⟨ChaseState.noConfusion, ChaseState.noConfusion⟩
  · next k => exact ⟨h, k⟩

/-! ### The LIVE role -/

theorem followLive_fresh {s : State} (h : leadClass s = .fresh) :
    followLive s
      = s.setChase
          { s.chase with state := if s.time.refState = .present then .locked else .sync, lastError := 0 } := by
  rw [followLive, h]

theorem followLive_coasting {s : State} (h : leadClass s = .coasting) :
    followLive s = s.setChase { s.chase with state := .sync } := by rw [followLive, h]

theorem followLive_stale {s : State} (h : leadClass s = .stale) : followLive s = followStale s := by
  rw [followLive, h]

/-- The chase that the LIVE role leaves, by the class of the lead. -/
structure LiveLeaves (s : State) (c : Chase) : Prop where
  lead : c.lead = s.chase.lead
  offset : c.offset = s.chase.offset
  enabled : s.chase.state ≠ .free → c.state ≠ .free
  fresh : leadClass s = .fresh →
    c.state = (if s.time.refState = .present then .locked else .sync) ∧ c.lastError = 0
  coasting : leadClass s = .coasting → c.state = .sync
  stale : leadClass s = .stale →
    c.state = .lost
      ∧ c.freewheel
        = if s.chase.state = .lost then
            (if s.chase.freewheel < 50 then s.chase.freewheel + 1 else s.chase.freewheel)
          else 0

theorem followLive_leaves (s : State) : LiveLeaves s (followLive s).chase := by
  cases h : leadClass s
  case fresh =>
    rw [followLive_fresh h]
    refine ⟨rfl, rfl, fun _ => ?_, fun _ => ⟨rfl, rfl⟩, fun k => ?_, fun k => ?_⟩
    · show (if s.time.refState = .present then ChaseState.locked else .sync) ≠ .free
      split <;> exact ChaseState.noConfusion
    · rw [h] at k; cases k
    · rw [h] at k; cases k
  case coasting =>
    rw [followLive_coasting h]
    refine ⟨rfl, rfl, fun _ => ChaseState.noConfusion, fun k => ?_, fun _ => rfl, fun k => ?_⟩
    · rw [h] at k; cases k
    · rw [h] at k; cases k
  case stale =>
    rw [followLive_stale h]
    by_cases hl : s.chase.state = .lost
    · rw [followStale_lost hl, countFreewheel_chase]
      refine ⟨rfl, rfl, id, fun k => ?_, fun k => ?_, fun _ => ⟨hl, (if_pos hl).symm⟩⟩
      · rw [h] at k; cases k
      · rw [h] at k; cases k
    · rw [followStale_enters hl]
      refine ⟨rfl, rfl, fun _ => ChaseState.noConfusion, fun k => ?_, fun k => ?_, fun _ => ⟨rfl, (if_neg hl).symm⟩⟩
      · rw [h] at k; cases k
      · rw [h] at k; cases k

theorem followLive_tr {s : State} (hr : role s = .live) : (followLive s).tr = s.tr := by
  cases h : leadClass s
  case fresh => rw [followLive_fresh h]; rfl
  case coasting => rw [followLive_coasting h]; rfl
  case stale =>
    rw [followLive_stale h]
    by_cases hl : s.chase.state = .lost
    · rw [followStale_lost hl, countFreewheel_kept (.inr (live_not_ready hr))]
    · rw [followStale_enters hl]; rfl

/-! ### O31 -/

/-- What a fresh evaluation that enters a state other than SYNC leaves of the chase (R119 to R121). -/
structure Enters (s t : State) (state : ChaseState) (e : Int) : Prop where
  leaves : Leaves { s.chase with
    state := state, integral := 0, inWindow := 0, outWindow := 0, lastError := e
    parkFrame := t.chase.parkFrame, parkDone := t.chase.parkDone } t
  record : RecordPublished (chaseTarget s) true t

theorem Enters.not_ready {s t : State} {state : ChaseState} {e : Int} (h : Enters s t state e)
    (hf : state ≠ .free) (hl : state ≠ .locked) : t.chase.record.ready = false := by
  rw [← Bool.not_eq_true, h.record.ready (h.leaves.state ▸ hf), h.leaves.state]
  exact hl

theorem evaluated_enters {s : State} {state : ChaseState} {e : Int} (he : s.chase.state ≠ .free)
    (hf : leadClass s = .fresh)
    (h : (follow s).chase = { s.chase with
      state := state, integral := 0, inWindow := 0, outWindow := 0, lastError := e
      parkFrame := (follow s).chase.parkFrame, parkDone := (follow s).chase.parkDone }) :
    Enters s (chaseBoundary s) state e := by
  have k := evaluated_leaves he h
  exact ⟨⟨k.state, k.lead, k.offset, k.integral, k.inWindow, k.outWindow, k.freewheel, rfl, rfl, k.lastError⟩,
    evaluated_fresh he hf⟩

theorem evaluated_commands {s : State} {w e : Int} (he : s.chase.state ≠ .free) (hf : leadClass s = .fresh)
    (h : follow s = takeCommand (.speed w) (s.setChase (s.chase.enter .seek e))) :
    Enters s (chaseBoundary s) .seek e ∧ (chaseBoundary s).chase.parkFrame = none
      ∧ (chaseBoundary s).chase.parkDone = false ∧ ServoSpeed w s (chaseBoundary s) := by
  have hc : (follow s).chase = s.chase.enter .seek e := by rw [h, takeCommand_chase]; rfl
  have k := evaluated_leaves he hc
  refine ⟨evaluated_enters he hf (by rw [hc]; rfl), k.parkFrame, k.parkDone, ?_⟩
  rw [ServoSpeed, evaluated_tr he, h]
  exact takeCommand_servoSpeed w _ s

theorem evaluated_parks {s : State} (he : s.chase.state ≠ .free) (hf : leadClass s = .fresh)
    (h : follow s = park (chaseError s) s) :
    Enters s (chaseBoundary s) .park (chaseError s) ∧ (chaseBoundary s).chase.parkFrame = some (parkTarget s)
      ∧ (chaseBoundary s).chase.parkDone = parkStays s ∧ (chaseBoundary s).tr = (park (chaseError s) s).tr := by
  have hc : (follow s).chase = s.chase.parked (chaseError s) (parkTarget s) (parkStays s) := by rw [h, park_chase]
  have k := evaluated_leaves he hc
  exact ⟨evaluated_enters he hf (by rw [hc]; rfl), k.parkFrame, k.parkDone, by rw [evaluated_tr he, h]⟩

end Sys2Proof.Machine

/-! O31. The cases of an enabled chase outside the SYNC law. -/

namespace Sys2Proof.Machine

set_option Elab.async false

/-- The list of what an evaluation enters, as O31 names it. -/
theorem Enters.entered {s t : State} {state : ChaseState} {e : Int} (h : Enters s t state e) (hf : state ≠ .free)
    (hl : state ≠ .locked) :
    t.chase.state = state ∧ t.chase.lead = s.chase.lead ∧ t.chase.offset = s.chase.offset ∧ t.chase.integral = 0
      ∧ t.chase.inWindow = 0 ∧ t.chase.outWindow = 0 ∧ t.chase.lastError = e ∧ t.chase.handed = t.chase.record
      ∧ t.chase.record.state = state ∧ t.chase.record.usable = true ∧ t.chase.record.target = chaseTarget s
      ∧ t.chase.record.error = e ∧ t.chase.record.ready = false :=
  ⟨h.leaves.state, h.leaves.lead, h.leaves.offset, h.leaves.integral, h.leaves.inWindow, h.leaves.outWindow,
    h.leaves.lastError, h.record.handed, h.record.state.trans h.leaves.state, h.record.usable, h.record.target,
    h.record.error.trans h.leaves.lastError, h.not_ready hf hl⟩

/-- What parking gives, by the locate that runs (R120). -/
theorem park_gives (e : Int) (s : State) :
    (∀ l, s.tr.locate = some l → l.target = parkTarget s → (park e s).tr = s.tr ∧ parkStays s = false)
      ∧ (∀ l, s.tr.locate = some l → l.target ≠ parkTarget s → deckReady s = true →
        parkStays s = false ∧ (park e s).tr.locate = some (l.retarget none (parkTarget s)))
      ∧ (s.tr.locate = none → s.chase.parkFrame = some (parkTarget s) → s.chase.parkDone = true →
        (park e s).tr = s.tr ∧ parkStays s = true)
      ∧ (s.tr.locate = none → ¬(s.chase.parkFrame = some (parkTarget s) ∧ s.chase.parkDone = true) →
        parkStays s = false ∧ (deckReady s = false → (park e s).tr = s.tr)
          ∧ (deckReady s = true →
            (park e s).tr.locate = some (Locate.start none (parkTarget s) s.pos.record.quality s.tr.command)
              ∧ (park e s).tr.punch = none)) := by
  refine ⟨fun l hl ht => ?_, fun l hl ht hd => ?_, fun hl hp hq => ?_, fun hl hp => ?_⟩
  · have k : parkSettled (parkTarget s) s = true := (parkSettled_running hl).trans (decide_eq_true ht)
    exact ⟨park_tr_kept (.inl k), parkStays_running hl⟩
  · exact ⟨parkStays_running hl, park_retargets hl ht hd⟩
  · have k : parkSettled (parkTarget s) s = true := (parkSettled_idle hl).mpr ⟨hp, hq⟩
    exact ⟨park_tr_kept (.inl k), (parkStays_idle hl).trans k⟩
  · have k : parkSettled (parkTarget s) s = false := by
      rw [← Bool.not_eq_true, parkSettled_idle hl]
      exact hp
    exact ⟨(parkStays_idle hl).trans k, fun hd => park_tr_kept (.inr hd), fun hd => park_starts hl k hd⟩

theorem evaluated_coasts {s : State} (hd : isDeck s = true) (he : s.chase.state ≠ .free) (hl : s.chase.state ≠ .lost)
    (hc : leadClass s = .coasting) :
    (chaseBoundary s).tr = s.tr
      ∧ (chaseBoundary s).chase
        = { s.chase.coasted with
            record := (chaseBoundary s).chase.record, handed := (chaseBoundary s).chase.handed } := by
  have e : follow s = s.setChase s.chase.coasted := (follow_coasting hd hc).trans (followCoasting_out hl)
  refine ⟨by rw [evaluated_tr he, e]; rfl, ?_⟩
  rw [chaseBoundary_enabled he, e]
  rfl

/-- Settles O31, case by case of the lead and the role. -/
theorem parkSeekCoastAndLive : Obligations.ParkSeekCoastAndLive := by
  unfold Obligations.ParkSeekCoastAndLive
  refine ⟨fun s hd he hf => ?_, fun s hd he hl hc => ?_, fun s hr he => ?_⟩
  · have hfollow := follow_fresh hd hf
    refine ⟨fun hq => ?_, fun hq hp hs => ?_, fun hq hp => ?_⟩
    · obtain ⟨hin, hpf, hpd, hw⟩ := evaluated_commands he hf (hfollow.trans (followFresh_acquire hq))
      exact ⟨hin.entered ChaseState.noConfusion ChaseState.noConfusion, hpf, hpd, hw⟩
    · have hparked : leadParked s = false := by
        rw [← Bool.not_eq_true, leadParked_iff]
        exact hp
      obtain ⟨hin, hpf, hpd, hw⟩ := evaluated_commands he hf
        (hfollow.trans (followFresh_seek hq hparked ((seekDue_iff _ _).mpr hs)))
      exact ⟨hin.entered ChaseState.noConfusion ChaseState.noConfusion, hpf, hpd, hw⟩
    · obtain ⟨hin, hpf, hpd, htr⟩ := evaluated_parks he hf (hfollow.trans (followFresh_park hq ((leadParked_iff s).mpr hp)))
      obtain ⟨hkept, hretarget, hdone, hstart⟩ := park_gives (chaseError s) s
      dsimp only
      rw [htr, hpd]
      refine ⟨hin.entered ChaseState.noConfusion ChaseState.noConfusion, hpf, park_command _ s, hkept, hretarget, hdone,
        fun hl k => ?_⟩
      obtain ⟨hstays, hunready, hready⟩ := hstart hl k
      exact ⟨hstays, hunready, fun hdr => ⟨_, (hready hdr).1, rfl, rfl, rfl, rfl, rfl, (hready hdr).2⟩⟩
  · obtain ⟨htr, hchase⟩ := evaluated_coasts hd he hl hc
    have k := evaluated_not_fresh he (s := s) (by rw [hc]; exact Freshness.noConfusion)
    have hstate : (chaseBoundary s).chase.state = s.chase.coasted.state := by rw [hchase]
    have herror : (chaseBoundary s).chase.lastError = s.chase.lastError := by rw [hchase]; rfl
    obtain ⟨hnf, hnl⟩ := coasted_unlocked he
    refine ⟨htr, ?_, k.state, k.usable, ?_, k.target, k.error.trans herror⟩
    · rw [k.handed] at hchase
      exact hchase
    · rw [← Bool.not_eq_true, k.ready (hstate ▸ hnf), hstate]
      exact hnl
  · have hfollow := follow_live hr
    have c := followLive_leaves s
    have k := evaluated_leaves he (congrArg State.chase hfollow)
    have henabled : (chaseBoundary s).chase.state ≠ .free := k.state ▸ c.enabled he
    have htr : (chaseBoundary s).tr = s.tr := by rw [evaluated_tr he, hfollow, followLive_tr hr]
    have hrec : ∃ target usable, RecordPublished target usable (chaseBoundary s) := by
      by_cases hf : leadClass s = .fresh
      · exact ⟨_, _, evaluated_fresh he hf⟩
      · exact ⟨_, _, evaluated_not_fresh he hf⟩
    obtain ⟨_, _, r⟩ := hrec
    refine ⟨htr, k.lead.trans c.lead, k.offset.trans c.offset, r.handed, r.state, r.ready henabled, fun h => ?_,
      fun h => ?_, fun h => k.state.trans (c.coasting h), fun h => ?_⟩
    · have q := evaluated_fresh he h
      exact ⟨k.state.trans (c.fresh h).1, k.lastError.trans (c.fresh h).2, q.target, q.usable⟩
    · have q := evaluated_not_fresh he h
      exact ⟨q.usable, q.target⟩
    · exact ⟨k.state.trans (c.stale h).1, k.freewheel.trans (c.stale h).2⟩

end Sys2Proof.Machine

/-! O30. The SYNC law, the lock, a stale lead, and what the servo reads. -/

namespace Sys2Proof.Machine

set_option Elab.async false

/-! ### The lock -/

/-- The chase with its in-window count after an error (R123). -/
def Chase.counted (c : Chase) (e : Int) : Chase :=
  { c with inWindow := if e.natAbs ≤ 64 then min 10 (c.inWindow + 1) else 0 }

/-- The chase with its out-window count after an error (R124). -/
def Chase.strayed (c : Chase) (e : Int) : Chase :=
  { c with outWindow := if 128 < e.natAbs then c.outWindow + 1 else 0 }

theorem judgeLock_locked {e : Int} {s : State} (h : s.chase.state = .locked) :
    judgeLock e s = unlockIfUnsound (unlockIfOut (s.setChase (s.chase.strayed e))) := if_pos h

theorem judgeLock_unlocked {e : Int} {s : State} (h : s.chase.state ≠ .locked) :
    judgeLock e s = lockIfDue (s.setChase (s.chase.counted e)) := if_neg h

/-- The reference and the servo hold (R124). -/
def Sound (s : State) : Prop := s.time.refState = .present ∧ s.pins.servo = true

theorem unlockIfUnsound_sound {s : State} (h : Sound s) : unlockIfUnsound s = s :=
  if_neg fun k => k.2 ⟨h.2, h.1⟩

theorem unlockIfUnsound_unsound {s : State} (hl : s.chase.state = .locked) (h : ¬Sound s) :
    unlockIfUnsound s = unlock s := if_pos ⟨hl, fun k => h ⟨k.2, k.1⟩⟩

theorem unlockIfUnsound_unlocked {s : State} (h : s.chase.state ≠ .locked) : unlockIfUnsound s = s :=
  if_neg fun k => h k.1

theorem judgeLock_holds {e : Int} {s : State} (h : s.chase.state = .locked) (hc : (s.chase.strayed e).outWindow < 3)
    (hs : Sound s) : (judgeLock e s).chase = s.chase.strayed e := by
  rw [judgeLock_locked h, unlockIfOut_below (s := s.setChase (s.chase.strayed e)) hc,
    unlockIfUnsound_sound (s := s.setChase (s.chase.strayed e)) hs]
  rfl

theorem judgeLock_departs {e : Int} {s : State} (h : s.chase.state = .locked)
    (hc : 3 ≤ (s.chase.strayed e).outWindow ∨ ¬Sound s) :
    (judgeLock e s).chase = { s.chase with state := .sync, inWindow := 0, outWindow := 0 } := by
  rw [judgeLock_locked h]
  by_cases hout : 3 ≤ (s.chase.strayed e).outWindow
  · rw [unlockIfOut_due (s := s.setChase (s.chase.strayed e)) h hout]
    rw [unlockIfUnsound_unlocked (s := unlock (s.setChase (s.chase.strayed e))) ChaseState.noConfusion]
    rfl
  · rw [unlockIfOut_below (s := s.setChase (s.chase.strayed e)) (Nat.not_le.mp hout),
      unlockIfUnsound_unsound (s := s.setChase (s.chase.strayed e)) h (hc.resolve_left hout)]
    rfl

theorem judgeLock_locks {e : Int} {s : State} (h : s.chase.state = .sync) (hc : (s.chase.counted e).inWindow = 10)
    (hs : lockConditions s = true) : (judgeLock e s).chase = (s.chase.counted e).asLocked := by
  rw [judgeLock_unlocked (by rw [h]; exact ChaseState.noConfusion),
    lockIfDue_due (s := s.setChase (s.chase.counted e)) h hc hs]
  rfl

theorem judgeLock_waits {e : Int} {s : State} (h : s.chase.state = .sync)
    (hc : ¬((s.chase.counted e).inWindow = 10 ∧ lockConditions s = true)) :
    (judgeLock e s).chase = s.chase.counted e := by
  rw [judgeLock_unlocked (by rw [h]; exact ChaseState.noConfusion),
    lockIfDue_early (s := s.setChase (s.chase.counted e)) hc]
  rfl

/-! ### The SYNC law -/

/-- The station as the SYNC law leaves it to the judge of the lock (R122). -/
def synced (s : State) : State :=
  takeCommand
    (.speed (syncSpeed (leadEntry s).speed (chaseError s) (nextIntegral s.chase.integral (chaseError s))))
    (s.setChase (s.chase.underSync (chaseError s)))

theorem syncLaw_eq (s : State) : syncLaw (chaseError s) s = judgeLock (chaseError s) (synced s) := rfl

theorem synced_chase (s : State) : (synced s).chase = s.chase.underSync (chaseError s) := takeCommand_chase _ _

theorem synced_frame (s : State) : Frame evaluateParts s (synced s) :=
  (setChase_frame s _).trans (takeCommand_frame _ _)

theorem synced_sound (s : State) : Sound (synced s) ↔ Sound s := by
  rw [Sound, (synced_frame s).same .time, (synced_frame s).same .pins, Sound]

theorem synced_lock {s : State} (hf : leadClass s = .fresh) :
    lockConditions (synced s) = true
      ↔ Sound s ∧ (s.pos.published.quality = .ltc ∨ s.pos.published.quality = .tach) := by
  have hlead : leadClass (synced s) = .fresh := by
    refine (leadClass_congr ((synced_frame s).same .peers) ((synced_frame s).same .time) ?_).trans hf
    rw [synced_chase]
    rfl
  rw [lockConditions_iff, (synced_frame s).same .time, (synced_frame s).same .pins, (synced_frame s).same .pos, Sound,
    and_assoc]
  simp only [hlead, and_true]

theorem underSync_locked {c : Chase} {e : Int} (h : c.state = .locked) : (c.underSync e).state = .locked := if_pos h

theorem underSync_sync {c : Chase} {e : Int} (h : c.state ≠ .locked) : (c.underSync e).state = .sync := if_neg h

/-- The judge of the lock moves neither the integral nor the last error, and leaves SYNC or LOCKED (R123, R124). -/
theorem judgeLock_keeps {s : State} (e : Int) (h : s.chase.state = .locked ∨ s.chase.state = .sync) :
    (judgeLock e s).chase.integral = s.chase.integral ∧ (judgeLock e s).chase.lastError = s.chase.lastError
      ∧ (judgeLock e s).chase.state ≠ .free := by
  rcases h with h | h
  · by_cases hc : 3 ≤ (s.chase.strayed e).outWindow ∨ ¬Sound s
    · rw [judgeLock_departs h hc]
      exact ⟨rfl, rfl, ChaseState.noConfusion⟩
    · rw [not_or, not_not, Nat.not_le] at hc
      rw [judgeLock_holds h hc.1 hc.2]
      exact ⟨rfl, rfl, fun k => ChaseState.noConfusion (h.symm.trans k)⟩
  · by_cases hc : (s.chase.counted e).inWindow = 10 ∧ lockConditions s = true
    · rw [judgeLock_locks h hc.1 hc.2]
      exact ⟨rfl, rfl, ChaseState.noConfusion⟩
    · rw [judgeLock_waits h hc]
      exact ⟨rfl, rfl, fun k => ChaseState.noConfusion (h.symm.trans k)⟩

theorem syncSpeed_near {v e a : Int} (h1 : -12832 ≤ v) (h2 : v ≤ 12832) :
    v - 32 ≤ syncSpeed v e a ∧ syncSpeed v e a ≤ v + 32
      ∧ (v - 32 ≤ v + e / 8 + a / 64 → v + e / 8 + a / 64 ≤ v + 32 → -12800 ≤ v + e / 8 + a / 64 →
        v + e / 8 + a / 64 ≤ 12800 → syncSpeed v e a = v + e / 8 + a / 64) := by
  unfold syncSpeed clampInt
  generalize v + e / 8 + a / 64 = x
  omega

theorem underSync_state (c : Chase) (e : Int) : (c.underSync e).state = .locked ∨ (c.underSync e).state = .sync := by
  by_cases h : c.state = .locked
  · exact .inl (underSync_locked h)
  · exact .inr (underSync_sync h)

theorem follow_syncs {s : State} (hd : isDeck s = true) (hf : leadClass s = .fresh)
    (hq : s.pos.published.quality ≠ .none) (hp : leadParked s = false) (he : (chaseError s).natAbs ≤ 65536)
    (h1 : -12832 ≤ (leadEntry s).speed) (h2 : (leadEntry s).speed ≤ 12832) :
    follow s = judgeLock (chaseError s) (synced s) := by
  have hs : seekDue (leadEntry s).speed (chaseError s) = false := by
    rw [← Bool.not_eq_true, seekDue_iff]
    omega
  rw [follow_fresh hd hf, followFresh_sync hq hp hs, syncLaw_eq]

/-- What the SYNC law leaves of the chase, by the lock that the evaluation finds (R122 to R124). -/
structure SyncLeaves (s : State) (c : Chase) : Prop where
  integral : c.integral = nextIntegral s.chase.integral (chaseError s)
  error : c.lastError = chaseError s
  enabled : c.state ≠ .free
  locks : s.chase.state ≠ .locked → (s.chase.counted (chaseError s)).inWindow = 10 →
    Sound s ∧ (s.pos.published.quality = .ltc ∨ s.pos.published.quality = .tach) →
      c = ((s.chase.underSync (chaseError s)).counted (chaseError s)).asLocked
  waits : s.chase.state ≠ .locked →
    ¬((s.chase.counted (chaseError s)).inWindow = 10
        ∧ Sound s ∧ (s.pos.published.quality = .ltc ∨ s.pos.published.quality = .tach)) →
      c = (s.chase.underSync (chaseError s)).counted (chaseError s)
  holds : s.chase.state = .locked → (s.chase.strayed (chaseError s)).outWindow < 3 → Sound s →
    c = (s.chase.underSync (chaseError s)).strayed (chaseError s)
  departs : s.chase.state = .locked → (3 ≤ (s.chase.strayed (chaseError s)).outWindow ∨ ¬Sound s) →
    c = { s.chase.underSync (chaseError s) with state := .sync, inWindow := 0, outWindow := 0 }

theorem synced_leaves {s : State} (hf : leadClass s = .fresh) :
    SyncLeaves s (judgeLock (chaseError s) (synced s)).chase := by
  have hc := synced_chase s
  have keeps := judgeLock_keeps (s := synced s) (chaseError s) (by rw [hc]; exact underSync_state _ _)
  refine ⟨keeps.1.trans (by rw [hc]; rfl), keeps.2.1.trans (by rw [hc]; rfl), keeps.2.2, fun hl hw hs => ?_,
    fun hl hw => ?_, fun hl hb hs => ?_, fun hl hb => ?_⟩
  · rw [judgeLock_locks (by rw [hc]; exact underSync_sync hl) (by rw [hc]; exact hw) ((synced_lock hf).mpr hs), hc]
  · rw [judgeLock_waits (by rw [hc]; exact underSync_sync hl) (by rw [hc, synced_lock hf]; exact hw), hc]
  · rw [judgeLock_holds (by rw [hc]; exact underSync_locked hl) (by rw [hc]; exact hb) ((synced_sound s).mpr hs), hc]
  · rw [judgeLock_departs (by rw [hc]; exact underSync_locked hl) (by rw [hc, synced_sound]; exact hb), hc]

end Sys2Proof.Machine

/-! SUPPORT for O11, O12, O14, O22, O30. A boundary at which no timed cue waits: the Cue Engine only runs the record; and
the runs of two orders of takers compared. -/

namespace Sys2Proof.Machine

set_option Elab.async false

/-! ### Two runs compared -/

/-- A run over an order is alike to the run over those of its takers that move anything. -/
theorem runTakers_movers {R : State → State → Prop} {I : State → Prop} {moves : Taker → Bool} {order : List Taker}
    (keeps : ∀ x ∈ order, ∀ b, I b → I (takeBoundary x b))
    (move : ∀ x ∈ order, moves x = true → ∀ a b, I b → R a b → R (takeBoundary x a) (takeBoundary x b))
    (stay : ∀ x ∈ order, moves x = false → ∀ a b, I b → R a b → R a (takeBoundary x b))
    {a b : State} (hI : I b) (h : R a b) : R (runTakers (order.filter moves) a) (runTakers order b) := by
  induction order generalizing a b with
  | nil => exact h
  | cons x xs ih =>
    have rest := @ih (fun y hy => keeps y (List.mem_cons_of_mem x hy)) (fun y hy => move y (List.mem_cons_of_mem x hy))
      (fun y hy => stay y (List.mem_cons_of_mem x hy))
    have hx : x ∈ x :: xs := List.mem_cons_self
    cases hm : moves x
    · rw [List.filter_cons_of_neg (by rw [hm]; exact Bool.false_ne_true)]
      exact rest (keeps x hx b hI) (stay x hx hm a b hI h)
    · rw [List.filter_cons_of_pos hm]
      exact rest (keeps x hx b hI) (move x hx hm a b hI h)

/-- An invariant of every taker of an order, after its run. -/
theorem runTakers_holds {I : State → Prop} {order : List Taker} (keeps : ∀ x ∈ order, ∀ b, I b → I (takeBoundary x b))
    {b : State} (hI : I b) : I (runTakers order b) := by
  induction order generalizing b with
  | nil => exact hI
  | cons x xs ih => exact ih (fun y hy => keeps y (List.mem_cons_of_mem x hy)) (keeps x List.mem_cons_self b hI)

/-! ### What an evaluation is made of -/

/-- A relation kept by a change of the chase, a command and a locate is kept by an evaluation. -/
theorem chaseBoundary_induct {R : State → State → Prop} (refl : ∀ u, R u u) (trans : ∀ {u v w}, R u v → R v w → R u w)
    (chase : ∀ u x, R u (u.setChase x)) (command : ∀ c u, R u (takeCommand c u))
    (locate : ∀ skips target u, R u (giveLocate skips target u)) (s : State) : R s (chaseBoundary s) := by
  have ofFrame {u v : State} (h : Frame [.chase] u v) : R u v := by
    rw [Frame.eq (.onto_chase h)]
    exact chase u _
  have stop (u : State) : R u (freewheelStop u) := by
    unfold freewheelStop
    split
    · exact command _ u
    · exact refl u
  have count (u : State) : R u (countFreewheel u) := by
    unfold countFreewheel
    split
    · exact trans (chase u _) (stop _)
    · exact refl u
  have stale (u : State) : R u (followStale u) := by
    unfold followStale
    split
    · exact count u
    · exact chase u _
  have fresh (u : State) : R u (followFresh u) := by
    unfold followFresh
    dsimp only
    split
    · exact trans (chase u _) (command _ _)
    split
    · cases h : parkSettled (parkTarget u) u
      · rw [park_due h]
        exact trans (chase u _) (locate _ _ _)
      · rw [park_settled h]
        exact chase u _
    split
    · exact trans (chase u _) (command _ _)
    · exact trans (trans (chase u _) (command _ _)) (ofFrame (judgeLock_frame _ _))
  have coasting (u : State) : R u (followCoasting u) := by
    unfold followCoasting
    split
    · exact count u
    · exact chase u _
  have live (u : State) : R u (followLive u) := by
    unfold followLive
    split
    · exact chase u _
    · exact chase u _
    · exact stale u
  have followed (u : State) : R u (follow u) := by
    unfold follow
    split
    · split
      · exact fresh u
      · exact coasting u
      · exact stale u
    · exact live u
  unfold chaseBoundary
  dsimp only
  split
  · exact chase s _
  · exact trans (followed s) (chase _ _)

/-! ### No cue comes to wait -/

/-- A cue that waits stays as it is; another keeps its tag and does not come to wait. -/
structure GoesOn (c d : Cue) : Prop where
  tag : d.tag = c.tag
  waits : c.state = .waiting → d = c
  past : c.state ≠ .waiting → d.state ≠ .waiting

theorem GoesOn.refl (c : Cue) : GoesOn c c := ⟨rfl, fun _ => rfl, id⟩

theorem GoesOn.trans {c d e : Cue} (h : GoesOn c d) (k : GoesOn d e) : GoesOn c e := by
  refine ⟨k.tag.trans h.tag, fun hw => ?_, fun hn => k.past (h.past hn)⟩
  have hd := h.waits hw
  rw [k.waits (hd ▸ hw), hd]

/-- The cues of s go on in t. -/
def WaitingFrom (s t : State) : Prop := MapsCues GoesOn s t

theorem WaitingFrom.refl (s : State) : WaitingFrom s s := mapsCues_of_eq GoesOn.refl rfl

theorem WaitingFrom.trans {s t u : State} (h : WaitingFrom s t) (k : WaitingFrom t u) : WaitingFrom s u :=
  MapsCues.trans (R := GoesOn) (fun _ _ _ => GoesOn.trans) h k

theorem Frame.waiting {w : List Part} {s t : State} (f : Frame w s t) (hw : Part.cues ∉ w := by simp) :
    WaitingFrom s t := mapsCues_of_eq GoesOn.refl (f.same .cues hw)

theorem updateCues_waiting {pick : Cue → Bool} {f : Cue → Cue} (ha : ∀ c, pick c = true → c.state = .active)
    (ht : ∀ c, (f c).tag = c.tag) (h : ∀ c, c.state = .active → (f c).state ≠ .waiting) (s : State) :
    WaitingFrom s (updateCues pick f s) :=
  updateCues_maps GoesOn.refl fun c _ hc =>
    ⟨ht c, fun hw => CueState.noConfusion (hw.symm.trans (ha c hc)), fun _ => h c (ha c hc)⟩

theorem WaitingFrom.untimed {s t : State} (h : WaitingFrom s t) (k : NoTimedCue s) : NoTimedCue t := by
  obtain ⟨f, hf, hr⟩ := h
  intro d hd hw
  rw [hf] at hd
  obtain ⟨c, hc, rfl⟩ := List.mem_map.mp hd
  have hcw : c.state = .waiting := by
    by_contra hn
    exact (hr c hc).past hn hw
  rw [(hr c hc).waits hcw]
  exact k c hc hcw

theorem active_ne_waiting {c : Cue} (h : c.state = .active) : c.state ≠ .waiting := by
  rw [h]
  exact CueState.noConfusion

theorem recording_active {c : Cue} (h : c.recording = true) : c.state = .active := by
  simp only [Cue.recording, Bool.and_eq_true, decide_eq_true_eq] at h
  exact h.1

/-- A change of the record that leaves its state. -/
theorem updateRecording_waiting {f : Cue → Cue} (ht : ∀ c, (f c).tag = c.tag) (h : ∀ c, (f c).state = c.state)
    (s : State) : WaitingFrom s (updateCues Cue.recording f s) :=
  updateCues_waiting (fun _ => recording_active) ht (fun c k => by rw [h]; exact active_ne_waiting k) s

/-- Cues that finish. -/
theorem finishAs_waiting {pick : Cue → Bool} (ha : ∀ c, pick c = true → c.state = .active) {state : CueState}
    (h : state ≠ .waiting) (fc : Word16) (s : State) :
    WaitingFrom s (updateCues pick (fun c => c.finishAs state fc) s) :=
  updateCues_waiting ha (fun _ => by exact rfl) (fun _ _ => by exact h) s

theorem abortActiveRecord_waiting (s : State) : WaitingFrom s (abortActiveRecord s) := by
  unfold abortActiveRecord
  split
  · exact (finishAs_waiting (fun _ => recording_active) CueState.noConfusion _ s).trans
      (setFlag_frame _ _).waiting
  · exact .refl s

theorem endActiveRecord_waiting (s : State) : WaitingFrom s (endActiveRecord s) :=
  finishAs_waiting (fun _ => recording_active) CueState.noConfusion _ s

theorem breakRecord_waiting (s : State) : WaitingFrom s (breakRecord s) := by
  unfold breakRecord
  split
  · exact (setPunch_frame s none).waiting.trans (abortActiveRecord_waiting _)
  · exact .refl s

theorem takeCommand_waiting (c : Command) (s : State) : WaitingFrom s (takeCommand c s) := by
  cases h : deckReady s
  · rw [takeCommand_of_not_ready h]
    exact .refl s
  · rw [takeCommand_ready h]
    exact (setTr_frame s _).waiting.trans (breakRecord_waiting _)

theorem giveLocate_waiting (skips : Option Word16) (target : Nat) (s : State) :
    WaitingFrom s (giveLocate skips target s) := by
  cases h : deckReady s
  · rw [giveLocate_of_not_ready h]
    exact .refl s
  · cases hl : s.tr.locate with
    | none =>
      rw [giveLocate_start h hl]
      exact (setTr_frame s _).waiting.trans (breakRecord_waiting _)
    | some l =>
      rw [giveLocate_retarget h hl]
      exact (setTr_frame s _).waiting

theorem chaseBoundary_waiting (s : State) : WaitingFrom s (chaseBoundary s) :=
  chaseBoundary_induct WaitingFrom.refl WaitingFrom.trans (fun u _ => (setChase_frame u _).waiting) takeCommand_waiting
    giveLocate_waiting s

theorem recordLengthEnd_waiting (s : State) : WaitingFrom s (recordLengthEnd s) := by
  unfold recordLengthEnd
  split
  · split
    · exact (endActiveRecord_waiting s).trans (setPunch_frame _ none).waiting
    · exact .refl s
  · exact .refl s

theorem notReadyLimit_waiting (s : State) : WaitingFrom s (notReadyLimit s) := by
  unfold notReadyLimit
  split
  · split
    · split
      · exact (abortActiveRecord_waiting s).trans (setPunch_frame _ none).waiting
      · exact (updateRecording_waiting (fun _ => by exact rfl) (fun _ => by exact rfl) s).trans
          (setFlag_frame _ _).waiting
    · exact .refl s
  · exact .refl s

theorem runRecord_waiting (ok : Bool) (s : State) : WaitingFrom s (runRecord ok s) := by
  have counted : WaitingFrom s (updateCues Cue.recording (fun c => { c with remaining := c.remaining - 1 }) s) :=
    updateRecording_waiting (fun _ => by exact rfl) (fun _ => by exact rfl) s
  have judged (u : State) : WaitingFrom u (judgeRecord ok u) := by
    unfold judgeRecord
    split
    · exact (updateRecording_waiting (fun _ => by exact rfl) (fun _ => by exact rfl) u).trans (notReadyLimit_waiting _)
    · exact .refl u
  exact (counted.trans (recordLengthEnd_waiting _)).trans (judged _)

theorem reportComplete_waiting (tag : Byte) (s : State) : WaitingFrom s (reportComplete tag s) := by
  unfold reportComplete
  split
  · exact .refl s
  · exact finishAs_waiting (fun _ => transiting_active) CueState.noConfusion _ s

theorem completeContext_waiting (s : State) : WaitingFrom s (completeContext s) := by
  unfold completeContext
  split
  · exact .refl s
  · exact (setFader_frame s _).waiting.trans (reportComplete_waiting _ _)

theorem completeIfDue_waiting (s : State) : WaitingFrom s (completeIfDue s) := by
  unfold completeIfDue
  split
  · exact .refl s
  · split
    · exact completeContext_waiting s
    · exact .refl s

theorem failPartner_waiting (k : Context) (s : State) : WaitingFrom s (failPartner k s) := by
  have marked : WaitingFrom s
      (updateCues (Cue.transiting k.tag) (fun q => { q with unpaired := true })
        (setFlag .unpaired (s.setFader { s.fader with context := some { k with pair := .unpaired } }))) :=
    ((setFader_frame s _).trans (setFlag_frame _ _)).waiting.trans
      (updateCues_waiting (fun _ => transiting_active) (fun _ => by exact rfl) (fun _ k => by exact active_ne_waiting k) _)
  unfold failPartner
  dsimp only
  split
  · exact marked.trans (completeContext_waiting _)
  · exact marked

theorem advanceContext_waiting (s : State) : WaitingFrom s (advanceContext s) := by
  have checked (u : State) : WaitingFrom u (partnerCheck u) := by
    unfold partnerCheck
    split
    · exact .refl u
    · split
      · split
        · exact (setFader_frame u _).waiting
        · exact failPartner_waiting _ u
      · exact .refl u
  unfold advanceContext
  split
  · exact .refl s
  · split
    · exact .refl s
    · exact (setFader_frame s _).waiting.trans (checked _)

theorem faderBoundary_waiting (s : State) : WaitingFrom s (faderBoundary s) :=
  (((advanceContext_waiting s).trans (formValues_frame _).waiting).trans (completeIfDue_waiting _)).trans
    ((setMix_frame _ _).trans (sendMix_frame _)).waiting

/-! ### The Cue Engine where no cue fires -/

/-- An untimed cue is due at no sample (R141). -/
theorem timedDue_untimed {x : Standard} {e : CueEngine} {a b : Option Nat} {c : Cue} (h : c.frame? = none) :
    timedDue x e a b c = false := by
  unfold Cue.frame? at h
  unfold timedDue
  split <;> simp_all

theorem fireIfDue_rests {ok : Bool} {due : Cue → Bool} {s : State}
    (h : ∀ q ∈ s.cues.list, q.state = .waiting → due q = false) (c : Cue) : fireIfDue ok due s c = s := by
  unfold fireIfDue
  split
  · next q hq =>
    have hmem : q ∈ s.cues.list := List.mem_of_find?_eq_some hq
    refine if_neg fun k => ?_
    rw [Bool.and_eq_true, decide_eq_true_eq] at k
    rw [h q hmem k.1] at k
    exact Bool.false_ne_true k.2
  · rfl

theorem fireTimed_rests {ok : Bool} {due : Cue → Bool} {s : State}
    (h : ∀ q ∈ s.cues.list, q.state = .waiting → due q = false) : fireTimed ok due s = s := by
  have all (cs : List Cue) : cs.foldl (fireIfDue ok due) s = s := by
    induction cs with
    | nil => rfl
    | cons c cs ih => rw [List.foldl_cons, fireIfDue_rests h, ih]
  exact all _

/-- The Cue Engine's run of the record that is ACTIVE (R147, R148). -/
def recordRun (s : State) : State := if (activeRecord s).isSome then runRecord s.chase.handed.ready s else s

theorem recordRun_some {c : Cue} {s : State} (h : activeRecord s = some c) :
    recordRun s = runRecord s.chase.handed.ready s := if_pos (by rw [h]; rfl)

theorem recordRun_none {s : State} (h : activeRecord s = none) : recordRun s = s :=
  if_neg (by rw [h]; exact Bool.false_ne_true)

theorem runEarlier_same (ok : Bool) (s : State) :
    runEarlier ok (activeRecord s) s = if (activeRecord s).isSome then runRecord ok s else s := by
  unfold runEarlier
  cases h : activeRecord s with
  | none => rfl
  | some c => exact if_pos rfl

theorem cueBoundary_untimed {s : State} (h : NoTimedCue s) :
    cueBoundary s
      = (recordRun s).setCues
          { (recordRun s).cues with ownSample := ownSampleNow s, leadSample := leadSampleNow s } := by
  have e : fireTimed s.chase.handed.ready (timedDue (std s) s.cues (ownSampleNow s) (leadSampleNow s)) s = s :=
    fireTimed_rests fun q hq hw => timedDue_untimed (h q hq hw)
  unfold cueBoundary
  dsimp only
  rw [e, runEarlier_same]
  rfl

theorem recordRun_waiting (s : State) : WaitingFrom s (recordRun s) := by
  unfold recordRun
  split
  · exact runRecord_waiting _ s
  · exact .refl s

theorem cueBoundary_waiting {s : State} (h : NoTimedCue s) : WaitingFrom s (cueBoundary s) := by
  rw [cueBoundary_untimed h]
  exact recordRun_waiting s

/-- No taker makes a timed cue wait (R134, R141). -/
theorem takeBoundary_untimed (x : Taker) {s : State} (h : NoTimedCue s) : NoTimedCue (takeBoundary x s) := by
  have quiet (hx : Part.cues ∉ takerParts x) : NoTimedCue (takeBoundary x s) :=
    ((takeBoundary_frame x s).waiting hx).untimed h
  cases x
  case evaluate => exact (chaseBoundary_waiting s).untimed h
  case cues => exact (cueBoundary_waiting h).untimed h
  case fader => exact (faderBoundary_waiting s).untimed h
  all_goals exact quiet (by simp [takerParts])

theorem boundaryStart_untimed {c : Instr} {s : State} (h : NoTimedCue s) (t : State) :
    NoTimedCue (boundaryStart c s t) := (boundaryStart_frame c s t).waiting.untimed h

end Sys2Proof.Machine

/-! SUPPORT for O12, O14, O22, O30. Two states alike to the servo and the locate: an evaluation and a locate's record keep
them alike, and every other taker leaves its state alike to what it found, where no timed cue waits. -/

namespace Sys2Proof.Machine

set_option Elab.async false

/-! ### Peers -/

/-- An entry is the same in both states, or stale in both (R62). -/
def PeersAlike (s t : State) : Prop :=
  ∀ st : Station, t.peers[st] = s.peers[st]
    ∨ (freshness (entry s st) s = .stale ∧ freshness (entry t st) t = .stale)

theorem freshness_time {e : PeerEntry} {s t : State} (h : t.time = s.time) : freshness e t = freshness e s := by
  unfold freshness ageOf
  rw [h]

theorem PeersAlike.of_eq {s t : State} (h : t.peers = s.peers) : PeersAlike s t := fun st => .inl (by rw [h])

theorem PeersAlike.trans {s t u : State} (h : PeersAlike s t) (k : PeersAlike t u) (ht : t.time = s.time)
    (hu : u.time = t.time) : PeersAlike s u := by
  intro st
  obtain h | ⟨h1, h2⟩ := h st
  · obtain k | ⟨k1, k2⟩ := k st
    · exact .inl (k.trans h)
    · refine .inr ⟨?_, k2⟩
      rw [← freshness_time (e := entry s st) ht, ← show entry t st = entry s st from h]
      exact k1
  · obtain k | ⟨k1, k2⟩ := k st
    · refine .inr ⟨h1, ?_⟩
      rw [show entry u st = entry t st from k, freshness_time hu]
      exact h2
    · exact .inr ⟨h1, k2⟩

theorem PeersAlike.symm {s t : State} (h : PeersAlike s t) : PeersAlike t s :=
  fun st => (h st).imp Eq.symm And.symm

theorem PeersAlike.freshness {s t : State} (h : PeersAlike s t) (ht : t.time = s.time) (st : Station) :
    Machine.freshness (entry t st) t = Machine.freshness (entry s st) s := by
  obtain h | ⟨h1, h2⟩ := h st
  · rw [show entry t st = entry s st from h, freshness_time ht]
  · rw [h1, h2]

theorem PeersAlike.entry {s t : State} (h : PeersAlike s t) {st : Station}
    (hf : Machine.freshness (entry s st) s ≠ .stale) : Machine.entry t st = Machine.entry s st :=
  (h st).resolve_right fun k => hf k.1

/-- An entry silent for 250 boundaries was stale before it is cleared (R61, R62). -/
theorem silenced_stale {e : PeerEntry} {s : State} (h : e.silenced s.time.fieldCount ≠ e) :
    freshness e s = .stale ∧ freshness (e.silenced s.time.fieldCount) s = .stale := by
  unfold PeerEntry.silenced at h ⊢
  split at h
  · next k =>
    rw [if_pos k]
    exact ⟨freshness_stale.mpr (.inr (by have := k.2; unfold ageOf; omega)), freshness_stale.mpr (.inl rfl)⟩
  · exact absurd rfl h

theorem peersBoundary_entry (s : State) (st : Station) :
    (peersBoundary s).peers[st] = (s.peers[st]).silenced s.time.fieldCount := by
  show (s.peers.map (PeerEntry.silenced s.time.fieldCount))[st] = _
  exact Vector.getElem_map _ _

theorem peersBoundary_alike (s : State) : PeersAlike s (peersBoundary s) := by
  intro st
  rw [peersBoundary_entry]
  by_cases h : (s.peers[st]).silenced s.time.fieldCount = s.peers[st]
  · exact .inl h
  · refine .inr ?_
    rw [show entry (peersBoundary s) st = _ from peersBoundary_entry s st]
    exact silenced_stale h

/-! ### Alike -/

/-- Two states that the servo and the locate cannot tell apart. -/
structure Alike (s t : State) : Prop where
  power : t.power = s.power
  straps : t.straps = s.straps
  pins : t.pins = s.pins
  time : t.time = s.time
  command : t.tr.command = s.tr.command
  locate : t.tr.locate = s.tr.locate
  mark : t.tr.parkedMark = s.tr.parkedMark
  chase : t.chase = s.chase
  published : t.pos.published = s.pos.published
  quality : deckReady s = true → t.pos.record.quality = s.pos.record.quality
  peers : PeersAlike s t
  failed : hasFlag t .locateFail = hasFlag s .locateFail

theorem Alike.refl (s : State) : Alike s s :=
  ⟨rfl, rfl, rfl, rfl, rfl, rfl, rfl, rfl, rfl, fun _ => rfl, .of_eq rfl, rfl⟩

theorem Alike.ready {s t : State} (h : Alike s t) : deckReady t = deckReady s := deckReady_congr h.straps h.pins

theorem Alike.trans {s t u : State} (h : Alike s t) (k : Alike t u) : Alike s u where
  power := k.power.trans h.power
  straps := k.straps.trans h.straps
  pins := k.pins.trans h.pins
  time := k.time.trans h.time
  command := k.command.trans h.command
  locate := k.locate.trans h.locate
  mark := k.mark.trans h.mark
  chase := k.chase.trans h.chase
  published := k.published.trans h.published
  quality := fun hd => (k.quality (h.ready.trans hd)).trans (h.quality hd)
  peers := h.peers.trans k.peers h.time k.time
  failed := k.failed.trans h.failed

theorem Alike.symm {s t : State} (h : Alike s t) : Alike t s where
  power := h.power.symm
  straps := h.straps.symm
  pins := h.pins.symm
  time := h.time.symm
  command := h.command.symm
  locate := h.locate.symm
  mark := h.mark.symm
  chase := h.chase.symm
  published := h.published.symm
  quality := fun hd => (h.quality (h.ready.symm.trans hd)).symm
  peers := h.peers.symm
  failed := h.failed.symm

/-- A change of other parts, and of other flags. -/
theorem Frame.alike {w : List Part} {s t : State} (f : Frame w s t)
    (hf : hasFlag t .locateFail = hasFlag s .locateFail)
    (hw : (Part.power ∉ w ∧ Part.straps ∉ w ∧ Part.pins ∉ w ∧ Part.time ∉ w)
      ∧ Part.transport ∉ w ∧ Part.chase ∉ w ∧ Part.pos ∉ w ∧ Part.peers ∉ w := by simp) : Alike s t := by
  obtain ⟨⟨hp, hs, hn, ht⟩, htr, hc, hpos, hpe⟩ := hw
  have e : t.tr = { s.tr with punch := t.tr.punch } := f.same .transport htr
  have q : t.pos = s.pos := f.same .pos hpos
  exact ⟨f.same .power hp, f.same .straps hs, f.same .pins hn, f.same .time ht, by rw [e], by rw [e], by rw [e],
    f.same .chase hc, by rw [q], fun _ => by rw [q], .of_eq (f.same .peers hpe), hf⟩

section
variable {s t : State} (h : Alike s t)
include h

theorem Alike.isDeck : isDeck t = isDeck s := isDeck_congr h.straps

theorem Alike.role : role t = role s := role_congr h.straps

theorem Alike.std : Machine.std t = Machine.std s := congrArg standardOf h.straps

theorem Alike.state : transportState t = transportState s := by
  unfold transportState
  rw [h.role, h.pins, h.locate, h.mark, h.command]

theorem Alike.drive : Machine.drive t = Machine.drive s := by
  unfold Machine.drive wantedDrive
  rw [h.power, h.role, h.pins, h.locate, h.command]

theorem Alike.ownReady : Machine.ownReady t = Machine.ownReady s := by
  unfold Machine.ownReady
  rw [h.chase, h.time, h.role, h.state, h.pins]

theorem Alike.fresh : freshness (leadEntry t) t = freshness (leadEntry s) s := by
  unfold leadEntry
  rw [h.chase]
  exact h.peers.freshness h.time _

theorem Alike.lead (hf : freshness (leadEntry s) s ≠ .stale) : leadEntry t = leadEntry s := by
  unfold leadEntry at hf ⊢
  rw [h.chase]
  exact h.peers.entry hf

theorem Alike.leadClass : Machine.leadClass t = Machine.leadClass s := by
  unfold Machine.leadClass
  rw [h.fresh]
  by_cases hf : freshness (leadEntry s) s = .stale
  · rw [hf]
  · rw [h.lead hf]

theorem Alike.leadEntry (hf : Machine.leadClass s = .fresh) : Machine.leadEntry t = Machine.leadEntry s := by
  refine h.lead fun k => ?_
  rw [Machine.leadClass, k] at hf
  cases hf

theorem Alike.target (hf : Machine.leadClass s = .fresh) : chaseTarget t = chaseTarget s := by
  unfold chaseTarget extrapolated ageOf
  rw [h.leadEntry hf, h.std, h.time, h.chase]

theorem Alike.error (hf : Machine.leadClass s = .fresh) : chaseError t = chaseError s := by
  unfold chaseError
  rw [h.target hf, h.std, h.published]

theorem Alike.targetNow : Machine.targetNow t = Machine.targetNow s := by
  unfold Machine.targetNow
  rw [h.leadClass]
  split
  · next k => rw [h.target k]
  · rfl

theorem Alike.lockConditions : Machine.lockConditions t = Machine.lockConditions s := by
  unfold Machine.lockConditions
  rw [h.time, h.pins, h.published, h.leadClass]

end

/-! ### Changes made alike -/

theorem Alike.setChase {s t : State} (h : Alike s t) (x : Chase) : Alike (s.setChase x) (t.setChase x) :=
  ⟨h.power, h.straps, h.pins, h.time, h.command, h.locate, h.mark, rfl, h.published, h.quality, h.peers, h.failed⟩

theorem breakRecord_alike (s : State) : Alike s (breakRecord s) :=
  (breakRecord_frame s).alike (breakRecord_flag s (by decide))

theorem Alike.commanded {s t : State} (h : Alike s t) (c : Command) : Alike (commanded c s) (commanded c t) where
  power := h.power
  straps := h.straps
  pins := h.pins
  time := h.time
  command := rfl
  locate := rfl
  mark := by
    show markAfter t.tr.parkedMark c = markAfter s.tr.parkedMark c
    rw [h.mark]
  chase := h.chase
  published := h.published
  quality := h.quality
  peers := h.peers
  failed := h.failed

theorem Alike.takeCommand {s t : State} (h : Alike s t) (c : Command) :
    Alike (takeCommand c s) (takeCommand c t) := by
  cases hd : deckReady s
  · rw [takeCommand_of_not_ready hd, takeCommand_of_not_ready (h.ready.trans hd)]
    exact h
  · rw [takeCommand_ready hd, takeCommand_ready (h.ready.trans hd)]
    exact ((breakRecord_alike _).symm.trans (h.commanded c)).trans (breakRecord_alike _)

theorem Alike.withLocate {s t : State} (h : Alike s t) (x : Option Locate) :
    Alike (s.setTr { s.tr with locate := x }) (t.setTr { t.tr with locate := x }) :=
  ⟨h.power, h.straps, h.pins, h.time, h.command, rfl, h.mark, h.chase, h.published, h.quality, h.peers, h.failed⟩

theorem Alike.located {s t : State} (h : Alike s t) (hd : deckReady s = true) (skips : Option Word16) (target : Nat) :
    Alike (located skips target s) (located skips target t) where
  power := h.power
  straps := h.straps
  pins := h.pins
  time := h.time
  command := h.command
  locate := by
    show some (Locate.start skips target t.pos.record.quality t.tr.command) = some (Locate.start _ _ _ _)
    rw [h.quality hd, h.command]
  mark := rfl
  chase := h.chase
  published := h.published
  quality := h.quality
  peers := h.peers
  failed := h.failed

theorem Alike.giveLocate {s t : State} (h : Alike s t) (skips : Option Word16) (target : Nat) :
    Alike (giveLocate skips target s) (giveLocate skips target t) := by
  cases hd : deckReady s
  · rw [giveLocate_of_not_ready hd, giveLocate_of_not_ready (h.ready.trans hd)]
    exact h
  · have hd' := h.ready.trans hd
    cases hl : s.tr.locate with
    | some l =>
      rw [giveLocate_retarget hd hl, giveLocate_retarget hd' (h.locate.trans hl)]
      exact h.withLocate _
    | none =>
      rw [giveLocate_start hd hl, giveLocate_start hd' (h.locate.trans hl)]
      exact ((breakRecord_alike _).symm.trans (h.located hd skips target)).trans (breakRecord_alike _)

/-! ### An evaluation -/

/-- A relation finer than being alike that the servo's own changes keep. -/
structure ServoCongruence (R : State → State → Prop) : Prop where
  alike : ∀ {s t}, R s t → Alike s t
  chase : ∀ {s t}, R s t → ∀ x, R (s.setChase x) (t.setChase x)
  command : ∀ {s t}, R s t → ∀ c, R (takeCommand c s) (takeCommand c t)
  locate : ∀ {s t}, R s t → ∀ skips target, R (giveLocate skips target s) (giveLocate skips target t)

theorem alike_congruence : ServoCongruence Alike := ⟨id, Alike.setChase, Alike.takeCommand, Alike.giveLocate⟩

theorem Alike.followRecord {s t : State} (h : Alike s t) (x : Option Nat) : followRecord x t = followRecord x s := by
  unfold Machine.followRecord
  rw [h.chase, h.published, h.ownReady]

section
variable {R : State → State → Prop} (K : ServoCongruence R) {s t : State}
include K

theorem ServoCongruence.lockIfDue (r : R s t) : R (lockIfDue s) (lockIfDue t) := by
  have h := K.alike r
  unfold Machine.lockIfDue
  rw [h.chase, h.lockConditions]
  split
  · exact K.chase r _
  · exact r

theorem ServoCongruence.unlockIfOut (r : R s t) : R (unlockIfOut s) (unlockIfOut t) := by
  have h := K.alike r
  unfold Machine.unlockIfOut unlock
  rw [h.chase]
  split
  · exact K.chase r _
  · exact r

theorem ServoCongruence.unlockIfUnsound (r : R s t) : R (unlockIfUnsound s) (unlockIfUnsound t) := by
  have h := K.alike r
  unfold Machine.unlockIfUnsound unlock
  rw [h.chase, h.pins, h.time]
  split
  · exact K.chase r _
  · exact r

theorem ServoCongruence.judgeLock (r : R s t) (e : Int) : R (judgeLock e s) (judgeLock e t) := by
  have h := K.alike r
  unfold Machine.judgeLock
  rw [h.chase]
  split
  · exact K.unlockIfUnsound (K.unlockIfOut (K.chase r _))
  · exact K.lockIfDue (K.chase r _)

theorem ServoCongruence.park (r : R s t) (hf : Machine.leadClass s = .fresh) (e : Int) :
    R (park e s) (park e t) := by
  have h := K.alike r
  have htarget : parkTarget t = parkTarget s := by unfold parkTarget; rw [h.target hf]
  have hsettled : parkSettled (parkTarget t) t = parkSettled (parkTarget s) s := by
    unfold parkSettled
    rw [htarget, h.locate, h.chase]
  have hstays : parkStays t = parkStays s := by
    unfold parkStays
    rw [hsettled, h.locate]
  cases k : parkSettled (parkTarget s) s
  · rw [park_due k, park_due (hsettled.trans k), htarget, hstays, h.chase]
    exact K.locate (K.chase r _) none _
  · rw [park_settled k, park_settled (hsettled.trans k), htarget, hstays, h.chase]
    exact K.chase r _

theorem ServoCongruence.synced (r : R s t) (hf : Machine.leadClass s = .fresh) :
    R (synced s) (synced t) := by
  have h := K.alike r
  unfold Machine.synced
  rw [h.leadEntry hf, h.error hf, h.chase]
  exact K.command (K.chase r _) _

theorem ServoCongruence.followFresh (r : R s t) (hf : Machine.leadClass s = .fresh) :
    R (followFresh s) (followFresh t) := by
  have h := K.alike r
  have hparked : leadParked t = leadParked s := by unfold leadParked; rw [h.leadEntry hf]
  by_cases hq : s.pos.published.quality = .none
  · rw [followFresh_acquire hq, followFresh_acquire (h.published ▸ hq), h.chase]
    exact K.command (K.chase r _) _
  · have hq' : t.pos.published.quality ≠ .none := h.published ▸ hq
    cases hp : leadParked s
    · cases hs : seekDue (Machine.leadEntry s).speed (chaseError s)
      · have hs' : seekDue (Machine.leadEntry t).speed (chaseError t) = false := by
          rw [h.leadEntry hf, h.error hf]
          exact hs
        rw [followFresh_sync hq hp hs, followFresh_sync hq' (hparked.trans hp) hs', syncLaw_eq, syncLaw_eq, h.error hf]
        exact K.judgeLock (K.synced r hf) _
      · have hs' : seekDue (Machine.leadEntry t).speed (chaseError t) = true := by
          rw [h.leadEntry hf, h.error hf]
          exact hs
        rw [followFresh_seek hq hp hs, followFresh_seek hq' (hparked.trans hp) hs', h.leadEntry hf, h.error hf, h.chase]
        exact K.command (K.chase r _) _
    · rw [followFresh_park hq hp, followFresh_park hq' (hparked.trans hp), h.error hf]
      exact K.park r hf _

theorem ServoCongruence.freewheelStop (r : R s t) : R (freewheelStop s) (freewheelStop t) := by
  have h := K.alike r
  unfold Machine.freewheelStop
  rw [h.chase]
  split
  · exact K.command r _
  · exact r

theorem ServoCongruence.countFreewheel (r : R s t) : R (countFreewheel s) (countFreewheel t) := by
  have h := K.alike r
  unfold Machine.countFreewheel
  rw [h.chase]
  split
  · exact K.freewheelStop (K.chase r _)
  · exact r

theorem ServoCongruence.followStale (r : R s t) : R (followStale s) (followStale t) := by
  have h := K.alike r
  unfold Machine.followStale enterLost
  rw [h.chase]
  split
  · exact K.countFreewheel r
  · exact K.chase r _

theorem ServoCongruence.followCoasting (r : R s t) : R (followCoasting s) (followCoasting t) := by
  have h := K.alike r
  unfold Machine.followCoasting
  rw [h.chase]
  split
  · exact K.countFreewheel r
  · exact K.chase r _

theorem ServoCongruence.followLive (r : R s t) : R (followLive s) (followLive t) := by
  have h := K.alike r
  have hc := h.leadClass
  cases k : Machine.leadClass s <;> rw [k] at hc
  case fresh =>
    rw [followLive_fresh k, followLive_fresh hc, h.chase, h.time]
    exact K.chase r _
  case coasting =>
    rw [followLive_coasting k, followLive_coasting hc, h.chase]
    exact K.chase r _
  case stale =>
    rw [followLive_stale k, followLive_stale hc]
    exact K.followStale r

theorem ServoCongruence.follow (r : R s t) : R (follow s) (follow t) := by
  have h := K.alike r
  cases hd : Machine.isDeck s
  · rw [follow_live ((not_deck_iff s).mp hd), follow_live ((not_deck_iff t).mp (h.isDeck.trans hd))]
    exact K.followLive r
  · have hd' := h.isDeck.trans hd
    have hc := h.leadClass
    cases k : Machine.leadClass s <;> rw [k] at hc
    case fresh =>
      rw [follow_fresh hd k, follow_fresh hd' hc]
      exact K.followFresh r k
    case coasting =>
      rw [follow_coasting hd k, follow_coasting hd' hc]
      exact K.followCoasting r
    case stale =>
      rw [follow_stale hd k, follow_stale hd' hc]
      exact K.followStale r

theorem ServoCongruence.publish (r : R s t) (x : ChaseRecord) : R (publishChase x s) (publishChase x t) := by
  have h := K.alike r
  unfold publishChase
  rw [h.chase]
  exact K.chase r _

/-- The servo answers two states that it cannot tell apart alike. -/
theorem ServoCongruence.chaseBoundary (r : R s t) : R (chaseBoundary s) (chaseBoundary t) := by
  have h := K.alike r
  by_cases hf : s.chase.state = .free
  · rw [chaseBoundary_free hf, chaseBoundary_free (h.chase ▸ hf)]
    have e : freeRecord t.pos.published t = freeRecord s.pos.published s := by
      unfold freeRecord
      rw [h.published, h.ownReady]
    rw [e]
    exact K.publish r _
  · rw [chaseBoundary_enabled hf, chaseBoundary_enabled (h.chase ▸ hf), h.targetNow, (K.alike (K.follow r)).followRecord]
    exact K.publish (K.follow r) _

end

theorem Alike.chaseBoundary {s t : State} (h : Alike s t) : Alike (chaseBoundary s) (chaseBoundary t) :=
  alike_congruence.chaseBoundary h

end Sys2Proof.Machine

/-! SUPPORT for O12, O14, O22, O30. The locate's record, the publication and the other takers on states alike, and the course
of a boundary at which no timed cue waits: the evaluation and the locate's record in either order. -/

namespace Sys2Proof.Machine

set_option Elab.async false

/-! ### The locate's record -/


theorem Alike.ended {s t : State} (h : Alike s t) (mark : Bool) (x : Chase) :
    Alike ((s.setTr { s.tr with command := .stop, locate := none, parkedMark := mark }).setChase x)
      ((t.setTr { t.tr with command := .stop, locate := none, parkedMark := mark }).setChase x) :=
  ⟨h.power, h.straps, h.pins, h.time, rfl, rfl, rfl, rfl, h.published, h.quality, h.peers, h.failed⟩

theorem Alike.flagged {s t : State} (h : Alike s t) (f : Flag) :
    Alike (s.setFlags (s.flags ||| f.mask)) (t.setFlags (t.flags ||| f.mask)) := by
  refine ⟨h.power, h.straps, h.pins, h.time, h.command, h.locate, h.mark, h.chase, h.published, h.quality, h.peers, ?_⟩
  have e : s.flags.getLsbD Flag.locateFail.number = t.flags.getLsbD Flag.locateFail.number := h.failed.symm
  show (t.flags ||| f.mask).getLsbD _ = (s.flags ||| f.mask).getLsbD _
  rw [BitVec.getLsbD_or, BitVec.getLsbD_or, e]

theorem Alike.locateSucceed {s t : State} (h : Alike s t) (l : Locate) :
    Alike (locateSucceed l s) (locateSucceed l t) := by
  rw [locateSucceed_eq, locateSucceed_eq, h.chase]
  exact h.ended _ _

theorem Alike.locateFail {s t : State} (h : Alike s t) (l : Locate) : Alike (locateFail l s) (locateFail l t) := by
  rw [locateFail_eq, locateFail_eq, h.chase]
  exact (h.ended _ _).flagged _

theorem Alike.distance {s t : State} (h : Alike s t) (l : Locate) : locateDistance l t = locateDistance l s := by
  unfold locateDistance
  rw [h.std, h.published]

theorem Alike.locateTake {s t : State} (h : Alike s t) : Alike (locateTake s) (locateTake t) := by
  unfold Machine.locateTake
  rw [h.locate]
  split
  · rw [h.published, h.pins, h.distance]
    exact h.withLocate _
  · exact h

theorem Alike.locateSettle {s t : State} (h : Alike s t) : Alike (locateSettle s) (locateSettle t) := by
  unfold Machine.locateSettle
  rw [h.locate]
  split
  · rw [h.distance]
    split
    · split
      · exact h.locateSucceed _
      split
      · exact h.locateFail _
      · exact h.withLocate _
    · exact h
  · exact h

theorem Alike.locateAcquireLimit {s t : State} (h : Alike s t) :
    Alike (locateAcquireLimit s) (locateAcquireLimit t) := by
  unfold Machine.locateAcquireLimit
  rw [h.locate]
  split
  · rw [h.published]
    split
    · exact h.locateFail _
    · exact h
  · exact h

theorem Alike.locateEotLimit {s t : State} (h : Alike s t) : Alike (locateEotLimit s) (locateEotLimit t) := by
  unfold Machine.locateEotLimit
  rw [h.locate]
  split
  · split
    · exact h.locateFail _
    · exact h
  · exact h

theorem Alike.locateRecordLimit {s t : State} (h : Alike s t) : Alike (locateRecordLimit s) (locateRecordLimit t) := by
  unfold Machine.locateRecordLimit
  rw [h.locate]
  split
  · split
    · exact h.locateFail _
    · exact h
  · exact h

theorem Alike.locateRecord {s t : State} (h : Alike s t) : Alike (locateRecord s) (locateRecord t) :=
  h.locateTake.locateSettle.locateAcquireLimit.locateEotLimit.locateRecordLimit

/-- The locate takes the record of two states that it cannot tell apart alike. -/
theorem Alike.locateBoundary {s t : State} (h : Alike s t) : Alike (locateBoundary s) (locateBoundary t) := by
  have hskips : locateSkips t = locateSkips s := by
    unfold locateSkips
    rw [h.locate, h.time]
  unfold Machine.locateBoundary
  rw [hskips]
  split
  · exact h
  · exact h.locateRecord

/-! ### The other takers -/

theorem sendSpeedWord_tr (s : State) :
    (sendSpeedWord s).tr
      = { s.tr with speedWord := (sendSpeedWord s).tr.speedWord, speedSent := (sendSpeedWord s).tr.speedSent } := by
  unfold sendSpeedWord
  split <;> rfl

theorem tallyExpiry_tr (s : State) : (tallyExpiry s).tr = { s.tr with punch := (tallyExpiry s).tr.punch } := by
  unfold tallyExpiry
  split
  · split <;> rfl
  · rfl

theorem transportBoundary_tr (s : State) :
    (transportBoundary s).tr
      = { s.tr with
          servoTimer := (countServo s).tr.servoTimer, punch := (transportBoundary s).tr.punch
          speedWord := (transportBoundary s).tr.speedWord, speedSent := (transportBoundary s).tr.speedSent } := by
  have h1 : (servoExpiry (countServo s)).tr = (countServo s).tr := (servoExpiry_frame _).tr
  have h2 := tallyExpiry_tr (countTally (servoExpiry (countServo s)))
  have h3 := sendSpeedWord_tr (tallyExpiry (countTally (servoExpiry (countServo s))))
  have e : (countTally (servoExpiry (countServo s))).tr
      = { (countServo s).tr with punch := (countTally (servoExpiry (countServo s))).tr.punch } := by
    rw [← h1]
    rfl
  rw [transportBoundary, h3, h2, e]
  rfl

theorem transportBoundary_alike (s : State) : Alike s (transportBoundary s) := by
  have f := transportBoundary_frame s
  have e := transportBoundary_tr s
  have q : (transportBoundary s).pos = s.pos := f.same .pos
  exact ⟨f.same .power, f.same .straps, f.same .pins, f.same .time, by rw [e], by rw [e], by rw [e], f.same .chase,
    by rw [q], fun _ => by rw [q], .of_eq (f.same .peers),
    (transportBoundary_details s).same (.flag .locateFail)⟩

theorem setVirtual_alike (s : State) : Alike s (setVirtual s) := by
  unfold setVirtual
  split
  · next h =>
    refine ⟨rfl, rfl, rfl, rfl, rfl, rfl, rfl, rfl, rfl, fun hd => ?_, .of_eq rfl, rfl⟩
    simp only [Bool.and_eq_true, Bool.not_eq_true'] at h
    rw [deckReady, h.1.1] at hd
    exact absurd hd Bool.false_ne_true
  · exact .refl s

theorem peersBoundary_leaves (s : State) : Alike s (peersBoundary s) :=
  ⟨rfl, rfl, rfl, rfl, rfl, rfl, rfl, rfl, rfl, fun _ => rfl, peersBoundary_alike s, rfl⟩

theorem runRecord_frame (ok : Bool) (s : State) : Frame [.cues, .lines, .flags] s (runRecord ok s) := by
  have judged (u : State) : Frame [.cues, .lines, .flags] u (judgeRecord ok u) := by
    unfold judgeRecord
    split
    · exact ((updateCues_frame _ _ u).trans (notReadyLimit_frame _)).mono
    · exact .refl u
  exact (((updateCues_frame _ _ s).trans (recordLengthEnd_frame _)).trans (judged _)).mono

theorem recordRun_frame (s : State) : Frame [.cues, .lines, .flags] s (recordRun s) := by
  unfold recordRun
  split
  · exact runRecord_frame _ s
  · exact .refl s

theorem cueBoundary_untimed_frame {s : State} (h : NoTimedCue s) :
    Frame [.cues, .samples, .lines, .flags] s (cueBoundary s) := by
  rw [cueBoundary_untimed h]
  exact ((recordRun_frame s).trans (setSamples_frame _ _ _)).mono

theorem fireDetails_locateFail : Detail.flag .locateFail ∉ fireDetails := by decide

/-- The takers that the servo and the locate can tell by what they leave. -/
def movesDeck : Taker → Bool
  | .evaluate | .locate => true
  | _ => false

theorem takeBoundary_stays {x : Taker} (hx : movesDeck x = false) (hp : x ≠ .publish) {s : State} (h : NoTimedCue s) :
    Alike s (takeBoundary x s) := by
  have flag (w : Detail.flag .locateFail ∉ takerDetails x) :
      hasFlag (takeBoundary x s) .locateFail = hasFlag s .locateFail :=
    (takeBoundary_details x s).same (.flag .locateFail) w
  cases x
  case evaluate | locate => cases hx
  case publish => exact absurd rfl hp
  case setVirtual => exact setVirtual_alike s
  case cues => exact (cueBoundary_untimed_frame h).alike (flag fireDetails_locateFail)
  case fader => exact (faderBoundary_frame s).alike (flag (by simp [takerDetails]))
  case gpi => exact (gpiBoundary_frame s).alike (flag (by simp [takerDetails]))
  case peers => exact peersBoundary_leaves s
  case transport => exact transportBoundary_alike s
  case link => exact (linkBoundary_frame s).alike (flag (by simp [takerDetails]))
  case compose => exact (composeBulletin_frame s).alike (flag (by simp [takerDetails]))

theorem Alike.moved {x : Taker} (hx : movesDeck x = true) {s t : State} (h : Alike s t) :
    Alike (takeBoundary x s) (takeBoundary x t) := by
  cases x
  case evaluate => exact h.chaseBoundary
  case locate => exact h.locateBoundary
  all_goals cases hx

/-- Where no timed cue waits, a run without the publication is alike to the run of its evaluation and its locate. -/
theorem runTakers_alike {order : List Taker} (hp : Taker.publish ∉ order) {a b : State} (hn : NoTimedCue b)
    (h : Alike a b) : Alike (runTakers (order.filter movesDeck) a) (runTakers order b) :=
  runTakers_movers (R := Alike) (fun _ _ _ k => takeBoundary_untimed _ k) (fun _ _ hx _ _ _ k => k.moved hx)
    (fun _ hx hm _ _ k r => r.trans (takeBoundary_stays hm (fun e => hp (e ▸ hx)) k)) hn h

/-! ### The publication -/

theorem positionBoundary_pos {s t : State} (hp : t.pos = s.pos) (hz : t.straps = s.straps) (ht : t.time = s.time) :
    (positionBoundary t).pos = (positionBoundary s).pos := by
  have hstd : std t = std s := congrArg standardOf hz
  have hd : isDeck t = isDeck s := isDeck_congr hz
  have expire : (expireCandidate t).pos = (expireCandidate s).pos := by
    unfold expireCandidate discardCandidate
    rw [hp, ht]
    split
    · split
      · rfl
      · exact hp
    · exact hp
  unfold positionBoundary
  rw [hd]
  split
  · unfold publishDeck publishRecord
    dsimp only [State.setPos_pos]
    rw [expireSilence_pos, countSilence_pos, expireSilence_pos, countSilence_pos, expire]
  · unfold publishLive publishRecord virtualRecord
    dsimp only [State.setPos_pos]
    rw [hp, hstd]

theorem Alike.positionBoundary {s t : State} (h : Alike s t) (hp : t.pos = s.pos) :
    Alike (positionBoundary s) (positionBoundary t) := by
  have fs := positionBoundary_frame s
  have ft := positionBoundary_frame t
  have hs : (Machine.positionBoundary s).tr = s.tr := fs.tr
  have htr : (Machine.positionBoundary t).tr = t.tr := ft.tr
  have hpos := positionBoundary_pos hp h.straps h.time
  refine ⟨?_, ?_, ?_, ?_, ?_, ?_, ?_, ?_, by rw [hpos], fun _ => by rw [hpos], ?_, ?_⟩
  · rw [ft.same .power, fs.same .power, h.power]
  · rw [ft.same .straps, fs.same .straps, h.straps]
  · rw [ft.same .pins, fs.same .pins, h.pins]
  · rw [ft.same .time, fs.same .time, h.time]
  · rw [htr, hs, h.command]
  · rw [htr, hs, h.locate]
  · rw [htr, hs, h.mark]
  · rw [ft.same .chase, fs.same .chase, h.chase]
  · have e : ∀ u : State, PeersAlike u (Machine.positionBoundary u) := fun u => .of_eq ((positionBoundary_frame u).same .peers)
    refine ((e s).symm.trans h.peers ?_ h.time).trans (e t) ?_ (ft.same .time)
    · exact (fs.same .time).symm
    · rw [h.time]
      exact (fs.same .time).symm
  · have fl (u : State) : hasFlag (Machine.positionBoundary u) .locateFail = hasFlag u .locateFail :=
      (takeBoundary_details .publish u).same (.flag .locateFail) (by simp [takerDetails])
    rw [fl t, fl s, h.failed]

end Sys2Proof.Machine

/-! SUPPORT for O12, O14, O22, O30. The course of a boundary at which no timed cue waits. -/

namespace Sys2Proof.Machine

set_option Elab.async false

theorem movesDeck_iff (x : Taker) : movesDeck x = true ↔ x = .evaluate ∨ x = .locate := by
  cases x <;> simp [movesDeck]

/-- Two takers at most move the deck, in either order. -/
theorem movers_cases {order : List Taker} (hn : order.Nodup) (h : ∀ x ∈ order, movesDeck x = true) :
    order ∈ [[], [.evaluate], [.locate], [.evaluate, .locate], [.locate, .evaluate]] := by
  have two (x : Taker) (hx : x ∈ order) : x = .evaluate ∨ x = .locate := (movesDeck_iff x).mp (h x hx)
  match order, hn, two with
  | [], _, _ => simp
  | [x], _, two => obtain rfl | rfl := two x (by simp) <;> simp
  | [x, y], hn, two =>
    have hxy : x ≠ y := by
      rintro rfl
      simp at hn
    obtain rfl | rfl := two x (by simp) <;> obtain rfl | rfl := two y (by simp) <;> simp at hxy ⊢
  | x :: y :: z :: l, hn, two =>
    exfalso
    simp only [List.nodup_cons, List.mem_cons, not_or] at hn
    obtain ⟨⟨hxy, hxz, -⟩, ⟨hyz, -⟩, -⟩ := hn
    obtain rfl | rfl := two x (by simp) <;> obtain rfl | rfl := two y (by simp) <;>
      obtain rfl | rfl := two z (by simp) <;> simp at hxy hxz hyz

theorem publish_first {rank : Taker → Nat} {pre post : List Taker} (h : SplitAt rank .publish pre post) :
    Taker.evaluate ∉ pre ∧ Taker.locate ∉ pre :=
  ⟨(h.after (publish_before_evaluate rank)).2, (h.after (publish_before_locate rank)).2⟩

theorem publish_first_movers {rank : Taker → Nat} {pre post l : List Taker} (h : SplitAt rank .publish pre post)
    (hl : l ⊆ pre) : l.filter movesDeck = [] := by
  rw [List.filter_eq_nil_iff]
  intro x hx hm
  obtain rfl | rfl := (movesDeck_iff x).mp hm
  · exact (publish_first h).1 (hl hx)
  · exact (publish_first h).2 (hl hx)

/-- The publication, where no timed cue waits: what was before it is alike, with the position as it was. -/
theorem runTakers_published {rank : Taker → Nat} {pre post : List Taker} (h : SplitAt rank .publish pre post)
    {a b : State} (hn : NoTimedCue b) (hab : Alike a b) (hp : b.pos = a.pos) :
    Alike (positionBoundary a) (positionBoundary (runTakers pre b)) := by
  have hal := runTakers_alike h.pre hn hab
  rw [publish_first_movers h (List.Subset.refl _)] at hal
  have hset : Taker.setVirtual ∉ pre := (h.after (publish_before_setVirtual rank)).2
  have hpos : (runTakers pre b).pos = b.pos := by
    refine runTakers_same .pos (fun y hy k => ?_) b
    cases y <;> simp [takerParts] at k
    · exact h.pre hy
    · exact hset hy
  exact Alike.positionBoundary hal (hpos.trans hp)

/-- The states that the deck can be in, by the takers that have moved it. -/
def deckCourses (p : State) : List State :=
  [p, chaseBoundary p, locateBoundary p, locateBoundary (chaseBoundary p), chaseBoundary (locateBoundary p)]

theorem runMovers_courses {order : List Taker} (hn : order.Nodup) (h : ∀ x ∈ order, movesDeck x = true) (p : State) :
    runTakers order p ∈ deckCourses p := by
  have k := movers_cases hn h
  simp only [List.mem_cons, List.not_mem_nil, or_false] at k
  obtain rfl | rfl | rfl | rfl | rfl := k <;> simp [deckCourses, runTakers_cons, takeBoundary]

/-- A beginning of the takers' order: before the publication the deck is as it was, after it in one of its courses. -/
theorem runTakers_course {rank : Taker → Nat} {l rest : List Taker} (h : takerOrder rank = l ++ rest) {a b : State}
    (hn : NoTimedCue b) (hab : Alike a b) (hp : b.pos = a.pos) :
    Alike a (runTakers l b) ∨ ∃ x ∈ deckCourses (positionBoundary a), Alike x (runTakers l b) := by
  obtain ⟨pre, post, k⟩ := takerOrder_split rank .publish
  have hnodup := takerOrder_nodup rank
  have e := h.symm.trans k.order
  obtain ⟨m, e1, -⟩ | ⟨m, e1, e2⟩ := List.append_eq_append_iff.mp e
  · have hsub : l ⊆ pre := by rw [e1]; exact List.subset_append_left _ _
    have hal := runTakers_alike (fun q => k.pre (hsub q)) hn hab
    rw [publish_first_movers k hsub] at hal
    exact .inl hal
  · cases m with
    | nil =>
      rw [List.append_nil] at e1
      have hal := runTakers_alike (order := l) (by rw [e1]; exact k.pre) hn hab
      rw [e1, publish_first_movers k (List.Subset.refl _), ← e1] at hal
      exact .inl hal
    | cons y m =>
      obtain ⟨rfl, e3⟩ := List.cons.inj (e2 : .publish :: post = y :: (m ++ rest))
      refine .inr ⟨runTakers (m.filter movesDeck) (positionBoundary a), ?_, ?_⟩
      · refine runMovers_courses (List.Nodup.filter _ ?_) (fun x hx => (List.mem_filter.mp hx).2) _
        rw [h, e1] at hnodup
        exact (List.nodup_cons.mp (List.nodup_append.mp (List.nodup_append.mp hnodup).1).2.1).2
      · have hpm : Taker.publish ∉ m := fun q => k.post (by rw [e3]; exact List.mem_append_left _ q)
        have hmid : NoTimedCue (positionBoundary (runTakers pre b)) :=
          takeBoundary_untimed .publish (runTakers_holds (I := NoTimedCue) (fun x _ _ q => takeBoundary_untimed x q) hn)
        rw [e1, runTakers_append, runTakers_cons]
        exact runTakers_alike hpm hmid (runTakers_published k hn hab hp)

/-- The whole boundary: the evaluation and the locate's record in either order. -/
theorem runTakers_ends {rank : Taker → Nat} {a b : State} (hn : NoTimedCue b) (hab : Alike a b) (hp : b.pos = a.pos) :
    Alike (locateBoundary (chaseBoundary (positionBoundary a))) (runTakers (takerOrder rank) b)
      ∨ Alike (chaseBoundary (locateBoundary (positionBoundary a))) (runTakers (takerOrder rank) b) := by
  obtain ⟨pre, post, k⟩ := takerOrder_split rank .publish
  have hpost : post.Nodup := by
    have hnodup := takerOrder_nodup rank
    rw [k.order] at hnodup
    exact (List.nodup_cons.mp (List.nodup_append.mp hnodup).2.1).2
  have he : Taker.evaluate ∈ post.filter movesDeck :=
    List.mem_filter.mpr ⟨(k.after (publish_before_evaluate rank)).1, rfl⟩
  have hl : Taker.locate ∈ post.filter movesDeck :=
    List.mem_filter.mpr ⟨(k.after (publish_before_locate rank)).1, rfl⟩
  have hmid : NoTimedCue (positionBoundary (runTakers pre b)) :=
    takeBoundary_untimed .publish (runTakers_holds (I := NoTimedCue) (fun x _ _ q => takeBoundary_untimed x q) hn)
  have hal := runTakers_alike k.post hmid (runTakers_published k hn hab hp)
  have cases := movers_cases (hpost.filter _) fun x hx => (List.mem_filter.mp hx).2
  rw [k.order, runTakers_append, runTakers_cons]
  simp only [List.mem_cons, List.not_mem_nil, or_false] at cases
  obtain e | e | e | e | e := cases <;> rw [e] at he hl hal
  · simp at he
  · simp at hl
  · simp at he
  · exact .inl hal
  · exact .inr hal

/-- What O30 takes the boundary to begin from. -/
def boundaryBegun (c : Instr) (s t : State) : State :=
  (if c = .missingLimitPresent then loseLock s else s).setTime t.time

theorem boundaryBegun_alike (c : Instr) (s t : State) : Alike (boundaryBegun c s t) (boundaryStart c s t) := by
  unfold boundaryBegun boundaryStart
  split
  · have f : Frame [.flags, .choices] ((loseLock s).setTime t.time)
        (((setFlag .refLost (loseLock s)).setTime t.time).setChoices t.choices) :=
      (setFlag_frame .refLost ((loseLock s).setTime t.time)).trans (setChoices_frame _ _)
    exact f.alike (hasFlag_setFlag_other (loseLock s) (by decide))
  · exact (setChoices_frame (s.setTime t.time) t.choices).alike rfl

theorem boundaryBegun_pos (c : Instr) (s t : State) : (boundaryStart c s t).pos = (boundaryBegun c s t).pos := by
  unfold boundaryBegun boundaryStart
  split <;> rfl

/-- The end of a boundary at which no timed cue waits (R115, R92). -/
theorem boundary_ends {c : Instr} {s : State} (hr : Running s) (hm : MakesBoundary c s) (hn : NoTimedCue s) :
    ∃ t, exec c s = .next t ∧ t.time.fieldCount = s.time.fieldCount + 1
      ∧ (Alike (locateBoundary (chaseBoundary (positionBoundary (boundaryBegun c s t)))) t
        ∨ Alike (chaseBoundary (locateBoundary (positionBoundary (boundaryBegun c s t)))) t) := by
  obtain ⟨t, rank, e, hrun, hfc⟩ := boundary_run hr hm
  refine ⟨t, e, hfc, ?_⟩
  have k := runTakers_ends (rank := rank) (boundaryStart_untimed (c := c) hn t) (boundaryBegun_alike c s t)
    (boundaryBegun_pos c s t)
  rwa [← hrun] at k

end Sys2Proof.Machine

/-! O30. What the Chase Servo makes of a boundary and of one evaluation. -/

namespace Sys2Proof.Machine

set_option Elab.async false

/-! ### A record of a locate -/

theorem locateSkips_some {l : Locate} {s : State} (h : s.tr.locate = some l) :
    locateSkips s = decide (l.skips = some s.time.fieldCount) := by rw [locateSkips, h]

theorem locateBoundary_skips {l : Locate} {s : State} (h : s.tr.locate = some l)
    (hk : l.skips = some s.time.fieldCount) : locateBoundary s = s :=
  if_pos ((locateSkips_some h).trans (decide_eq_true hk))

theorem locateBoundary_acts {l : Locate} {s : State} (h : s.tr.locate = some l)
    (hk : l.skips ≠ some s.time.fieldCount) : locateBoundary s = locateRecord s :=
  if_neg (by rw [locateSkips_some h, decide_eq_true_iff]; exact hk)

theorem exec_locateSettle {s : State} (hr : Running s) : exec .locateSettle s = .next (locateSettle s) :=
  inRun_of_running _ hr

/-- The command of the DRIVE formula as the statement writes it (R92). -/
def driveCommand (dist : Int) : Command :=
  .speed ((if dist < 0 then -1 else 1) * (min 12800 (max 64 (dist.natAbs / 32)) : Nat))

theorem DriveTaken.command {dist : Int} {m : Locate} (h : DriveTaken dist m) :
    (dist.natAbs ≤ 256 → m.phase = .settle ∧ m.settle = 0 ∧ m.drive = .stop)
      ∧ (256 < dist.natAbs → m.phase = .drive ∧ m.drive = driveCommand dist) :=
  ⟨h.1, fun k => ⟨(h.2 k).1, (h.2 k).2.trans (locateSpeed_eq (by omega))⟩⟩

/-- What a record makes of a locate, by its phase (R85, R91, R92). -/
structure RecordTaken (l m : Locate) (p : PosRecord) (eot : Bool) (dist : Int) : Prop where
  target : m.target = l.target
  attempts : m.attempts = l.attempts
  records : m.records = l.records + 1
  still : m.eotCount = l.eotStill eot p.motion
  drive : l.phase = .drive → DriveTaken dist m
  acquired : l.phase = .acquire → p.quality ≠ .none → DriveTaken dist m
  acquiring : l.phase = .acquire → p.quality = .none → m.phase = .acquire ∧ m.drive = l.drive
  settle : l.phase = .settle →
    m.phase = .settle ∧ m.drive = .stop ∧ m.settle = if p.motion = 0 then l.settle + 1 else 0

theorem DriveTaken.not_settled {dist : Int} {m : Locate} (h : DriveTaken dist m) : ¬HasSettled m := by
  rintro ⟨hp, hn⟩
  by_cases k : dist.natAbs ≤ 256
  · have := (h.1 k).2.1
    omega
  · exact LocatePhase.noConfusion ((h.2 (by omega)).1.symm.trans hp)

theorem take_taken (l : Locate) (p : PosRecord) (eot : Bool) (dist : Int) :
    RecordTaken l (l.take p eot dist) p eot dist := by
  obtain ⟨ht, ha, hn, he⟩ := take_rest l p eot dist
  refine ⟨ht, ha, hn, he, fun h => ?_, fun h hq => ?_, fun h hq => ?_, fun h => ?_⟩
  · rw [take_drive h]
    exact inDrive_taken _ _
  · rw [take_acquire h, if_neg hq]
    exact inDrive_taken _ _
  · rw [take_acquire h, if_pos hq]
    exact ⟨h, rfl⟩
  · rw [take_settle h]
    exact ⟨h, rfl, rfl⟩

theorem DriveTaken.not_acquire {dist : Int} {m : Locate} (h : DriveTaken dist m) : m.phase ≠ .acquire := by
  by_cases k : dist.natAbs ≤ 256
  · rw [(h.1 k).1]
    exact LocatePhase.noConfusion
  · rw [(h.2 (by omega)).1]
    exact LocatePhase.noConfusion

/-- A locate still in ACQUIRE after a record has found the quality NONE. -/
theorem RecordTaken.none {l m : Locate} {p : PosRecord} {eot : Bool} {dist : Int} (h : RecordTaken l m p eot dist)
    (k : m.phase = .acquire) : p.quality = .none := by
  by_contra hq
  cases hl : l.phase with
  | acquire => exact (h.acquired hl hq).not_acquire k
  | drive => exact (h.drive hl).not_acquire k
  | settle => rw [(h.settle hl).1] at k; cases k

/-! ### A locate that an evaluation gives -/

/-- A locate that has taken no record since it was given. -/
structure NewLocate (l : Locate) : Prop where
  records : l.records = 0
  settle : l.settle = 0
  still : l.eotCount = 0
  phase : l.phase ≠ .settle

/-- Each locate of s is new. -/
def LocatesNew (s : State) : Prop := ∀ l, s.tr.locate = some l → NewLocate l

theorem start_new (skips : Option Word16) (target : Nat) (q : Quality) (inForce : Command) :
    NewLocate (Locate.start skips target q inForce) := by
  refine ⟨rfl, rfl, rfl, ?_⟩
  show (if q = .none then LocatePhase.acquire else .drive) ≠ .settle
  split <;> exact LocatePhase.noConfusion

theorem retarget_new {l : Locate} (h : NewLocate l) (skips : Option Word16) (target : Nat) :
    NewLocate (l.retarget skips target) := by
  refine ⟨h.records, rfl, rfl, ?_⟩
  show (if l.phase = .acquire then LocatePhase.acquire else .drive) ≠ .settle
  split <;> exact LocatePhase.noConfusion

theorem takeCommand_new (c : Command) {s : State} (h : LocatesNew s) : LocatesNew (takeCommand c s) := by
  cases hd : deckReady s
  · rw [takeCommand_of_not_ready hd]
    exact h
  · intro l hl
    rw [(takeCommand_taken hd).locate] at hl
    cases hl

theorem giveLocate_new (skips : Option Word16) (target : Nat) {s : State} (h : LocatesNew s) :
    LocatesNew (giveLocate skips target s) := by
  cases hd : deckReady s
  · rw [giveLocate_of_not_ready hd]
    exact h
  · cases hl : s.tr.locate with
    | none =>
      rw [giveLocate_start hd hl]
      intro l k
      rw [breakRecord_tr] at k
      cases k
      exact start_new _ _ _ _
    | some o =>
      rw [giveLocate_retarget hd hl]
      intro l k
      cases k
      exact retarget_new (h o hl) _ _

theorem chaseBoundary_new {s : State} (h : LocatesNew s) : LocatesNew (chaseBoundary s) :=
  chaseBoundary_induct (R := fun u v => LocatesNew u → LocatesNew v) (fun _ => id) (fun h k => k ∘ h) (fun _ _ => id)
    (fun c _ => takeCommand_new c) (fun skips target _ => giveLocate_new skips target) s h

/-- A new locate ends at no record. -/
theorem locateRecord_new {l : Locate} {s : State} (hl : s.tr.locate = some l) (h : NewLocate l) :
    locateRecord s = locateTake s := by
  have take := take_taken l s.pos.published s.pins.eot (locateDistance l s)
  have hrecords := take.records
  have hstill := take.still
  rw [h.records] at hrecords
  refine (locateRecord_course hl rfl).1 (fun k => ?_) (fun k => ?_)
  · cases hp : l.phase with
    | settle => exact h.phase hp
    | drive => exact (take.drive hp).not_settled k
    | acquire =>
      by_cases hq : s.pos.published.quality = .none
      · exact LocatePhase.noConfusion ((take.acquiring hp hq).1.symm.trans k.1)
      · exact (take.acquired hp hq).not_settled k
  · have hle : l.eotStill s.pins.eot s.pos.published.motion ≤ 1 := by
      unfold Locate.eotStill
      rw [h.still]
      split
      · split <;> omega
      · omega
    obtain ⟨-, hn, -⟩ | hn | hn := k <;> omega

/-- The record of a new locate keeps its target and moves nothing else. -/
theorem locateBoundary_new {l : Locate} {s : State} (hl : s.tr.locate = some l) (h : NewLocate l) :
    ∃ m, locateBoundary s = s.setTr { s.tr with locate := some m } ∧ m.target = l.target := by
  by_cases hk : l.skips = some s.time.fieldCount
  · refine ⟨l, ?_, rfl⟩
    rw [locateBoundary_skips hl hk, ← hl]
    rfl
  · rw [locateBoundary_acts hl hk, locateRecord_new hl h, locateTake_some hl]
    exact ⟨_, rfl, (take_taken l _ _ _).target⟩

theorem locateBoundary_idle {s : State} (h : s.tr.locate = none) : locateBoundary s = s := by
  have hs : locateSkips s = false := by rw [locateSkips, h]
  have ht : locateTake s = s := by rw [locateTake, h]
  have hx : locateSettle s = s := by rw [locateSettle, h]
  unfold locateBoundary
  rw [hs, if_neg Bool.false_ne_true, locateRecord_eq, ht, hx, locateLimits_none h]

/-- What O30 asks of the end t of a boundary whose evaluation has left u. -/
structure ServoEnds (u t : State) : Prop where
  chase : t.chase = u.chase
  command : t.tr.command = u.tr.command
  mark : t.tr.parkedMark = u.tr.parkedMark
  idle : u.tr.locate = none → t.tr.locate = none
  target : ∀ l, u.tr.locate = some l → ∃ m, t.tr.locate = some m ∧ m.target = l.target

theorem Alike.servoEnds {u t : State} (h : Alike u t) : ServoEnds u t :=
  ⟨h.chase, h.command, h.mark, fun k => h.locate.trans k, fun l k => ⟨l, h.locate.trans k, rfl⟩⟩

theorem locateBoundary_servoEnds {u t : State} (hn : LocatesNew u) (h : Alike (locateBoundary u) t) :
    ServoEnds u t := by
  cases hl : u.tr.locate with
  | none =>
    rw [locateBoundary_idle hl] at h
    exact h.servoEnds
  | some l =>
    obtain ⟨m, e, hm⟩ := locateBoundary_new hl (hn l hl)
    rw [e] at h
    refine ⟨h.chase, h.command, h.mark, fun k => ?_, fun o k => ⟨m, h.locate, ?_⟩⟩
    · rw [hl] at k; cases k
    · rw [hl] at k; cases k; exact hm

theorem positionBoundary_tr (s : State) : (positionBoundary s).tr = s.tr := (positionBoundary_frame s).tr

/-- The evaluation of a boundary at which no locate runs and no timed cue waits is the servo's last word. -/
theorem boundary_evaluates {c : Instr} {s : State} (hr : Running s) (hm : MakesBoundary c s) (hn : NoTimedCue s)
    (hl : s.tr.locate = none) :
    ∃ t, exec c s = .next t ∧ ServoEnds (chaseBoundary (positionBoundary (boundaryBegun c s t))) t := by
  obtain ⟨t, e, -, k⟩ := boundary_ends hr hm hn
  have hidle : (positionBoundary (boundaryBegun c s t)).tr.locate = none := by
    rw [positionBoundary_tr]
    unfold boundaryBegun
    split
    · exact (congrArg Transport.locate (loseLock_frame s).tr).trans hl
    · exact hl
  refine ⟨t, e, ?_⟩
  obtain k | k := k
  · refine locateBoundary_servoEnds (chaseBoundary_new fun l hx => ?_) k
    rw [hidle] at hx
    cases hx
  · rw [locateBoundary_idle hidle] at k
    exact k.servoEnds

/-- Settles O30: the boundary by the course of its takers, one evaluation case by case. -/
theorem chaseEvaluation : Obligations.ChaseEvaluation := by
  unfold Obligations.ChaseEvaluation
  refine ⟨fun c s hr hm hn hl => ?_, fun s => ?_, fun s hd he hf hq hp => ?_, fun s hd he hcl => ?_⟩
  · obtain ⟨t, e, k⟩ := boundary_evaluates hr hm hn hl
    exact ⟨t, e, k.chase, k.command, k.mark, k.idle, k.target⟩
  · dsimp only
    rw [show s.peers[s.chase.lead] = leadEntry s from rfl, ← ageOf_eq]
    exact ⟨rfl, leadClass_fresh s, leadClass_stale s, chaseTarget_eq s,
      fun a b => ⟨signedDiff_le _ a b, signedDiff_gt _ a b, signedDiff_dvd _ a b⟩,
      fun hfree => ⟨freeRecord s.pos.published s, chaseBoundary_free hfree, rfl, rfl, rfl, rfl, bne_iff_ne,
        freeRecord_ready hfree⟩⟩
  · intro v e a hsmall h1 h2
    have hfollow := follow_syncs hd hf hq hp hsmall h1 h2
    have hc : (follow s).chase = (judgeLock (chaseError s) (synced s)).chase := congrArg State.chase hfollow
    have k := evaluated_leaves he hc
    have r := evaluated_fresh he hf
    have x := synced_leaves hf
    have htr : (chaseBoundary s).tr = (synced s).tr := by
      rw [evaluated_tr he, hfollow]
      exact (judgeLock_frame _ _).tr
    have herror : (chaseBoundary s).chase.lastError = e := k.lastError.trans x.error
    refine ⟨k.integral.trans x.integral, herror, fun hl => ?_, fun hl => ?_, r.state,
      r.ready (k.state ▸ x.enabled), ?_, ?_, fun hn => ?_, fun hy => ?_, r.handed, r.target, r.usable,
      r.error.trans herror⟩
    · by_cases hw : (s.chase.counted (chaseError s)).inWindow = 10
          ∧ Sound s ∧ (s.pos.published.quality = .ltc ∨ s.pos.published.quality = .tach)
      · have hx := x.locks hl hw.1 hw.2
        rw [hx] at k
        exact ⟨k.inWindow, fun _ => ⟨k.state, k.outWindow⟩, fun hn => absurd hw hn⟩
      · have hx := x.waits hl hw
        rw [hx] at k
        exact ⟨k.inWindow, fun hy => absurd hy hw, fun _ => ⟨k.state.trans (underSync_sync (e := chaseError s) hl), k.outWindow⟩⟩
    · refine ⟨fun hb hs => ?_, fun hb => ?_⟩
      · have hx := x.holds hl hb hs
        rw [hx] at k
        exact ⟨k.state.trans (underSync_locked (e := chaseError s) hl), k.outWindow, k.inWindow⟩
      · have hx := x.departs hl hb
        rw [hx] at k
        exact ⟨k.state, k.outWindow, k.inWindow⟩
    · rw [r.compare, herror, compareOf_ahead]
    · rw [r.compare, herror, compareOf_behind]
    · exact htr.trans ((takeCommand_servoSpeed _ _ s).2 hn)
    · obtain ⟨hcommand, hlocate, -⟩ := (takeCommand_servoSpeed
        (syncSpeed (leadEntry s).speed (chaseError s) (nextIntegral s.chase.integral (chaseError s)))
        (s.chase.underSync (chaseError s)) s).1 hy
      have hnear := syncSpeed_near (e := e) (a := a) h1 h2
      exact ⟨(congrArg Transport.locate htr).trans hlocate, _, (congrArg Transport.command htr).trans hcommand, hnear⟩
  · have hnf : leadClass s ≠ .fresh := by
      obtain h | ⟨h, -⟩ := hcl <;> rw [h] <;> exact Freshness.noConfusion
    have r := evaluated_not_fresh he hnf
    by_cases hl : s.chase.state = .lost
    · have hfollow : follow s = countFreewheel s := by
        obtain h | ⟨h, -⟩ := hcl
        · exact (follow_stale hd h).trans (followStale_lost hl)
        · exact (follow_coasting hd h).trans (followCoasting_lost hl)
      have k := evaluated_leaves he ((congrArg State.chase hfollow).trans (countFreewheel_chase s))
      have htr : (chaseBoundary s).tr = (countFreewheel s).tr := by rw [evaluated_tr he, hfollow]
      refine ⟨k.state.trans hl, k.lead, r.usable, fun h => absurd hl h, fun _ hc => ?_, fun _ hc hy => ?_,
        fun _ hc => ?_⟩
      · exact ⟨k.freewheel.trans (if_pos (by omega)), htr.trans (countFreewheel_kept (.inl (by omega)))⟩
      · obtain ⟨h1, h2⟩ := countFreewheel_stops hl hc hy
        exact ⟨(k.freewheel.trans (if_pos (by omega))).trans (by omega), (congrArg Transport.command htr).trans h1,
          (congrArg Transport.locate htr).trans h2⟩
      · exact ⟨(k.freewheel.trans (if_neg (by omega))).trans hc, htr.trans (countFreewheel_kept (.inl (by omega)))⟩
    · have hfollow : follow s = enterLost s := by
        obtain h | ⟨-, h⟩ := hcl
        · exact (follow_stale hd h).trans (followStale_enters hl)
        · exact absurd h hl
      have k := evaluated_leaves he (congrArg State.chase hfollow)
      have htr : (chaseBoundary s).tr = s.tr := by rw [evaluated_tr he, hfollow]; rfl
      exact ⟨k.state, k.lead, r.usable, fun _ => ⟨k.integral, k.inWindow, k.outWindow, k.freewheel, htr⟩,
        fun h => absurd h hl, fun h => absurd h hl, fun h => absurd h hl⟩

end Sys2Proof.Machine

/-! O22. The locate at a boundary, and what a record makes of it. -/

namespace Sys2Proof.Machine

set_option Elab.async false

/-! ### A record beside the chase -/

/-- v is u but for the chase. -/
def ButChase (u v : State) : Prop := ∃ x, v = u.setChase x

theorem ButChase.refl (u : State) : ButChase u u := ⟨u.chase, rfl⟩

theorem locateTake_butChase {u v : State} (h : ButChase u v) : ButChase (locateTake u) (locateTake v) := by
  obtain ⟨x, rfl⟩ := h
  unfold locateTake
  rw [State.setChase_tr]
  split
  · exact ⟨x, rfl⟩
  · exact ⟨x, rfl⟩

theorem locateFail_butChase {u v : State} (h : ButChase u v) (l : Locate) :
    ButChase (locateFail l u) (locateFail l v) := by
  obtain ⟨x, rfl⟩ := h
  rw [locateFail_eq, locateFail_eq]
  exact ⟨parkNotedAt l.target x, rfl⟩

theorem locateSucceed_butChase {u v : State} (h : ButChase u v) (l : Locate) :
    ButChase (locateSucceed l u) (locateSucceed l v) := by
  obtain ⟨x, rfl⟩ := h
  rw [locateSucceed_eq, locateSucceed_eq]
  exact ⟨parkNotedAt l.target x, rfl⟩

theorem ButChase.tr {u v : State} (h : ButChase u v) : v.tr = u.tr := by
  obtain ⟨x, rfl⟩ := h
  rfl

theorem ButChase.pos {u v : State} (h : ButChase u v) : v.pos = u.pos := by
  obtain ⟨x, rfl⟩ := h
  rfl

theorem ButChase.distance {u v : State} (h : ButChase u v) (l : Locate) : locateDistance l v = locateDistance l u := by
  obtain ⟨x, rfl⟩ := h
  rfl

theorem ButChase.withLocate {u v : State} (h : ButChase u v) (m : Option Locate) :
    ButChase (u.setTr { u.tr with locate := m }) (v.setTr { v.tr with locate := m }) := by
  obtain ⟨x, rfl⟩ := h
  exact ⟨x, rfl⟩

theorem locateSettle_butChase {u v : State} (h : ButChase u v) : ButChase (locateSettle u) (locateSettle v) := by
  unfold locateSettle
  rw [h.tr]
  split
  · rw [h.distance]
    split
    · split
      · exact locateSucceed_butChase h _
      split
      · exact locateFail_butChase h _
      · obtain ⟨x, rfl⟩ := h
        exact ⟨x, rfl⟩
    · exact h
  · exact h

theorem locateLimits_butChase {u v : State} (h : ButChase u v) : ButChase (locateLimits u) (locateLimits v) := by
  have limits {u v : State} (h : ButChase u v) :
      ButChase (locateAcquireLimit u) (locateAcquireLimit v) ∧ ButChase (locateEotLimit u) (locateEotLimit v)
        ∧ ButChase (locateRecordLimit u) (locateRecordLimit v) := by
    unfold locateAcquireLimit locateEotLimit locateRecordLimit
    rw [h.tr, h.pos]
    cases u.tr.locate with
    | none => exact ⟨h, h, h⟩
    | some l =>
      dsimp only
      have ended (p : Prop) [Decidable p] :
          ButChase (if p then locateFail l u else u) (if p then locateFail l v else v) := by
        split
        · exact locateFail_butChase h l
        · exact h
      exact ⟨ended _, ended _, ended _⟩
  exact (limits (limits (limits h).1).2.1).2.2

theorem locateBoundary_butChase {u v : State} (h : ButChase u v) : ButChase (locateBoundary u) (locateBoundary v) := by
  have hskips : locateSkips v = locateSkips u := by
    obtain ⟨x, rfl⟩ := h
    rfl
  unfold locateBoundary
  rw [hskips]
  split
  · exact h
  · rw [locateRecord_eq, locateRecord_eq]
    exact locateLimits_butChase (locateSettle_butChase (locateTake_butChase h))

/-! ### The locate at a boundary of a FREE chase -/

theorem chaseBoundary_free_butChase {s : State} (h : s.chase.state = .free) : ButChase s (chaseBoundary s) :=
  ⟨_, chaseBoundary_free h⟩

theorem locateFail_state (l : Locate) (s : State) : (locateFail l s).chase.state = s.chase.state := by
  rw [locateFail_eq]
  show (parkNotedAt l.target s.chase).state = _
  unfold parkNotedAt
  split <;> rfl

theorem locateSucceed_state (l : Locate) (s : State) : (locateSucceed l s).chase.state = s.chase.state := by
  rw [locateSucceed_eq]
  show (parkNotedAt l.target s.chase).state = _
  unfold parkNotedAt
  split <;> rfl

/-- A locate's record leaves the state of the chase (R120). -/
theorem locateBoundary_state (s : State) : (locateBoundary s).chase.state = s.chase.state := by
  have take (u : State) : (locateTake u).chase.state = u.chase.state := by
    unfold locateTake
    split <;> rfl
  have settle (u : State) : (locateSettle u).chase.state = u.chase.state := by
    unfold locateSettle
    split
    · split
      · split
        · exact locateSucceed_state _ u
        split
        · exact locateFail_state _ u
        · rfl
      · rfl
    · rfl
  have limits (u : State) : (locateAcquireLimit u).chase.state = u.chase.state
      ∧ (locateEotLimit u).chase.state = u.chase.state ∧ (locateRecordLimit u).chase.state = u.chase.state := by
    unfold locateAcquireLimit locateEotLimit locateRecordLimit
    cases u.tr.locate with
    | none => exact ⟨rfl, rfl, rfl⟩
    | some l =>
      dsimp only
      have ended (p : Prop) [Decidable p] : (if p then locateFail l u else u).chase.state = u.chase.state := by
        split
        · exact locateFail_state l u
        · rfl
      exact ⟨ended _, ended _, ended _⟩
  unfold locateBoundary
  split
  · rfl
  · rw [locateRecord, (limits _).2.2, (limits _).2.1, (limits _).1, settle, take]

theorem locateBoundary_free {s : State} (h : s.chase.state = .free) : (locateBoundary s).chase.state = .free :=
  (locateBoundary_state s).trans h

/-- What O22 asks of the end t of a boundary whose locate has left u. -/
structure LocateEnds (u t : State) : Prop where
  locate : t.tr.locate = u.tr.locate
  command : t.tr.command = u.tr.command
  mark : t.tr.parkedMark = u.tr.parkedMark
  failed : hasFlag t .locateFail = hasFlag u .locateFail

theorem ButChase.locateEnds {u v t : State} (h : ButChase u v) (k : Alike v t) : LocateEnds u t := by
  obtain ⟨x, rfl⟩ := h
  exact ⟨k.locate, k.command, k.mark, k.failed⟩

theorem loseLock_free {s : State} (h : s.chase.state = .free) : loseLock s = s :=
  loseLock_unlocked (by rw [h]; exact ChaseState.noConfusion)

theorem boundaryBegun_free {c : Instr} {s t : State} (h : s.chase.state = .free) :
    boundaryBegun c s t = s.setTime t.time := by
  unfold boundaryBegun
  rw [loseLock_free h, ite_self]

theorem boundary_locates {c : Instr} {l : Locate} {s : State} (hr : Running s) (hm : MakesBoundary c s)
    (hn : NoTimedCue s) (hf : s.chase.state = .free) (hl : s.tr.locate = some l)
    (hk : l.skips ≠ some (s.time.fieldCount + 1)) :
    ∃ t, exec c s = .next t ∧ LocateEnds (locateRecord (positionBoundary (s.setTime t.time))) t := by
  obtain ⟨t, e, hfc, k⟩ := boundary_ends hr hm hn
  rw [boundaryBegun_free hf] at k
  have fp := positionBoundary_frame (s.setTime t.time)
  have hpl : (positionBoundary (s.setTime t.time)).tr.locate = some l := by
    rw [positionBoundary_tr]
    exact hl
  have hpt : (positionBoundary (s.setTime t.time)).time.fieldCount = s.time.fieldCount + 1 :=
    (congrArg Timebase.fieldCount (fp.same .time)).trans hfc
  have hpc : (positionBoundary (s.setTime t.time)).chase.state = .free :=
    (congrArg Chase.state (fp.same .chase)).trans hf
  have hrecord := locateBoundary_acts hpl (hpt ▸ hk)
  refine ⟨t, e, ?_⟩
  rw [← hrecord]
  obtain k | k := k
  · exact (locateBoundary_butChase (chaseBoundary_free_butChase hpc)).locateEnds k
  · exact (chaseBoundary_free_butChase (locateBoundary_free hpc)).locateEnds k

/-- Settles O22: the boundary by the course of its takers, one record phase by phase. -/
theorem locateActsOnRecords : Obligations.LocateActsOnRecords := by
  unfold Obligations.LocateActsOnRecords
  refine ⟨fun c l s hr hm hn hf hl hk => ?_, fun l s hl => ⟨locateBoundary_skips hl, locateBoundary_acts hl⟩, fun l s hl => ?_, fun l s hr hl hp hn => ?_⟩
  · obtain ⟨t, e, k⟩ := boundary_locates hr hm hn hf hl hk
    exact ⟨t, e, k.locate, k.command, k.mark, k.failed⟩
  · intro p dist speed drives forwardAtEot
    have take := take_taken l p s.pins.eot dist
    obtain ⟨hgoes, hsucceeds, hretries, hspent, hlimit, hends⟩ := locateRecord_course hl rfl
    refine ⟨l.take p s.pins.eot dist, locateTake_some hl, take.target, take.attempts, take.records, fun k => ?_,
      fun k => take.still.trans (eotStill_other k _), fun k => (take.drive k).command, fun k hq => (take.acquired k hq).command,
      take.acquiring, take.settle, ?_⟩
    · obtain ⟨he, v, hd, hv⟩ := k
      rw [take.still, he]
      exact eotStill_forward hd hv _
    · intro t settled limit failed
      have far (k : 512 < dist.natAbs) : locateSpeed dist = speed := locateSpeed_eq (by omega)
      refine ⟨fun hs hlim hq => hgoes hs ?_, hsucceeds, fun hs hd ha hlim => ?_, hspent, fun hs hlim => ?_,
        fun hq hn => ?_⟩
      · rintro (⟨h1, h2, -⟩ | h)
        · exact hq ⟨h1, h2⟩
        · exact hlim h
      · have e := hretries hs hd ha hlim
        rw [show (locateDistance l s) = dist from rfl, Locate.retry, far hd] at e
        exact e
      · by_cases k : settled
        · exact hlimit k (Nat.not_le.mp fun h => hs ⟨k, h⟩) hlim
        · exact hends k (.inr hlim)
      · refine hends (fun k => ?_) (.inl ⟨hq, hn, take.none hq⟩)
        exact LocatePhase.noConfusion (hq.symm.trans k.1)
  · intro dist parked
    have e := (exec_locateSettle hr).trans (congrArg Host.Outcome.next
      ((locateSettle_some hl).trans (if_pos ⟨hp, hn.ge⟩)))
    have far (k : 512 < dist.natAbs) : ¬(locateDistance l s).natAbs ≤ 512 := Nat.not_le.mpr k
    have near (k : dist.natAbs ≤ 512) : (locateDistance l s).natAbs ≤ 512 := k
    refine ⟨fun k => ?_, fun k ha => ?_, fun k ha => ?_⟩
    · rw [e, if_pos (near k), locateSucceed_eq]
      rfl
    · rw [e, if_neg (far k), if_neg (by omega), Locate.retry,
        locateSpeed_eq (by show dist ≠ 0; omega)]
      rfl
    · rw [e, if_neg (far k), if_pos (by omega), locateFail_eq]
      rfl

end Sys2Proof.Machine

/-! SUPPORT for O12, O14. The record at a boundary: what the Cue Engine's run makes of it, and the takers that leave it. -/

namespace Sys2Proof.Machine

set_option Elab.async false

/-! ### The run of a record -/

theorem activeRecord_updateRecording {f : Cue → Cue} (h : ∀ c, (f c).recording = c.recording) (s : State) :
    activeRecord (updateCues Cue.recording f s) = (activeRecord s).map f := by
  show (s.cues.list.map fun c => if c.recording then f c else c).find? Cue.recording
    = (s.cues.list.find? Cue.recording).map f
  induction s.cues.list with
  | nil => rfl
  | cons c cs ih =>
    by_cases hc : c.recording = true
    · simp [hc, h]
    · simp [hc, ih]

theorem activeRecord_finished {state : CueState} (h : state ≠ .active) (s : State) :
    activeRecord (updateCues Cue.recording (fun c => c.finishAs state s.time.fieldCount) s) = none := by
  refine List.find?_eq_none.mpr fun d hd => ?_
  obtain ⟨c, -, rfl⟩ := List.mem_map.mp hd
  by_cases hc : c.recording = true
  · rw [if_pos hc, finishAs_not_recording c h]
    exact Bool.false_ne_true
  · rw [if_neg hc]
    exact hc

/-- The record with one less to run (R147). -/
def Cue.lowered (c : Cue) : Cue := { c with remaining := c.remaining - 1 }

/-- The station with its record's count lowered. -/
def recordLowered (s : State) : State := updateCues Cue.recording Cue.lowered s

/-- The record with its readiness judged (R148). -/
def Cue.judged (ready : Bool) (c : Cue) : Cue := { c with notReady := countNotReady ready c.notReady }

/-- The station with its record judged. -/
def recordJudged (ready : Bool) (s : State) : State := updateCues Cue.recording (Cue.judged ready) s

theorem runRecord_eq (ok : Bool) (s : State) : runRecord ok s = judgeRecord ok (recordLengthEnd (recordLowered s)) := rfl

theorem activeRecord_lowered {c : Cue} {s : State} (h : activeRecord s = some c) :
    activeRecord (recordLowered s) = some c.lowered := by
  rw [recordLowered, activeRecord_updateRecording (f := Cue.lowered) (fun _ => rfl), h]
  rfl

theorem activeRecord_judged {ready : Bool} {c : Cue} {s : State} (h : activeRecord s = some c) :
    activeRecord (recordJudged ready s) = some (c.judged ready) := by
  rw [recordJudged, activeRecord_updateRecording (f := Cue.judged ready) (fun _ => rfl), h]
  rfl

theorem judgeRecord_some {ok : Bool} {c : Cue} {s : State} (h : activeRecord s = some c) :
    judgeRecord ok s = notReadyLimit (recordJudged (cueReady ok c.required s) s) := by
  rw [judgeRecord, h]
  rfl

theorem judgeRecord_none {ok : Bool} {s : State} (h : activeRecord s = none) : judgeRecord ok s = s := by
  rw [judgeRecord, h]

/-- The record's length is reached (R147). -/
theorem runRecord_ends {ok : Bool} {c : Cue} {s : State} (h : activeRecord s = some c) (hn : c.remaining ≤ 1) :
    runRecord ok s = punchOut (endActiveRecord (recordLowered s)) := by
  have hz : c.lowered.remaining = 0 := by
    show c.remaining - 1 = 0
    omega
  have hnone : activeRecord (punchOut (endActiveRecord (recordLowered s))) = none :=
    activeRecord_finished (s := recordLowered s) CueState.noConfusion
  rw [runRecord_eq, recordLengthEnd_due (activeRecord_lowered h) hz, judgeRecord_none hnone]

/-- The record goes on to be judged (R148). -/
theorem runRecord_judges {ok : Bool} {c : Cue} {s : State} (h : activeRecord s = some c) (hn : 1 < c.remaining) :
    runRecord ok s = notReadyLimit (recordJudged (cueReady ok c.required s) (recordLowered s)) := by
  have hl := activeRecord_lowered h
  have hrun : recordLengthEnd (recordLowered s) = recordLowered s := by
    refine recordLengthEnd_running fun d hd => ?_
    rw [hl] at hd
    cases hd
    show c.remaining - 1 ≠ 0
    omega
  rw [runRecord_eq, hrun, judgeRecord_some hl]
  rfl

theorem runRecord_goes_on {ok : Bool} {c : Cue} {s : State} (h : activeRecord s = some c) (hn : 1 < c.remaining)
    (hr : countNotReady (cueReady ok c.required s) c.notReady ≠ 3) :
    runRecord ok s = recordJudged (cueReady ok c.required s) (recordLowered s) := by
  rw [runRecord_judges h hn]
  refine notReadyLimit_below fun d hd => ?_
  rw [activeRecord_judged (activeRecord_lowered h)] at hd
  cases hd
  exact hr

/-! ### The takers that leave the record -/

/-- What the takers beside the evaluation and the Cue Engine leave of the record. -/
structure RecordRests (u v : State) : Prop where
  active : activeRecord v = activeRecord u
  lines : v.tr.punch.map Punch.tracks = u.tr.punch.map Punch.tracks
  members : ∀ d ∈ u.cues.list, d.isTransition = false → d ∈ v.cues.list
  aborted : hasFlag v .cueAborted = hasFlag u .cueAborted
  slip : hasFlag v .syncSlip = hasFlag u .syncSlip

theorem RecordRests.refl (u : State) : RecordRests u u := ⟨rfl, rfl, fun _ h _ => h, rfl, rfl⟩

theorem RecordRests.trans {u v w : State} (h : RecordRests u v) (k : RecordRests v w) : RecordRests u w :=
  ⟨k.active.trans h.active, k.lines.trans h.lines, fun d hd ht => k.members d (h.members d hd ht) ht,
    k.aborted.trans h.aborted, k.slip.trans h.slip⟩

/-- The transition cues alone are changed, and none of them records before or after. -/
structure TransitionsOnly (u v : State) : Prop where
  active : activeRecord v = activeRecord u
  members : ∀ d ∈ u.cues.list, d.isTransition = false → d ∈ v.cues.list

theorem TransitionsOnly.refl (u : State) : TransitionsOnly u u := ⟨rfl, fun _ h _ => h⟩

theorem TransitionsOnly.trans {u v w : State} (h : TransitionsOnly u v) (k : TransitionsOnly v w) :
    TransitionsOnly u w := ⟨k.active.trans h.active, fun d hd ht => k.members d (h.members d hd ht) ht⟩

theorem Frame.transitions {w : List Part} {s t : State} (f : Frame w s t) (hw : Part.cues ∉ w := by simp) :
    TransitionsOnly s t := by
  have e : t.cues.list = s.cues.list := f.same .cues hw
  exact ⟨congrArg (List.find? Cue.recording) e, fun d hd _ => by rw [e]; exact hd⟩

theorem transition_not_recording {c : Cue} (h : c.isTransition = true) : c.recording = false := by
  rw [Cue.recording, isTransition_not_record h, Bool.and_false]

theorem updateTransiting {tag : Byte} {f : Cue → Cue} (h : ∀ c, (f c).isTransition = c.isTransition) (s : State) :
    TransitionsOnly s (updateCues (Cue.transiting tag) f s) := by
  refine ⟨activeRecord_updateCues (fun c hc => ?_) s, fun d hd ht => mem_updateCues_kept hd ?_⟩
  · have ht := (transiting_not_record hc).2.2.2
    exact ⟨transition_not_recording ht, transition_not_recording ((h c).trans ht)⟩
  · rw [← Bool.not_eq_true]
    intro k
    rw [(transiting_not_record k).2.2.2] at ht
    cases ht

theorem completeContext_transitions (s : State) : TransitionsOnly s (completeContext s) := by
  have reported (tag : Byte) (u : State) : TransitionsOnly u (reportComplete tag u) := by
    unfold reportComplete
    split
    · exact .refl u
    · exact updateTransiting (fun _ => by exact rfl) u
  unfold completeContext
  split
  · exact .refl s
  · exact (setFader_frame s _).transitions.trans (reported _ _)

theorem completeIfDue_transitions (s : State) : TransitionsOnly s (completeIfDue s) := by
  unfold completeIfDue
  split
  · exact .refl s
  · split
    · exact completeContext_transitions s
    · exact .refl s

theorem failPartner_transitions (k : Context) (s : State) : TransitionsOnly s (failPartner k s) := by
  have marked : TransitionsOnly s
      (updateCues (Cue.transiting k.tag) (fun q => { q with unpaired := true })
        (setFlag .unpaired (s.setFader { s.fader with context := some { k with pair := .unpaired } }))) :=
    ((setFader_frame s _).trans (setFlag_frame _ _)).transitions.trans (updateTransiting (fun _ => by exact rfl) _)
  unfold failPartner
  dsimp only
  split
  · exact marked.trans (completeContext_transitions _)
  · exact marked

theorem advanceContext_transitions (s : State) : TransitionsOnly s (advanceContext s) := by
  have checked (u : State) : TransitionsOnly u (partnerCheck u) := by
    unfold partnerCheck
    split
    · exact .refl u
    · split
      · split
        · exact (setFader_frame u _).transitions
        · exact failPartner_transitions _ u
      · exact .refl u
  unfold advanceContext
  split
  · exact .refl s
  · split
    · exact .refl s
    · exact (setFader_frame s _).transitions.trans (checked _)

theorem faderBoundary_transitions (s : State) : TransitionsOnly s (faderBoundary s) :=
  (((advanceContext_transitions s).trans (formValues_frame _).transitions).trans (completeIfDue_transitions _)).trans
    ((setMix_frame _ _).trans (sendMix_frame _)).transitions

/-- The tracks of the lines are not the tally's (R98). -/
theorem tallyExpiry_lines (s : State) : (tallyExpiry s).tr.punch.map Punch.tracks = s.tr.punch.map Punch.tracks := by
  unfold tallyExpiry
  split
  · next h =>
    split
    · rw [h]; rfl
    · rfl
  · rfl

theorem count_tracks (p : Punch) : p.count.tracks = p.tracks := by
  unfold Punch.count
  split <;> rfl

theorem transportBoundary_lines (s : State) :
    (transportBoundary s).tr.punch.map Punch.tracks = s.tr.punch.map Punch.tracks := by
  have h1 : (servoExpiry (countServo s)).tr.punch = s.tr.punch := (servoExpiry_frame (countServo s)).same .lines
  have h2 : (transportBoundary s).tr.punch = (tallyExpiry (countTally (servoExpiry (countServo s)))).tr.punch := by
    rw [transportBoundary, sendSpeedWord_tr]
  rw [h2, tallyExpiry_lines]
  show ((servoExpiry (countServo s)).tr.punch.map Punch.count).map Punch.tracks = _
  rw [h1, Option.map_map]
  exact congrArg (fun f => s.tr.punch.map f) (funext count_tracks)

/-- The takers beside the evaluation and the Cue Engine. -/
theorem takeBoundary_record {x : Taker} (he : x ≠ .evaluate) (hc : x ≠ .cues) (s : State) :
    RecordRests s (takeBoundary x s) := by
  have f := takeBoundary_frame x s
  have d := takeBoundary_details x s
  have quiet (h1 : Part.cues ∉ takerParts x) (h2 : Part.lines ∉ takerParts x)
      (h3 : Detail.flag .cueAborted ∉ takerDetails x) (h4 : Detail.flag .syncSlip ∉ takerDetails x) :
      RecordRests s (takeBoundary x s) := by
    have hl : (takeBoundary x s).tr.punch = s.tr.punch := f.same .lines h2
    exact ⟨(f.transitions h1).active, by rw [hl], (f.transitions h1).members, d.same (.flag .cueAborted) h3,
      d.same (.flag .syncSlip) h4⟩
  cases x
  case evaluate => exact absurd rfl he
  case cues => exact absurd rfl hc
  case fader =>
    have h := faderBoundary_transitions s
    have hl : (takeBoundary .fader s).tr.punch = s.tr.punch := f.same .lines (by simp [takerParts])
    exact ⟨h.active, by rw [hl], h.members, d.same (.flag .cueAborted) (by simp [takerDetails]),
      d.same (.flag .syncSlip) (by simp [takerDetails])⟩
  case transport =>
    have h := f.transitions (by simp [takerParts])
    exact ⟨h.active, transportBoundary_lines s, h.members, d.same (.flag .cueAborted) (by simp [takerDetails]),
      d.same (.flag .syncSlip) (by simp [takerDetails])⟩
  all_goals exact quiet (by simp [takerParts]) (by simp [takerParts]) (by simp [takerDetails]) (by simp [takerDetails])

theorem runTakers_record {order : List Taker} (he : Taker.evaluate ∉ order) (hc : Taker.cues ∉ order) (s : State) :
    RecordRests s (runTakers order s) :=
  runTakers_induct RecordRests.refl RecordRests.trans
    (fun _ hx u => takeBoundary_record (fun e => he (e ▸ hx)) (fun e => hc (e ▸ hx)) u) s

end Sys2Proof.Machine

/-! O12. The Transport Controller at a boundary. -/

namespace Sys2Proof.Machine

set_option Elab.async false

/-! ### What the Transport Controller makes of a boundary -/

/-- The servo timer after a boundary (R97). -/
def timerAfter (s : State) : Nat :=
  if transportState s = .play ∧ s.pins.servo = false then min 120 (s.tr.servoTimer + 1) else 0

theorem countServo_timer (s : State) : (countServo s).tr.servoTimer = timerAfter s := by
  show (if transportState s = .play ∧ (!s.pins.servo) = true then _ else _) = _
  simp only [timerAfter, Bool.not_eq_true']

/-- The controller before it sends the speed word (R97, R98). -/
def timersTaken (s : State) : State := tallyExpiry (countTally (servoExpiry (countServo s)))

theorem transportBoundary_eq (s : State) : transportBoundary s = sendSpeedWord (timersTaken s) := rfl

theorem servoExpiry_early {s : State} (h : s.tr.servoTimer ≠ 120) : servoExpiry s = s := if_neg fun k => h k.1

theorem timersTaken_fault (s : State) :
    (timerAfter s = 120 → hasFlag (timersTaken s) .transportFault = true)
      ∧ (timerAfter s ≠ 120 → hasFlag (timersTaken s) .transportFault = hasFlag s .transportFault) := by
  have rest : hasFlag (timersTaken s) .transportFault = hasFlag (servoExpiry (countServo s)) .transportFault := by
    refine Eq.trans ((tallyExpiry_details _).same (.flag .transportFault)) ?_
    rfl
  rw [rest]
  refine ⟨fun h => ?_, fun h => ?_⟩
  · have hplay : transportState s = .play ∧ s.pins.servo = false := by
      unfold timerAfter at h
      split at h
      · assumption
      · omega
    have hstate : transportState (countServo s) = .play := hplay.1
    rw [servoExpiry_due ((countServo_timer s).trans h) hstate hplay.2]
    exact hasFlag_setFlag_self _ _
  · rw [servoExpiry_early (by rw [countServo_timer]; exact h)]
    rfl

/-- The lines before the tally is judged. -/
theorem countTally_punch (s : State) :
    (countTally (servoExpiry (countServo s))).tr.punch = s.tr.punch.map Punch.count := by
  have h : (servoExpiry (countServo s)).tr.punch = s.tr.punch := (servoExpiry_frame (countServo s)).same .lines
  show (servoExpiry (countServo s)).tr.punch.map Punch.count = _
  rw [h]

theorem timersTaken_flag {f : Flag} (hf : f ≠ .transportFault) (s : State) :
    hasFlag (countTally (servoExpiry (countServo s))) f = hasFlag s f := by
  have h := (servoExpiry_details (countServo s)).same (.flag f) (by simpa using hf)
  exact h

theorem count_idle {p : Punch} (h : ∀ n, p.tally ≠ .running n) : p.count = p := by
  unfold Punch.count
  split
  · next n k => exact absurd k (h n)
  · rfl
  · rfl

theorem timersTaken_idle {s : State} (h : ∀ tracks n, s.tr.punch ≠ some { tracks := tracks, tally := .running n }) :
    (timersTaken s).tr.punch = s.tr.punch ∧ hasFlag (timersTaken s) .recordFault = hasFlag s .recordFault := by
  have hpunch : (countTally (servoExpiry (countServo s))).tr.punch = s.tr.punch := by
    rw [countTally_punch]
    cases hp : s.tr.punch with
    | none => rfl
    | some p =>
      refine congrArg some (count_idle fun n k => h p.tracks n ?_)
      rw [hp, ← k]
  have e : timersTaken s = countTally (servoExpiry (countServo s)) :=
    tallyExpiry_idle (s := countTally (servoExpiry (countServo s))) (by rw [hpunch]; exact h)
  rw [e]
  exact ⟨hpunch, timersTaken_flag (by decide) s⟩

theorem timersTaken_running {tracks : Tracks} {n : Nat} {s : State}
    (h : s.tr.punch = some { tracks := tracks, tally := .running n }) :
    (n < 3 →
        (timersTaken s).tr.punch = some { tracks := tracks, tally := .running (n + 1) }
          ∧ hasFlag (timersTaken s) .recordFault = hasFlag s .recordFault)
      ∧ (3 ≤ n →
        (timersTaken s).tr.punch = some { tracks := tracks, tally := .expired }
          ∧ hasFlag (timersTaken s) .recordFault = true) := by
  have hpunch : (countTally (servoExpiry (countServo s))).tr.punch
      = some { tracks := tracks, tally := .running (n + 1) } := by
    rw [countTally_punch, h]
    rfl
  have e := tallyExpiry_running hpunch
  rw [timersTaken, e]
  refine ⟨fun k => ?_, fun k => ?_⟩
  · rw [if_neg (by omega)]
    exact ⟨hpunch, timersTaken_flag (by decide) s⟩
  · rw [if_pos (by omega)]
    exact ⟨rfl, hasFlag_setFlag_self _ _⟩

theorem timersTaken_drive (s : State) : drive (timersTaken s) = drive s := by
  have h1 : (servoExpiry (countServo s)).tr = (countServo s).tr := (servoExpiry_frame _).tr
  have h2 := tallyExpiry_tr (countTally (servoExpiry (countServo s)))
  have f : Frame [.transport, .lines, .flags] s (timersTaken s) :=
    ((((countServo_frame s).trans (servoExpiry_frame _)).trans (setTr_frame _ _)).trans (tallyExpiry_frame _)).mono
  have hc : (timersTaken s).tr.command = s.tr.command := by
    rw [timersTaken, h2]
    show (servoExpiry (countServo s)).tr.command = _
    rw [h1]
    rfl
  have hl : (timersTaken s).tr.locate = s.tr.locate := by
    rw [timersTaken, h2]
    show (servoExpiry (countServo s)).tr.locate = _
    rw [h1]
    rfl
  have hp : (timersTaken s).power = s.power := f.same .power
  have hz : (timersTaken s).straps = s.straps := f.same .straps
  have hn : (timersTaken s).pins = s.pins := f.same .pins
  unfold drive wantedDrive
  rw [hc, hl, hp, role_congr hz, hn]

theorem sendSpeedWord_none {s : State} (h : drive s = none) : sendSpeedWord s = stopSpeedWord s := by
  rw [sendSpeedWord, h]

theorem sendSpeedWord_some {d : Command} {s : State} (h : drive s = some d) :
    sendSpeedWord s = s.setTr { s.tr with speedWord := d.word, speedSent := true } := by
  rw [sendSpeedWord, h]

/-- What the Transport Controller has done at a boundary that it took in u (R81, R97, R98). -/
structure TransportTaken (u w : State) : Prop where
  self : w = (u.setTr w.tr).setFlags w.flags
  tr : w.tr =
    { u.tr with
      servoTimer := timerAfter u, punch := w.tr.punch, speedWord := w.tr.speedWord, speedSent := w.tr.speedSent }
  fault : timerAfter u = 120 → hasFlag w .transportFault = true
  sound : timerAfter u ≠ 120 → hasFlag w .transportFault = hasFlag u .transportFault
  idle : (∀ tracks n, u.tr.punch ≠ some { tracks := tracks, tally := .running n }) →
    w.tr.punch = u.tr.punch ∧ hasFlag w .recordFault = hasFlag u .recordFault
  running : ∀ tracks n, u.tr.punch = some { tracks := tracks, tally := .running n } →
    (n < 3 →
        w.tr.punch = some { tracks := tracks, tally := .running (n + 1) }
          ∧ hasFlag w .recordFault = hasFlag u .recordFault)
      ∧ (3 ≤ n → w.tr.punch = some { tracks := tracks, tally := .expired } ∧ hasFlag w .recordFault = true)
  released : drive u = none → w.tr.speedSent = false
  stopped : drive u = some .stop → w.tr.speedWord = 0 ∧ w.tr.speedSent = true
  driven : ∀ v, drive u = some (.speed v) → w.tr.speedWord = v ∧ w.tr.speedSent = true

theorem transportBoundary_taken (u : State) : TransportTaken u (transportBoundary u) := by
  have flags (f : Flag) : hasFlag (transportBoundary u) f = hasFlag (timersTaken u) f :=
    congrArg (BitVec.getLsbD · f.number) ((sendSpeedWord_frame (timersTaken u)).same .flags)
  have punch : (transportBoundary u).tr.punch = (timersTaken u).tr.punch := by
    rw [transportBoundary_eq, sendSpeedWord_tr]
  have htr := transportBoundary_tr u
  rw [countServo_timer] at htr
  obtain ⟨hdue, hearly⟩ := timersTaken_fault u
  refine ⟨Frame.eq (.onto_flags (.onto_tr (transportBoundary_frame u))), htr, fun h => ?_, fun h => ?_, fun h => ?_,
    fun tracks n h => ?_, fun h => ?_, fun h => ?_, fun v h => ?_⟩
  · rw [flags]; exact hdue h
  · rw [flags]; exact hearly h
  · rw [flags, punch]; exact timersTaken_idle h
  · rw [flags, punch]; exact timersTaken_running h
  · rw [transportBoundary_eq, sendSpeedWord_none ((timersTaken_drive u).trans h)]
    rfl
  · rw [transportBoundary_eq, sendSpeedWord_some ((timersTaken_drive u).trans h)]
    exact ⟨rfl, rfl⟩
  · rw [transportBoundary_eq, sendSpeedWord_some ((timersTaken_drive u).trans h)]
    exact ⟨rfl, rfl⟩

end Sys2Proof.Machine

/-! O12. The Transport Controller among the takers of a boundary. -/

namespace Sys2Proof.Machine

set_option Elab.async false

/-! ### A boundary at which the transport rests -/

/-- Nothing of the chase, of a locate and of a timed cue moves the transport. -/
structure DeckRests (s : State) : Prop where
  free : s.chase.state = .free
  idle : s.tr.locate = none
  untimed : NoTimedCue s

theorem recordRun_rests {s : State} (h : RecordGoesOn s) : (recordRun s).tr = s.tr := by
  cases hc : activeRecord s with
  | none => rw [recordRun_none hc]
  | some c =>
    obtain ⟨hn, hr⟩ := h c hc
    have hcount : countNotReady (cueReady s.chase.handed.ready c.required s) c.notReady ≠ 3 := by
      unfold countNotReady
      split <;> omega
    rw [recordRun_some hc, runRecord_goes_on hc hn hcount]
    rfl

/-- What a taker beside the Transport Controller leaves where the deck rests. -/
structure TakerRests (u v : State) : Prop where
  tr : v.tr = u.tr
  rests : DeckRests v

theorem takeBoundary_rests {x : Taker} (hx : x ≠ .transport) {s : State} (h : DeckRests s)
    (hc : x = .cues → RecordGoesOn s) : TakerRests s (takeBoundary x s) := by
  have hn := takeBoundary_untimed x h.untimed
  have quiet (h1 : Part.transport ∉ takerParts x) (h2 : Part.lines ∉ takerParts x) (h3 : Part.chase ∉ takerParts x) :
      TakerRests s (takeBoundary x s) := by
    have e := (takeBoundary_frame x s).tr h1 h2
    exact ⟨e, (congrArg Chase.state ((takeBoundary_frame x s).same .chase h3)).trans h.free,
      (congrArg Transport.locate e).trans h.idle, hn⟩
  cases x
  case transport => exact absurd rfl hx
  case evaluate =>
    have e : takeBoundary .evaluate s = publishChase (freeRecord s.pos.published s) s := chaseBoundary_free h.free
    exact ⟨by rw [e]; rfl, by rw [e]; exact h.free, by rw [e]; exact h.idle, hn⟩
  case locate =>
    have e : takeBoundary .locate s = s := locateBoundary_idle h.idle
    rw [e]
    exact ⟨rfl, h⟩
  case cues =>
    have e : (takeBoundary .cues s).tr = s.tr := by
      show (cueBoundary s).tr = _
      rw [cueBoundary_untimed h.untimed]
      exact recordRun_rests (hc rfl)
    exact ⟨e, (congrArg Chase.state ((cueBoundary_untimed_frame h.untimed).same .chase)).trans h.free,
      (congrArg Transport.locate e).trans h.idle, hn⟩
  all_goals exact quiet (by simp [takerParts]) (by simp [takerParts]) (by simp [takerParts])

theorem evaluate_free_record {s : State} (h : s.chase.state = .free) :
    activeRecord (chaseBoundary s) = activeRecord s := by
  rw [chaseBoundary_free h]
  rfl

theorem takeBoundary_rests_record {x : Taker} (hx : x ≠ .cues) {s : State} (h : DeckRests s) :
    activeRecord (takeBoundary x s) = activeRecord s := by
  by_cases he : x = .evaluate
  · rw [he]
    exact evaluate_free_record h.free
  · exact (takeBoundary_record he hx s).active

theorem RecordGoesOn.congr {s t : State} (h : RecordGoesOn s) (e : activeRecord t = activeRecord s) : RecordGoesOn t :=
  fun c hc => h c (e ▸ hc)

/-- A run without the Transport Controller, in which the Cue Engine finds a record that goes on. -/
theorem runTakers_rests {order : List Taker} (hnd : order.Nodup) (ht : Taker.transport ∉ order) {s : State}
    (h : DeckRests s) (hc : Taker.cues ∈ order → RecordGoesOn s) :
    TakerRests s (runTakers order s)
      ∧ (Taker.cues ∉ order → activeRecord (runTakers order s) = activeRecord s) := by
  induction order generalizing s with
  | nil => exact ⟨⟨rfl, h⟩, fun _ => rfl⟩
  | cons x xs ih =>
    obtain ⟨hx, hnd⟩ := List.nodup_cons.mp hnd
    have hxt : x ≠ .transport := fun e => ht (e ▸ List.mem_cons_self)
    have head := takeBoundary_rests hxt h fun e => hc (e ▸ List.mem_cons_self)
    have hrest : Taker.cues ∈ xs → RecordGoesOn (takeBoundary x s) := fun k =>
      (hc (List.mem_cons_of_mem x k)).congr (takeBoundary_rests_record (x := x) (fun e => hx (by rw [e]; exact k)) h)
    obtain ⟨tail, hrecord⟩ := ih hnd (fun k => ht (List.mem_cons_of_mem x k)) head.rests hrest
    refine ⟨⟨tail.tr.trans head.tr, tail.rests⟩, fun k => ?_⟩
    rw [List.mem_cons, not_or] at k
    exact (hrecord k.2).trans (takeBoundary_rests_record (fun e => k.1 e.symm) h)

/-! ### The state of the deck -/

theorem transportState_of_tr {s t : State} (hz : t.straps = s.straps) (hp : t.pins = s.pins)
    (hl : t.tr.locate = s.tr.locate) (hm : t.tr.parkedMark = s.tr.parkedMark) (hc : t.tr.command = s.tr.command) :
    transportState t = transportState s := by
  unfold transportState
  rw [role_congr hz, hp, hl, hm, hc]

theorem drive_of_tr {s t : State} (hw : t.power = s.power) (hz : t.straps = s.straps) (hp : t.pins = s.pins)
    (hl : t.tr.locate = s.tr.locate) (hc : t.tr.command = s.tr.command) : drive t = drive s := by
  unfold drive wantedDrive
  rw [hw, role_congr hz, hp, hl, hc]

theorem editLines_of_tracks {s t : State} (h : t.tr.punch.map Punch.tracks = s.tr.punch.map Punch.tracks) :
    editLines t = editLines s := by
  have e (u : State) : editLines u = (u.tr.punch.map Punch.tracks).getD 0 := by
    unfold editLines
    split
    · next p hp => rw [hp]; rfl
    · next hp => rw [hp]; rfl
  rw [e, e, h]

theorem positionBoundary_deck (v : State) :
    drive (positionBoundary v) = drive v ∧ transportState (positionBoundary v) = transportState v := by
  have f := positionBoundary_frame v
  have e := positionBoundary_tr v
  exact ⟨drive_of_tr (f.same .power) (f.same .straps) (f.same .pins) (by rw [e]) (by rw [e]),
    transportState_of_tr (f.same .straps) (f.same .pins) (by rw [e]) (by rw [e]) (by rw [e])⟩

/-! ### The boundary about the Transport Controller -/

/-- The boundary of c in s, which ends in t: the controller takes it in u and leaves w. -/
structure TransportRun (c : Instr) (s t u w : State) (rank : Taker → Nat) (pre post : List Taker) : Prop where
  step : exec c s = .next t
  split : SplitAt rank .transport pre post
  before : u = runTakers pre (boundaryStart c s t)
  taken : w = transportBoundary u
  after : t = runTakers post w

theorem boundary_transport {c : Instr} {s : State} (hr : Running s) (hm : MakesBoundary c s) :
    ∃ t u w rank pre post, TransportRun c s t u w rank pre post := by
  obtain ⟨t, rank, e, -, split⟩ := boundary_split hr hm
  obtain ⟨pre, post, h⟩ := takerOrder_split rank .transport
  exact ⟨t, _, _, rank, pre, post, e, h, rfl, rfl, split _ _ _ h⟩

section
variable {c : Instr} {s t u w : State} {rank : Taker → Nat} {pre post : List Taker}
  (h : TransportRun c s t u w rank pre post)
include h

theorem TransportRun.keeps : u.power = s.power ∧ u.straps = s.straps ∧ u.pins = s.pins := by
  have k := runTakers_keeps pre (boundaryStart c s t)
  have f := boundaryStart_frame c s t
  rw [← h.before] at k
  exact ⟨k.power.trans (f.same .power), k.straps.trans (f.same .straps), k.pins.trans (f.same .pins)⟩

theorem TransportRun.ends : t.power = w.power ∧ t.straps = w.straps ∧ t.pins = w.pins := by
  have k := runTakers_keeps post w
  rw [← h.after] at k
  exact ⟨k.power, k.straps, k.pins⟩

/-- A detail that the controller alone writes. -/
theorem TransportRun.detail {d : Detail} (only : ∀ y, d ∈ takerDetails y → y = .transport) (hd : d ≠ .flag .refLost) :
    Detail.Same s u d ∧ Detail.Same w t d := by
  have k1 := (h.split.detail only (boundaryStart c s t)).1
  have k2 := (h.split.detail only w).2
  rw [← h.before] at k1
  rw [← h.after] at k2
  exact ⟨((boundaryStart_details c s t).same d (by simpa using hd)).trans k1, k2⟩

theorem TransportRun.timers : Detail.Same s u .timers ∧ Detail.Same w t .timers :=
  h.detail (fun y k => by cases y <;> simp [takerDetails, fireDetails] at k; rfl) (by decide)

theorem TransportRun.fault : hasFlag u .transportFault = hasFlag s .transportFault
    ∧ hasFlag t .transportFault = hasFlag w .transportFault :=
  h.detail (d := .flag .transportFault) (fun y k => by cases y <;> simp [takerDetails, fireDetails] at k; rfl)
    (by decide)

theorem TransportRun.record : hasFlag u .recordFault = hasFlag s .recordFault
    ∧ hasFlag t .recordFault = hasFlag w .recordFault :=
  h.detail (d := .flag .recordFault) (fun y k => by cases y <;> simp [takerDetails, fireDetails] at k; rfl)
    (by decide)

theorem TransportRun.timer :
    timerAfter u
      = if transportState u = .play ∧ s.pins.servo = false then min 120 (s.tr.servoTimer + 1) else 0 := by
  rw [timerAfter, h.keeps.2.2, h.timers.1.1]

theorem TransportRun.took : TransportTaken u w := h.taken ▸ transportBoundary_taken u

/-- Where no timed cue waits, the deck that the controller finds is in one of the courses of the boundary. -/
theorem TransportRun.course (hn : NoTimedCue s) :
    ∃ x ∈ [boundaryStart c s t, chaseBoundary (positionBoundary (boundaryStart c s t)),
      locateBoundary (positionBoundary (boundaryStart c s t)),
      locateBoundary (chaseBoundary (positionBoundary (boundaryStart c s t))),
      chaseBoundary (locateBoundary (positionBoundary (boundaryStart c s t)))],
      drive u = drive x ∧ transportState u = transportState x := by
  have k := runTakers_course h.split.order (boundaryStart_untimed (c := c) hn t) (.refl _) rfl
  rw [← h.before] at k
  obtain k | ⟨x, hx, k⟩ := k
  · exact ⟨_, by simp, k.drive, k.state⟩
  · obtain rfl | hx := List.mem_cons.mp hx
    · obtain ⟨hd, hs⟩ := positionBoundary_deck (boundaryStart c s t)
      exact ⟨_, List.mem_cons_self, k.drive.trans hd, k.state.trans hs⟩
    · exact ⟨x, List.mem_cons_of_mem _ hx, k.drive, k.state⟩

end

/-- The boundary at which the transport rests, about its controller. -/
theorem TransportRun.rests {c : Instr} {s t u w : State} {rank : Taker → Nat} {pre post : List Taker}
    (h : TransportRun c s t u w rank pre post) (hs : TransportRests s) : u.tr = s.tr ∧ t.tr = w.tr := by
  obtain ⟨hf, hl, hn, hgo⟩ := hs
  have hstart : (boundaryStart c s t).tr = s.tr := (boundaryStart_frame c s t).tr
  have hcues : (boundaryStart c s t).cues.list = s.cues.list := (boundaryStart_frame c s t).same .cues
  have hrec : activeRecord (boundaryStart c s t) = activeRecord s := congrArg (List.find? Cue.recording) hcues
  have hfree : (boundaryStart c s t).chase.state = .free := by
    have hx : loseLock s = s := loseLock_free hf
    unfold boundaryStart
    rw [hx]
    split <;> exact hf
  have hnodup := takerOrder_nodup rank
  rw [h.split.order] at hnodup
  obtain ⟨hpre, hpost, hdisj⟩ := List.nodup_append.mp hnodup
  have begin_rests : DeckRests (boundaryStart c s t) :=
    ⟨hfree, (congrArg Transport.locate hstart).trans hl, boundaryStart_untimed hn t⟩
  obtain ⟨k, hrecord⟩ := runTakers_rests hpre h.split.pre begin_rests fun _ => hgo.congr hrec
  rw [← h.before] at k hrecord
  have frame := transportBoundary_frame u
  have tr := transportBoundary_tr u
  rw [← h.taken] at frame tr
  have mid_rests : DeckRests w :=
    ⟨(congrArg Chase.state (frame.same .chase)).trans k.rests.free, by rw [tr]; exact k.rests.idle,
      frame.waiting.untimed k.rests.untimed⟩
  obtain ⟨k', -⟩ := runTakers_rests (List.nodup_cons.mp hpost).2 h.split.post mid_rests fun hc => by
    have hnot : Taker.cues ∉ pre := fun q => hdisj _ q _ (List.mem_cons_of_mem _ hc) rfl
    exact (hgo.congr hrec).congr (((frame.transitions).active).trans (hrecord hnot))
  rw [← h.after] at k'
  exact ⟨k.tr.trans hstart, k'.tr⟩

/-- Settles O12: the controller's own act at its place among the takers, then what the takers about it leave. -/
theorem boundaryRunsTransport : Obligations.BoundaryRunsTransport := by
  unfold Obligations.BoundaryRunsTransport
  refine ⟨fun c s hr hm => ?_, fun c s hr hm hs => ?_⟩
  · obtain ⟨t, u, w, rank, pre, post, h⟩ := boundary_transport hr hm
    refine ⟨t, u, w, rank, pre, post, h.step, h.split.order, ?_⟩
    intro start timer
    have k := h.took
    have htimer : timerAfter u = timer := h.timer
    obtain ⟨ht1, ht2, ht3⟩ := h.timers.2
    have hw := k.tr
    rw [htimer] at hw
    refine ⟨h.before, h.after, k.self, hw, ht1.trans (by rw [hw]), ht2, ht3, fun q => ?_, fun q => ?_, fun q => ?_,
      fun tracks n q => ?_, fun q => ?_, fun q => ?_, fun v q => ?_, h.course⟩
    · exact h.fault.2.trans (k.fault (htimer.trans q))
    · exact (h.fault.2.trans (k.sound (htimer.trans_ne q))).trans h.fault.1
    · obtain ⟨k1, k2⟩ := k.idle q
      exact ⟨k1, (h.record.2.trans k2).trans h.record.1⟩
    · obtain ⟨k1, k2⟩ := k.running tracks n q
      exact ⟨fun hn => ⟨(k1 hn).1, (h.record.2.trans (k1 hn).2).trans h.record.1⟩,
        fun hn => ⟨(k2 hn).1, h.record.2.trans (k2 hn).2⟩⟩
    · exact ht3.trans (k.released q)
    · exact ⟨ht2.trans (k.stopped q).1, ht3.trans (k.stopped q).2⟩
    · exact ⟨ht2.trans (k.driven v q).1, ht3.trans (k.driven v q).2⟩
  · intro timer
    obtain ⟨t, u, w, rank, pre, post, h⟩ := boundary_transport hr hm
    obtain ⟨hu, ht⟩ := h.rests hs
    obtain ⟨uw, uz, up⟩ := h.keeps
    obtain ⟨tw, tz, tp⟩ := h.ends
    have f := transportBoundary_frame u
    rw [← h.taken] at f
    have k := h.took
    have hstate : transportState u = transportState s := transportState_of_tr uz up (by rw [hu]) (by rw [hu]) (by rw [hu])
    have hdrive : drive u = drive s := drive_of_tr uw uz up (by rw [hu]) (by rw [hu])
    have htimer : timerAfter u = timer := by
      rw [h.timer, hstate]
    have hw := k.tr
    rw [htimer, hu, ← ht] at hw
    have hz : t.straps = s.straps := (tz.trans (f.same .straps)).trans uz
    have hp : t.pins = s.pins := (tp.trans (f.same .pins)).trans up
    have hpow : t.power = s.power := (tw.trans (f.same .power)).trans uw
    refine ⟨t, h.step, hw, transportState_of_tr hz hp (by rw [hw]) (by rw [hw]) (by rw [hw]),
      drive_of_tr hpow hz hp (by rw [hw]) (by rw [hw]), editLines_of_tracks ?_, fun q => ?_, fun q => ?_, fun q => ?_,
      fun tracks n q => ?_, fun q => ?_, fun q => ?_, fun v q => ?_⟩
    · rw [ht, h.taken, transportBoundary_lines, hu]
    · exact h.fault.2.trans (k.fault (htimer.trans q))
    · exact (h.fault.2.trans (k.sound (htimer.trans_ne q))).trans h.fault.1
    · obtain ⟨k1, k2⟩ := k.idle (hu ▸ q)
      rw [ht, k1, hu]
      exact ⟨rfl, (h.record.2.trans k2).trans h.record.1⟩
    · obtain ⟨k1, k2⟩ := k.running tracks n (hu ▸ q)
      rw [ht]
      exact ⟨fun hn => ⟨(k1 hn).1, (h.record.2.trans (k1 hn).2).trans h.record.1⟩,
        fun hn => ⟨(k2 hn).1, h.record.2.trans (k2 hn).2⟩⟩
    · rw [ht]
      exact k.released (hdrive.trans q)
    · rw [ht]
      exact k.stopped (hdrive.trans q)
    · rw [ht]
      exact k.driven v (hdrive.trans q)

end Sys2Proof.Machine

/-! O14. The crossing test, and the timed cues that fire at a boundary. -/

namespace Sys2Proof.Machine

set_option Elab.async false

/-! ### The crossing test -/

theorem day_eq (x : Standard) : x.day = 512 * x.fpd := Nat.mul_comm _ _

theorem forwardDistance_eq {x : Standard} {p0 p1 : Nat} (h0 : p0 < x.day) (h1 : p1 < x.day) :
    forwardDistance x p0 p1 = if p0 ≤ p1 then p1 - p0 else p1 + x.day - p0 := by
  unfold forwardDistance
  split
  · rw [Int.emod_eq_of_lt (by omega) (by omega)]
    omega
  · have e : ((p1 : Int) - p0) % x.day = (p1 : Int) - p0 + x.day := by
      rw [← Int.add_emod_right, Int.emod_eq_of_lt (by omega) (by omega)]
    rw [e]
    omega

theorem crossed_unusable (x : Standard) (p : Option Nat) (frame : Nat) :
    crossed x none p frame = false ∧ crossed x p none frame = false := by
  cases p <;> exact ⟨rfl, rfl⟩

theorem crossed_iff {x : Standard} {p0 p1 frame : Nat} (h0 : p0 < x.day) (h1 : p1 < x.day) (hf : frame < x.fpd) :
    crossed x (some p0) (some p1) frame = true
      ↔ 0 < (if p0 ≤ p1 then p1 - p0 else p1 + x.day - p0)
        ∧ (if p0 ≤ p1 then p1 - p0 else p1 + x.day - p0) ≤ 1024
        ∧ 0 < (if p0 ≤ 512 * frame then 512 * frame - p0 else 512 * frame + x.day - p0)
        ∧ (if p0 ≤ 512 * frame then 512 * frame - p0 else 512 * frame + x.day - p0)
          ≤ (if p0 ≤ p1 then p1 - p0 else p1 + x.day - p0) := by
  have h512 : 512 * frame < x.day := by
    rw [day_eq]
    omega
  unfold crossed
  dsimp only
  rw [forwardDistance_eq h0 h1, forwardDistance_eq h0 h512]
  simp only [Bool.and_eq_true, decide_eq_true_eq, and_assoc]

/-! ### What a fire leaves of the other cues -/

theorem MapsCues.comp {P Q R : Cue → Cue → Prop} (h : ∀ c d e, P c d → Q d e → R c e) {s t u : State}
    (hp : MapsCues P s t) (hq : MapsCues Q t u) : MapsCues R s u := by
  obtain ⟨f, hf, hr⟩ := hp
  obtain ⟨g, hg, kr⟩ := hq
  refine ⟨g ∘ f, by rw [hg, hf, List.map_map], fun c hc => h _ _ _ (hr c hc) (kr _ ?_)⟩
  rw [hf]
  exact List.mem_map_of_mem hc

/-- A cue of the tag may change; of another tag one that waits stays as it is, and no cue comes to wait. -/
structure Touches (tag : Byte) (c d : Cue) : Prop where
  same : d.tag = c.tag
  waits : c.tag ≠ tag → c.state = .waiting → d = c
  past : c.state ≠ .waiting → d.state ≠ .waiting

/-- And a cue of the tag waits no longer. -/
structure Fires (tag : Byte) (c d : Cue) : Prop extends Touches tag c d where
  fires : c.tag = tag → d.state ≠ .waiting

variable {tag : Byte} {c d e : Cue}

theorem GoesOn.touches (h : GoesOn c d) : Touches tag c d := ⟨h.tag, fun _ => h.waits, h.past⟩

theorem Touches.trans (h : Touches tag c d) (k : Touches tag d e) : Touches tag c e := by
  refine ⟨k.same.trans h.same, fun ht hw => ?_, fun hn => k.past (h.past hn)⟩
  have hd := h.waits ht hw
  rw [k.waits (by rw [hd]; exact ht) (by rw [hd]; exact hw), hd]

theorem Fires.after (h : Touches tag c d) (k : Fires tag d e) : Fires tag c e :=
  ⟨h.trans k.toTouches, fun ht => k.fires (h.same.trans ht)⟩

theorem Fires.goes (h : Fires tag c d) (k : GoesOn d e) : Fires tag c e :=
  ⟨h.toTouches.trans k.touches, fun ht => k.past (h.fires ht)⟩

/-- The cues of a tag have fired between s and t. -/
abbrev FiresTag (tag : Byte) (s t : State) : Prop := MapsCues (Fires tag) s t

abbrev TouchesTag (tag : Byte) (s t : State) : Prop := MapsCues (Touches tag) s t

variable {s t u : State}

theorem FiresTag.after (h : TouchesTag tag s t) (k : FiresTag tag t u) : FiresTag tag s u :=
  MapsCues.comp (P := Touches tag) (Q := Fires tag) (fun _ _ _ => Fires.after) h k

theorem FiresTag.goes (h : FiresTag tag s t) (k : WaitingFrom t u) : FiresTag tag s u :=
  MapsCues.comp (P := Fires tag) (Q := GoesOn) (fun _ _ _ => Fires.goes) h k

theorem WaitingFrom.touches (h : WaitingFrom s t) : TouchesTag tag s t := h.weaken fun _ _ => GoesOn.touches

/-- A change of the cues that wait under a tag, after which none waits. -/
theorem updateWaiting_fires {f : Cue → Cue} (ht : ∀ c, (f c).tag = c.tag) (h : ∀ c, (f c).state ≠ .waiting) (tag : Byte)
    (s : State) : FiresTag tag s (updateCues (Cue.waitingFor tag) f s) := by
  refine ⟨fun c => if c.waitingFor tag then f c else c, rfl, fun c _ => ?_⟩
  dsimp only
  split
  · next k =>
    have ⟨k1, k2⟩ := waitingFor_iff.mp k
    exact ⟨⟨ht c, fun hn => absurd k1 hn, fun _ => h c⟩, fun _ => h c⟩
  · next k => exact ⟨⟨rfl, fun _ _ => rfl, id⟩, fun hg hw => k (waitingFor_iff.mpr ⟨hg, hw⟩)⟩

theorem finishWaiting_fires {state : CueState} (h : state ≠ .waiting) (tag : Byte) (s : State) :
    FiresTag tag s (finishWaiting tag state s) :=
  updateWaiting_fires (fun _ => by exact rfl) (fun _ => by exact h) tag s

theorem activate_fires (tag : Byte) (remaining : Nat) (s : State) : FiresTag tag s (activate tag remaining s) :=
  updateWaiting_fires (fun _ => by exact rfl) (fun _ => by exact CueState.noConfusion) tag s

theorem slipAtFire_touches (tag : Byte) (s : State) : TouchesTag tag s (slipAtFire tag s) := by
  refine ⟨fun c => if c.waitingFor tag then { c with slipped := true } else c, rfl, fun c _ => ?_⟩
  dsimp only
  split
  · next k => exact ⟨rfl, fun hn => absurd (waitingFor_iff.mp k).1 hn, id⟩
  · exact ⟨rfl, fun _ _ => rfl, id⟩

theorem answerPunch_waiting (tag : Byte) (a : PunchAnswer) (s : State) : WaitingFrom s (answerPunch tag a s) := by
  have active (c : Cue) (h : (decide (c.tag = tag) && c.recording) = true) : c.state = .active :=
    recording_active (Bool.and_eq_true_iff.mp h).2
  unfold answerPunch
  split
  · exact .refl s
  · exact updateCues_waiting active (fun _ => by exact rfl) (fun _ k => by exact active_ne_waiting k) s
  · exact (finishAs_waiting active CueState.noConfusion _ s).trans (setFlag_frame _ _).waiting

theorem fireRecord_fires (tag : Byte) (tracks : Tracks) (length : Nat) (s : State) :
    FiresTag tag s (fireRecord tag tracks length s) := by
  rw [fireRecord_eq]
  exact ((FiresTag.after (endActiveRecord_waiting s).touches (activate_fires tag (2 * length) _)).goes
    (punchIn_frame _ _).waiting).goes (answerPunch_waiting _ _ _)

theorem startContext_waiting (tag : Byte) (hard : Bool) (p : TransParams) (s : State) :
    WaitingFrom s (startContext tag hard p s) := by
  unfold startContext placeContext
  exact ((((completeContext_waiting s).trans (setFader_frame _ _).waiting).trans (formValues_frame _).waiting).trans
    (completeIfDue_waiting _)).trans (sendMix_frame _).waiting

theorem fireTransition_fires (tag : Byte) (hard : Bool) (p : TransParams) (s : State) :
    FiresTag tag s (fireTransition tag hard p s) :=
  (FiresTag.after (completeContext_waiting s).touches (activate_fires tag 0 _)).goes (startContext_waiting _ _ _ _)

theorem actAtOnce_waiting (action : CueAction) (s : State) : WaitingFrom s (actAtOnce action s) := by
  have disabled : WaitingFrom s (disableChase s) := (disableChase_frame s).waiting
  unfold actAtOnce
  split
  · exact disabled.trans (takeCommand_waiting _ _)
  · exact disabled.trans (takeCommand_waiting _ _)
  · exact disabled.trans (giveLocate_waiting _ _ _)
  · exact (updateOutput_frame _ _ s).waiting
  · exact (pushMark_frame _ s).waiting
  · exact .refl s
  · exact .refl s

theorem fireJudged_maps {ownOk : Bool} {c : Cue} {make : State → State} (h : ∀ u, FiresTag c.tag u (make u)) (s : State) :
    FiresTag c.tag s (fireJudged ownOk c make s) := by
  unfold fireJudged
  split
  · exact h s
  · split
    · exact (finishWaiting_fires CueState.noConfusion _ s).goes (setFlag_frame _ _).waiting
    · exact FiresTag.after (slipAtFire_touches _ s) (h _)

/-- A fire makes the cue of its tag wait no longer and leaves every other that waits (R144). -/
theorem fireCue_maps (ownOk : Bool) (c : Cue) (s : State) : FiresTag c.tag s (fireCue ownOk c s) := by
  have atOnce : FiresTag c.tag s (actAtOnce c.action (finishWaiting c.tag .done s)) :=
    (finishWaiting_fires CueState.noConfusion _ s).goes (actAtOnce_waiting _ _)
  cases h : c.action with
  | record tracks length => rw [fireCue_record h]; exact fireJudged_maps (fun u => fireRecord_fires _ _ _ u) s
  | transition p => rw [fireCue_transition h]; exact fireJudged_maps (fun u => fireTransition_fires _ _ _ u) s
  | transport x =>
    rw [fireCue_transport h, ← h]
    exact atOnce
  | gpiPulse line width =>
    rw [h] at atOnce
    rw [fireCue_pulse h]
    exact atOnce
  | mark =>
    rw [h] at atOnce
    rw [fireCue_mark h]
    exact atOnce

end Sys2Proof.Machine

/-! O14. The timed cues at a boundary. -/

namespace Sys2Proof.Machine

set_option Elab.async false

/-! ### The cues tested one after another -/

/-- A cue of the tag that waits no longer. -/
def PastWaiting (tag : Byte) (s : State) : Prop := ∃ d ∈ s.cues.list, d.tag = tag ∧ d.state ≠ .waiting

/-- The tags of the list are all different (R132). -/
def TagsDiffer (s : State) : Prop := (s.cues.list.map Cue.tag).Nodup

section
variable {tag : Byte} {s t : State}

theorem TouchesTag.tags (h : TouchesTag tag s t) : t.cues.list.map Cue.tag = s.cues.list.map Cue.tag := by
  obtain ⟨f, hf, hr⟩ := h
  rw [hf, List.map_map]
  exact List.map_congr_left fun c hc => (hr c hc).same

theorem TouchesTag.differ (h : TouchesTag tag s t) (k : TagsDiffer s) : TagsDiffer t := by
  unfold TagsDiffer
  rw [h.tags]
  exact k

theorem TouchesTag.past (h : TouchesTag tag s t) {g : Byte} (k : PastWaiting g s) : PastWaiting g t := by
  obtain ⟨f, hf, hr⟩ := h
  obtain ⟨d, hd, hg, hw⟩ := k
  exact ⟨f d, by rw [hf]; exact List.mem_map_of_mem hd, (hr d hd).same.trans hg, (hr d hd).past hw⟩

theorem TouchesTag.kept (h : TouchesTag tag s t) {q : Cue} (hq : q ∈ s.cues.list) (ht : q.tag ≠ tag)
    (hw : q.state = .waiting) : q ∈ t.cues.list := by
  obtain ⟨f, hf, hr⟩ := h
  rw [hf, ← (hr q hq).waits ht hw]
  exact List.mem_map_of_mem hq

theorem FiresTag.touches (h : FiresTag tag s t) : TouchesTag tag s t := h.weaken fun _ _ k => k.toTouches

theorem FiresTag.fired (h : FiresTag tag s t) {q : Cue} (hq : q ∈ s.cues.list) (ht : q.tag = tag) :
    PastWaiting tag t := by
  obtain ⟨f, hf, hr⟩ := h
  exact ⟨f q, by rw [hf]; exact List.mem_map_of_mem hq, (hr q hq).same.trans ht, (hr q hq).fires ht⟩

theorem WaitingFrom.kept (h : WaitingFrom s t) {q : Cue} (hq : q ∈ s.cues.list) (hw : q.state = .waiting) :
    q ∈ t.cues.list := by
  obtain ⟨f, hf, hr⟩ := h
  rw [hf, ← (hr q hq).waits hw]
  exact List.mem_map_of_mem hq

end

section
variable {ok : Bool} {due : Cue → Bool}

/-- A test fires the cue of its tag, or does nothing (R141). -/
theorem fireIfDue_cases (s : State) (c : Cue) :
    fireIfDue ok due s c = s
      ∨ ∃ q ∈ s.cues.list, q.tag = c.tag ∧ due q = true ∧ fireIfDue ok due s c = fireCue ok q s := by
  unfold fireIfDue
  split
  · next q hq =>
    split
    · next k =>
      rw [Bool.and_eq_true, decide_eq_true_eq] at k
      have ht : q.tag = c.tag := by simpa using List.find?_some hq
      exact .inr ⟨q, List.mem_of_find?_eq_some hq, ht, k.2, rfl⟩
    · exact .inl rfl
  · exact .inl rfl

theorem fireIfDue_touches (s : State) (c : Cue) : TouchesTag c.tag s (fireIfDue ok due s c) := by
  obtain e | ⟨q, -, ht, -, e⟩ := fireIfDue_cases (ok := ok) (due := due) s c
  · rw [e]
    exact (WaitingFrom.refl s).touches
  · rw [e, ← ht]
    exact (fireCue_maps ok q s).touches

theorem eq_of_tags {s : State} (hd : TagsDiffer s) {c d : Cue} (hc : c ∈ s.cues.list) (hx : d ∈ s.cues.list)
    (h : c.tag = d.tag) : c = d := List.inj_on_of_nodup_map hd hc hx h

theorem fireIfDue_early {s : State} (hd : TagsDiffer s) {q : Cue} (hq : q ∈ s.cues.list) (hw : q.state = .waiting)
    (hn : due q = false) (c : Cue) : q ∈ (fireIfDue ok due s c).cues.list := by
  obtain e | ⟨x, hx, -, hdue, e⟩ := fireIfDue_cases (ok := ok) (due := due) s c
  · rw [e]
    exact hq
  · rw [e]
    refine (fireCue_maps ok x s).touches.kept hq (fun ht => ?_) hw
    rw [eq_of_tags hd hq hx ht, hdue] at hn
    cases hn

theorem findCue_of_tags {s : State} (hd : TagsDiffer s) {q : Cue} (hq : q ∈ s.cues.list) : findCue q.tag s = some q := by
  have hs : (findCue q.tag s).isSome = true := by
    rw [findCue, List.find?_isSome]
    exact ⟨q, hq, by simp⟩
  obtain ⟨x, hx⟩ := Option.isSome_iff_exists.mp hs
  have ht : x.tag = q.tag := by simpa using List.find?_some hx
  rw [hx, eq_of_tags hd (List.mem_of_find?_eq_some hx) hq ht]

theorem fireIfDue_due {s : State} (hd : TagsDiffer s) {q : Cue} (hq : q ∈ s.cues.list) (hw : q.state = .waiting)
    (hy : due q = true) {c : Cue} (ht : c.tag = q.tag) : PastWaiting q.tag (fireIfDue ok due s c) := by
  have e : fireIfDue ok due s c = fireCue ok q s := by
    rw [fireIfDue, ht, findCue_of_tags hd hq]
    exact if_pos (by rw [hy, hw]; rfl)
  rw [e]
  exact (fireCue_maps ok q s).fired hq rfl

/-- The tests of a list of cues (R141). -/
theorem fireList_past (cs : List Cue) {s : State} {g : Byte} (h : PastWaiting g s) :
    PastWaiting g (cs.foldl (fireIfDue ok due) s) := by
  induction cs generalizing s with
  | nil => exact h
  | cons c cs ih => exact ih ((fireIfDue_touches s c).past h)

theorem fireList_early (cs : List Cue) {s : State} (hd : TagsDiffer s) {q : Cue} (hq : q ∈ s.cues.list)
    (hw : q.state = .waiting) (hn : due q = false) : q ∈ (cs.foldl (fireIfDue ok due) s).cues.list := by
  induction cs generalizing s with
  | nil => exact hq
  | cons c cs ih => exact ih ((fireIfDue_touches s c).differ hd) (fireIfDue_early hd hq hw hn c)

theorem fireList_due {cs : List Cue} {s : State} (hd : TagsDiffer s) {q : Cue} (hq : q ∈ s.cues.list)
    (hw : q.state = .waiting) (hy : due q = true) (hc : q ∈ cs) :
    PastWaiting q.tag (cs.foldl (fireIfDue ok due) s) := by
  induction cs generalizing s with
  | nil => cases hc
  | cons c cs ih =>
    by_cases ht : c.tag = q.tag
    · exact fireList_past cs (fireIfDue_due hd hq hw hy ht)
    · have hmem : q ∈ cs := (List.mem_cons.mp hc).resolve_left fun e => ht (by rw [e])
      exact ih ((fireIfDue_touches s c).differ hd) ((fireIfDue_touches s c).kept hq (fun e => ht e.symm) hw) hmem

end

/-! ### The Cue Engine -/

theorem runEarlier_waiting (ok : Bool) (before : Option Cue) (s : State) : WaitingFrom s (runEarlier ok before s) := by
  unfold runEarlier
  split
  · split
    · exact runRecord_waiting ok s
    · exact .refl s
  · exact .refl s

/-- A cue's point is crossed at a boundary, in the samples that the Cue Engine finds. -/
def dueAt (s : State) (q : Cue) : Bool := timedDue (std s) s.cues (ownSampleNow s) (leadSampleNow s) q

theorem cueBoundary_early {s : State} (hd : TagsDiffer s) {q : Cue} (hq : q ∈ s.cues.list) (hw : q.state = .waiting)
    (hn : dueAt s q = false) : q ∈ (cueBoundary s).cues.list := by
  have h : q ∈ (fireTimed s.chase.handed.ready (dueAt s) s).cues.list := fireList_early _ hd hq hw hn
  exact (runEarlier_waiting _ _ _).kept h hw

theorem cueBoundary_due {s : State} (hd : TagsDiffer s) {q : Cue} (hq : q ∈ s.cues.list) (hw : q.state = .waiting)
    (hy : dueAt s q = true) : PastWaiting q.tag (cueBoundary s) := by
  have h : PastWaiting q.tag (fireTimed s.chase.handed.ready (dueAt s) s) := fireList_due hd hq hw hy hq
  exact (WaitingFrom.touches (tag := q.tag) (runEarlier_waiting _ _ _)).past h

theorem timedDue_iff {x : Standard} {e : CueEngine} {a b : Option Nat} {q : Cue} :
    timedDue x e a b q = true
      ↔ ∃ f, (q.trigger = .own f ∧ crossed x e.ownSample a f = true)
        ∨ (q.trigger = .lead f ∧ crossed x e.leadSample b f = true) := by
  unfold timedDue
  split <;> simp_all

/-! ### Among the takers -/

theorem takeBoundary_waiting {x : Taker} (hx : x ≠ .cues) (s : State) : WaitingFrom s (takeBoundary x s) := by
  have quiet (hp : Part.cues ∉ takerParts x) : WaitingFrom s (takeBoundary x s) := (takeBoundary_frame x s).waiting hp
  cases x
  case cues => exact absurd rfl hx
  case evaluate => exact chaseBoundary_waiting s
  case fader => exact faderBoundary_waiting s
  all_goals exact quiet (by simp [takerParts])

theorem runTakers_waiting {order : List Taker} (h : Taker.cues ∉ order) (s : State) :
    WaitingFrom s (runTakers order s) :=
  runTakers_induct WaitingFrom.refl WaitingFrom.trans (fun _ hx u => takeBoundary_waiting (fun e => h (e ▸ hx)) u) s

theorem takeBoundary_published {x : Taker} (hx : x ≠ .publish) (s : State) :
    (takeBoundary x s).pos.published = s.pos.published := by
  have quiet (hp : Part.pos ∉ takerParts x) : (takeBoundary x s).pos.published = s.pos.published :=
    congrArg Position.published ((takeBoundary_frame x s).same .pos hp)
  cases x
  case publish => exact absurd rfl hx
  case setVirtual => exact (setVirtual_alike s).published
  all_goals exact quiet (by simp [takerParts])

theorem runTakers_publication {order : List Taker} (h : Taker.publish ∉ order) (s : State) :
    (runTakers order s).pos.published = s.pos.published :=
  runTakers_induct (R := fun u v => v.pos.published = u.pos.published) (fun _ => rfl) (fun h k => k.trans h)
    (fun _ hx u => takeBoundary_published (fun e => h (e ▸ hx)) u) s

/-- The boundary of c in s, which ends in t: the Cue Engine takes it in v. -/
structure CueRun (c : Instr) (s t v : State) (rank : Taker → Nat) (pre post : List Taker) : Prop where
  step : exec c s = .next t
  field : t.time.fieldCount = s.time.fieldCount + 1
  split : SplitAt rank .cues pre post
  before : v = runTakers pre (boundaryStart c s t)
  after : t = runTakers post (cueBoundary v)

theorem boundary_cues {c : Instr} {s : State} (hr : Running s) (hm : MakesBoundary c s) :
    ∃ t v rank pre post, CueRun c s t v rank pre post := by
  obtain ⟨t, rank, e, hfc, split⟩ := boundary_split hr hm
  obtain ⟨pre, post, h⟩ := takerOrder_split rank .cues
  exact ⟨t, _, rank, pre, post, e, hfc, h, rfl, split _ _ _ h⟩

theorem publish_before_cues (rank : Taker → Nat) : [Taker.publish, .cues].Sublist (takerOrder rank) :=
  takerOrder_before ((Nat.le_max_left _ _).trans (Nat.le_max_left _ _)) (by simp [allTakers])

theorem cueBoundary_keeps (v : State) : BoundaryKeeps v (cueBoundary v) := takeBoundary_keeps .cues v

section
variable {c : Instr} {s t v : State} {rank : Taker → Nat} {pre post : List Taker}
  (h : CueRun c s t v rank pre post)
include h

theorem CueRun.keeps : v.straps = s.straps ∧ v.time = t.time := by
  have k := runTakers_keeps pre (boundaryStart c s t)
  rw [← h.before] at k
  exact ⟨k.straps.trans ((boundaryStart_frame c s t).same .straps), k.time⟩

theorem CueRun.samples : v.cues.ownSample = s.cues.ownSample ∧ v.cues.leadSample = s.cues.leadSample := by
  have k := (h.split.part (p := .samples) (fun y k => by cases y <;> simp [takerParts] at k; rfl)
    (boundaryStart c s t)).1
  rw [← h.before] at k
  exact ((boundaryStart_frame c s t).same .samples).trans k

theorem CueRun.published : t.pos.published = v.pos.published := by
  have hp := (h.split.before (publish_before_cues rank)).2
  rw [h.after, runTakers_publication hp]
  exact takeBoundary_published (x := .cues) Taker.noConfusion v

theorem CueRun.handed : t.chase.handed = v.chase.handed := by
  have he := (h.split.before (evaluate_before_cues rank)).2
  have k := runTakers_detail .handed (order := post) (fun y hy q => he (by
    cases y <;> simp [takerDetails, fireDetails] at q
    exact hy)) (cueBoundary v)
  rw [← h.after] at k
  exact Eq.trans k ((cueBoundary_details v).same .handed (by decide))

theorem CueRun.sampled : t.cues.ownSample = ownSampleNow v ∧ t.cues.leadSample = leadSampleNow v := by
  have k := (h.split.part (p := .samples) (fun y k => by cases y <;> simp [takerParts] at k; rfl) (cueBoundary v)).2
  rw [← h.after] at k
  exact k

theorem CueRun.dueAt_iff (q : Cue) :
    dueAt v q = true
      ↔ ∃ f, (q.trigger = .own f ∧ crossed (std s) s.cues.ownSample t.cues.ownSample f = true)
        ∨ (q.trigger = .lead f ∧ crossed (std s) s.cues.leadSample t.cues.leadSample f = true) := by
  have hstd : std v = std s := congrArg standardOf h.keeps.1
  rw [dueAt, timedDue_iff, hstd, h.samples.1, h.samples.2, h.sampled.1, h.sampled.2]

theorem CueRun.waits : WaitingFrom s v := by
  rw [h.before]
  exact (boundaryStart_frame c s t).waiting.trans (runTakers_waiting h.split.pre _)

theorem CueRun.rests : WaitingFrom (cueBoundary v) t := by
  have k := runTakers_waiting h.split.post (cueBoundary v)
  rwa [← h.after] at k

/-- The timed cues of a boundary (R141). -/
theorem CueRun.timed (hs : CueListSound s) {q : Cue} (hq : q ∈ s.cues.list) (hw : q.state = .waiting) :
    (dueAt v q = true → PastWaiting q.tag t) ∧ (dueAt v q = false → q ∈ t.cues.list) := by
  have hd : TagsDiffer v := (WaitingFrom.touches (tag := 0) h.waits).differ hs.2.1
  have hqv := h.waits.kept hq hw
  exact ⟨fun hy => (WaitingFrom.touches (tag := q.tag) h.rests).past (cueBoundary_due hd hqv hw hy),
    fun hn => h.rests.kept (cueBoundary_early hd hqv hw hn) hw⟩

end

end Sys2Proof.Machine

/-! O14. The ACTIVE RECORD cue at a boundary. -/

namespace Sys2Proof.Machine

set_option Elab.async false

/-! ### A record broken -/

theorem activeRecord_aborted (s : State) : activeRecord (abortActiveRecord s) = none := by
  unfold abortActiveRecord
  split
  · exact activeRecord_finished (s := s) CueState.noConfusion
  · next h => simpa using h

/-- The record is broken, with its lines and its flag (R96). -/
structure RecordOut (s : State) : Prop where
  none : activeRecord s = none
  lines : s.tr.punch = .none
  flag : hasFlag s .cueAborted = true

/-- What a change makes of an ACTIVE RECORD cue: it leaves the record with its lines, or breaks it. -/
structure RecordJudged (s t : State) : Prop where
  running : ∀ q, activeRecord s = some q → (activeRecord t = some q ∧ t.tr.punch = s.tr.punch) ∨ RecordOut t
  out : RecordOut s → RecordOut t

theorem RecordJudged.refl (s : State) : RecordJudged s s := ⟨fun _ h => .inl ⟨h, rfl⟩, id⟩

theorem RecordJudged.trans {s t u : State} (h : RecordJudged s t) (k : RecordJudged t u) : RecordJudged s u := by
  refine ⟨fun q hq => ?_, k.out ∘ h.out⟩
  obtain ⟨h1, h2⟩ | h1 := h.running q hq
  · exact (k.running q h1).imp (fun p => ⟨p.1, p.2.trans h2⟩) id
  · exact .inr (k.out h1)

/-- A change beside the cues, the lines and the flags. -/
theorem RecordJudged.of_same {s t : State} (hc : t.cues.list = s.cues.list) (hp : t.tr.punch = s.tr.punch)
    (hf : t.flags = s.flags) : RecordJudged s t := by
  have e : activeRecord t = activeRecord s := congrArg (List.find? Cue.recording) hc
  exact ⟨fun q hq => .inl ⟨e.trans hq, hp⟩, fun h => ⟨e.trans h.none, hp.trans h.lines, by
    unfold hasFlag; rw [hf]; exact h.flag⟩⟩

theorem breakRecord_judged (s : State) : RecordJudged s (breakRecord s) := by
  by_cases h : s.tr.punch = none ∨ transportState s = .play
  · rw [breakRecord_kept h]
    exact .refl s
  · rw [not_or] at h
    have e : breakRecord s = abortActiveRecord (punchOut s) :=
      breakRecord_out (Option.isSome_iff_ne_none.mpr h.1) h.2
    rw [e]
    refine ⟨fun q hq => .inr ⟨activeRecord_aborted _, (abortActiveRecord_frame _).same .lines, ?_⟩,
      fun k => absurd k.lines h.1⟩
    have hact : activeRecord (punchOut s) = some q := hq
    rw [abortActiveRecord_active hact]
    exact hasFlag_setFlag_self _ _

theorem takeCommand_judged (c : Command) (s : State) : RecordJudged s (takeCommand c s) := by
  cases h : deckReady s
  · rw [takeCommand_of_not_ready h]
    exact .refl s
  · rw [takeCommand_ready h]
    exact (RecordJudged.of_same (s := s) (t := commanded c s) rfl rfl rfl).trans (breakRecord_judged _)

theorem giveLocate_judged (skips : Option Word16) (target : Nat) (s : State) :
    RecordJudged s (giveLocate skips target s) := by
  cases h : deckReady s
  · rw [giveLocate_of_not_ready h]
    exact .refl s
  · cases hl : s.tr.locate with
    | some l =>
      rw [giveLocate_retarget h hl]
      exact .of_same rfl rfl rfl
    | none =>
      rw [giveLocate_start h hl]
      exact (RecordJudged.of_same (s := s) (t := located skips target s) rfl rfl rfl).trans (breakRecord_judged _)

theorem chaseBoundary_judged (s : State) : RecordJudged s (chaseBoundary s) :=
  chaseBoundary_induct RecordJudged.refl RecordJudged.trans (fun _ _ => .of_same rfl rfl rfl) takeCommand_judged
    giveLocate_judged s

/-! ### Released lines -/

/-- With the lines released nothing breaks a record (R96). -/
def LinesOut (s t : State) : Prop := s.tr.punch = none → t.tr.punch = none ∧ activeRecord t = activeRecord s

theorem LinesOut.trans {s t u : State} (h : LinesOut s t) (k : LinesOut t u) : LinesOut s u := fun hp =>
  ⟨(k (h hp).1).1, (k (h hp).1).2.trans (h hp).2⟩

theorem takeCommand_linesOut (c : Command) (s : State) : LinesOut s (takeCommand c s) := by
  intro hp
  cases h : deckReady s
  · rw [takeCommand_of_not_ready h]
    exact ⟨hp, rfl⟩
  · rw [takeCommand_ready h, breakRecord_kept (s := commanded c s) (.inl hp)]
    exact ⟨hp, rfl⟩

theorem giveLocate_linesOut (skips : Option Word16) (target : Nat) (s : State) :
    LinesOut s (giveLocate skips target s) := by
  intro hp
  cases h : deckReady s
  · rw [giveLocate_of_not_ready h]
    exact ⟨hp, rfl⟩
  · cases hl : s.tr.locate with
    | some l =>
      rw [giveLocate_retarget h hl]
      exact ⟨hp, rfl⟩
    | none =>
      rw [giveLocate_start h hl, breakRecord_kept (s := located skips target s) (.inl hp)]
      exact ⟨hp, rfl⟩

theorem chaseBoundary_linesOut (s : State) : LinesOut s (chaseBoundary s) :=
  chaseBoundary_induct (R := LinesOut) (fun _ hp => ⟨hp, rfl⟩) LinesOut.trans (fun _ _ hp => ⟨hp, rfl⟩) takeCommand_linesOut
    giveLocate_linesOut s

/-! ### Records alike -/

/-- Alike to the servo and the locate, with the same record and the same lines. -/
structure RecordAlike (s t : State) : Prop where
  deck : Alike s t
  active : activeRecord t = activeRecord s
  lines : t.tr.punch.map Punch.tracks = s.tr.punch.map Punch.tracks

theorem map_none_iff {s t : State} (h : t.tr.punch.map Punch.tracks = s.tr.punch.map Punch.tracks) :
    t.tr.punch = none ↔ s.tr.punch = none := by
  rw [← Option.map_eq_none_iff (f := Punch.tracks), h, Option.map_eq_none_iff]

/-- A record is broken in both of two states alike, or in neither. -/
theorem RecordAlike.breakRecord {s t : State} (h : RecordAlike s t) :
    RecordAlike (breakRecord s) (breakRecord t) := by
  have hdeck := ((breakRecord_alike s).symm.trans h.deck).trans (breakRecord_alike t)
  by_cases k : s.tr.punch = none ∨ transportState s = .play
  · have k' : t.tr.punch = none ∨ transportState t = .play := by
      rw [map_none_iff h.lines, h.deck.state]
      exact k
    rw [breakRecord_kept k, breakRecord_kept k']
    exact h
  · have k' : ¬(t.tr.punch = none ∨ transportState t = .play) := by
      rw [map_none_iff h.lines, h.deck.state]
      exact k
    refine ⟨hdeck, ?_, ?_⟩
    all_goals
      rw [not_or] at k k'
      rw [breakRecord_out (Option.isSome_iff_ne_none.mpr k.1) k.2,
        breakRecord_out (Option.isSome_iff_ne_none.mpr k'.1) k'.2]
    · exact (activeRecord_aborted _).trans (activeRecord_aborted _).symm
    · have e (u : State) : (abortActiveRecord (punchOut u)).tr.punch = none := (abortActiveRecord_frame _).same .lines
      exact congrArg (Option.map Punch.tracks) ((e t).trans (e s).symm)

theorem recordAlike_congruence : ServoCongruence RecordAlike where
  alike h := h.deck
  chase h x := ⟨h.deck.setChase x, h.active, h.lines⟩
  command {s t} h c := by
    cases hd : deckReady s
    · rw [takeCommand_of_not_ready hd, takeCommand_of_not_ready (h.deck.ready.trans hd)]
      exact h
    · rw [takeCommand_ready hd, takeCommand_ready (h.deck.ready.trans hd)]
      exact RecordAlike.breakRecord ⟨h.deck.commanded c, h.active, h.lines⟩
  locate {s t} h skips target := by
    cases hd : deckReady s
    · rw [giveLocate_of_not_ready hd, giveLocate_of_not_ready (h.deck.ready.trans hd)]
      exact h
    · have hd' := h.deck.ready.trans hd
      cases hl : s.tr.locate with
      | some l =>
        rw [giveLocate_retarget hd hl, giveLocate_retarget hd' (h.deck.locate.trans hl)]
        exact ⟨h.deck.withLocate _, h.active, h.lines⟩
      | none =>
        rw [giveLocate_start hd hl, giveLocate_start hd' (h.deck.locate.trans hl)]
        exact RecordAlike.breakRecord ⟨h.deck.located hd skips target, h.active, h.lines⟩

/-! ### Readiness among the takers -/

theorem cueReady_alike {ok : Bool} {required : Word16} {s t : State} (hz : t.straps = s.straps) (ht : t.time = s.time)
    (hp : PeersAlike s t) : cueReady ok required t = cueReady ok required s := by
  have each (st : Station) : stationReady ok t st = stationReady ok s st := by
    have hown : own t = own s := congrArg Straps.station hz
    unfold stationReady
    rw [hown, hp.freshness ht st]
    by_cases hf : freshness (entry s st) s = .fresh
    · rw [hp.entry (by rw [hf]; exact Freshness.noConfusion)]
    · simp [hf]
  unfold cueReady
  simp only [each]

theorem takeBoundary_peers (x : Taker) (s : State) : PeersAlike s (takeBoundary x s) := by
  have quiet (h : Part.peers ∉ takerParts x) : PeersAlike s (takeBoundary x s) :=
    .of_eq ((takeBoundary_frame x s).same .peers h)
  cases x
  case peers => exact peersBoundary_alike s
  all_goals exact quiet (by simp [takerParts])

theorem runTakers_peers (order : List Taker) (s : State) :
    PeersAlike s (runTakers order s) ∧ (runTakers order s).time = s.time :=
  runTakers_induct (R := fun u v => PeersAlike u v ∧ v.time = u.time) (fun _ => ⟨.of_eq rfl, rfl⟩)
    (fun h k => ⟨h.1.trans k.1 h.2 k.2, k.2.trans h.2⟩)
    (fun x _ u => ⟨takeBoundary_peers x u, (takeBoundary_keeps x u).time⟩) s

theorem CueRun.ready {c : Instr} {s t v : State} {rank : Taker → Nat} {pre post : List Taker}
    (h : CueRun c s t v rank pre post) (ok : Bool) (required : Word16) :
    cueReady ok required t = cueReady ok required v := by
  have k := runTakers_peers (.cues :: post) v
  have z := (runTakers_keeps (.cues :: post) v).straps
  have e : runTakers (.cues :: post) v = t := h.after.symm
  rw [e] at k z
  exact cueReady_alike z k.2 k.1

end Sys2Proof.Machine

/-! O14. The Cue Engine at a boundary. -/

namespace Sys2Proof.Machine

set_option Elab.async false

/-! ### The record that the Cue Engine finds -/

/-- Before the evaluation the deck is as published, or the locate has taken its record. -/
theorem runTakers_before_evaluate {rank : Taker → Nat} {pre post : List Taker} (h : SplitAt rank .evaluate pre post)
    {a b : State} (hn : NoTimedCue b) (hab : Alike a b) (hp : b.pos = a.pos) :
    Alike (positionBoundary a) (runTakers pre b) ∨ Alike (locateBoundary (positionBoundary a)) (runTakers pre b) := by
  obtain ⟨pre', post', k⟩ := takerOrder_split rank .publish
  obtain ⟨mid, e, e'⟩ := k.between h (h.before (publish_before_evaluate rank)).1
  have hmid : Taker.publish ∉ mid := fun q => k.post (by rw [e']; exact List.mem_append_left _ q)
  have hn' : NoTimedCue (positionBoundary (runTakers pre' b)) :=
    takeBoundary_untimed .publish (runTakers_holds (I := NoTimedCue) (fun x _ _ q => takeBoundary_untimed x q) hn)
  have hal := runTakers_alike hmid hn' (runTakers_published k hn hab hp)
  have hnodup : mid.Nodup := by
    have q := takerOrder_nodup rank
    rw [h.order, e] at q
    exact (List.nodup_cons.mp (List.nodup_append.mp (List.nodup_append.mp q).1).2.1).2
  have hev : Taker.evaluate ∉ mid.filter movesDeck := fun q =>
    h.pre (by rw [e]; exact List.mem_append_right _ (List.mem_cons_of_mem _ (List.mem_filter.mp q).1))
  have cases := movers_cases (hnodup.filter _) fun x hx => (List.mem_filter.mp hx).2
  rw [e, runTakers_append, runTakers_cons]
  simp only [List.mem_cons, List.not_mem_nil, or_false] at cases
  obtain q | q | q | q | q := cases <;> rw [q] at hev hal
  · exact .inl hal
  · simp at hev
  · exact .inr hal
  · simp at hev
  · simp at hev

/-- The evaluation of the boundary, as O14 and O30 name it. -/
abbrev boundaryEvaluation (c : Instr) (s t : State) : State := chaseBoundary (positionBoundary (boundaryBegun c s t))

theorem boundaryBegun_record (c : Instr) (s t : State) :
    (positionBoundary (boundaryBegun c s t)).tr = s.tr
      ∧ activeRecord (positionBoundary (boundaryBegun c s t)) = activeRecord s := by
  have f : Frame [.chase, .time] s (boundaryBegun c s t) := by
    unfold boundaryBegun
    split
    · exact (loseLock_frame s).trans (setTime_frame _ _)
    · exact (setTime_frame s _).mono
  have g := f.trans (positionBoundary_frame (boundaryBegun c s t))
  exact ⟨g.tr, congrArg (List.find? Cue.recording) (g.same .cues)⟩

section
variable {c : Instr} {s t v : State} {rank : Taker → Nat} {pre post : List Taker}
  (h : CueRun c s t v rank pre post)
include h

/-- The record at the Cue Engine's turn: as the evaluation has left it, or broken by it. -/
theorem CueRun.evaluated (hn : NoTimedCue s) (hl : s.tr.locate = none ∨ s.tr.punch = none) {q : Cue}
    (hq : activeRecord s = some q) :
    (activeRecord (boundaryEvaluation c s t) = some q →
        activeRecord v = some q ∧ v.tr.punch.map Punch.tracks = s.tr.punch.map Punch.tracks)
      ∧ (activeRecord (boundaryEvaluation c s t) ≠ some q → RecordOut v) := by
  obtain ⟨preE, postE, k⟩ := takerOrder_split rank .evaluate
  obtain ⟨mid, e, e'⟩ := k.between h.split (h.split.before (evaluate_before_cues rank)).1
  obtain ⟨ptr, pact⟩ := boundaryBegun_record c s t
  have start := boundaryStart_frame c s t
  have htr : (boundaryStart c s t).tr = s.tr := start.tr
  have hact : activeRecord (boundaryStart c s t) = activeRecord s :=
    congrArg (List.find? Cue.recording) (start.same .cues)
  have hcues : Taker.cues ∉ preE ∧ Taker.cues ∉ mid := by
    rw [← not_or]
    intro q
    refine h.split.pre ?_
    rw [e]
    exact q.elim (List.mem_append_left _) fun q => List.mem_append_right _ (List.mem_cons_of_mem _ q)
  have hev : Taker.evaluate ∉ mid := fun q => k.post (by rw [e']; exact List.mem_append_left _ q)
  have before := runTakers_record k.pre hcues.1 (boundaryStart c s t)
  have after := runTakers_record hev hcues.2 (chaseBoundary (runTakers preE (boundaryStart c s t)))
  have deck := runTakers_before_evaluate k (boundaryStart_untimed (c := c) hn t) (boundaryBegun_alike c s t)
    (boundaryBegun_pos c s t)
  have hv : v = runTakers mid (chaseBoundary (runTakers preE (boundaryStart c s t))) := by
    rw [h.before, e, runTakers_append, runTakers_cons]
    rfl
  rw [← hv] at after
  generalize runTakers preE (boundaryStart c s t) = w at before after deck
  have hw : activeRecord w = some q := (before.active.trans hact).trans hq
  have hlines : w.tr.punch.map Punch.tracks = s.tr.punch.map Punch.tracks := by rw [before.lines, htr]
  have same : activeRecord (chaseBoundary w) = activeRecord (boundaryEvaluation c s t) := by
    obtain hl | hp := hl
    · have hidle := locateBoundary_idle (s := positionBoundary (boundaryBegun c s t)) (by rw [ptr]; exact hl)
      rw [hidle, or_self] at deck
      refine (recordAlike_congruence.chaseBoundary ⟨deck, ?_, ?_⟩).active
      · rw [hw, pact, hq]
      · rw [hlines, ptr]
    · have hwp : w.tr.punch = none := (map_none_iff hlines).mpr hp
      rw [(chaseBoundary_linesOut w hwp).2, (chaseBoundary_linesOut _ (by rw [ptr]; exact hp)).2, hw, pact, hq]
  rw [← same]
  have judged := (chaseBoundary_judged w).running q hw
  refine ⟨fun hu => ?_, fun hu => ?_⟩
  · obtain ⟨-, hp⟩ | hout := judged
    · exact ⟨after.active.trans hu, by rw [after.lines, hp, hlines]⟩
    · rw [hout.none] at hu
      cases hu
  · obtain ⟨k1, -⟩ | hout := judged
    · exact absurd k1 hu
    · exact ⟨after.active.trans hout.none, (map_none_iff after.lines).mpr hout.lines, after.aborted.trans hout.flag⟩

theorem CueRun.untimed (hn : NoTimedCue s) : NoTimedCue v := h.waits.untimed hn

/-- After the Cue Engine's turn the record stays as it has left it. -/
theorem CueRun.left : RecordRests (cueBoundary v) t := by
  have k := runTakers_record (h.split.before (evaluate_before_cues rank)).2 h.split.post (cueBoundary v)
  rwa [← h.after] at k

end

/-! ### What the run of a record leaves -/

/-- The station after the Cue Engine's turn, where no timed cue waits. -/
theorem cueBoundary_run {v r : State} (hn : NoTimedCue v) (h : recordRun v = r) :
    (cueBoundary v).cues.list = r.cues.list ∧ (cueBoundary v).tr = r.tr ∧ (cueBoundary v).flags = r.flags := by
  rw [cueBoundary_untimed hn, h]
  exact ⟨rfl, rfl, rfl⟩

/-- What the run r of the record leaves in the end t of a boundary. -/
structure RunLeft (r t : State) : Prop where
  members : ∀ d ∈ r.cues.list, d.isTransition = false → d ∈ t.cues.list
  lines : t.tr.punch.map Punch.tracks = r.tr.punch.map Punch.tracks
  aborted : hasFlag t .cueAborted = hasFlag r .cueAborted
  slip : hasFlag t .syncSlip = hasFlag r .syncSlip

theorem CueRun.run {c : Instr} {s t v r : State} {rank : Taker → Nat} {pre post : List Taker}
    (h : CueRun c s t v rank pre post) (hn : NoTimedCue s) (e : recordRun v = r) : RunLeft r t := by
  obtain ⟨hc, ht, hf⟩ := cueBoundary_run (h.untimed hn) e
  have k := h.left
  refine ⟨fun d hd => k.members d (by rw [hc]; exact hd), by rw [k.lines, ht], ?_, ?_⟩
  · rw [k.aborted, hasFlag, hf, hasFlag]
  · rw [k.slip, hasFlag, hf, hasFlag]

theorem recording_not_transition {c : Cue} (h : c.recording = true) : c.isTransition = false := by
  rw [← Bool.not_eq_true]
  intro k
  rw [transition_not_recording k] at h
  cases h

theorem lowered_mem {q : Cue} {v : State} (h : activeRecord v = some q) : q.lowered ∈ (recordLowered v).cues.list :=
  mem_updateCues_picked (f := Cue.lowered) (List.mem_of_find?_eq_some h) (List.find?_some h)

theorem judged_mem {q : Cue} {v : State} (h : activeRecord v = some q) (ready : Bool) :
    q.lowered.judged ready ∈ (recordJudged ready (recordLowered v)).cues.list :=
  mem_updateCues_picked (f := Cue.judged ready) (lowered_mem h) (List.find?_some h : q.recording = true)

/-- The record with its count lowered and its readiness judged, and the station that holds it (R147, R148). -/
abbrev recordTaken (ready : Bool) (v : State) : State := recordJudged ready (recordLowered v)

theorem recordTaken_active {q : Cue} {v : State} (h : activeRecord v = some q) (ready : Bool) :
    activeRecord (recordTaken ready v) = some (q.lowered.judged ready) := activeRecord_judged (activeRecord_lowered h)

theorem run_ends {q : Cue} {v : State} (h : activeRecord v = some q) (hn : q.remaining ≤ 1) :
    q.lowered.finishAs .done v.time.fieldCount ∈ (recordRun v).cues.list ∧ (recordRun v).tr.punch = none := by
  rw [recordRun_some h, runRecord_ends h hn]
  exact ⟨mem_updateCues_picked (pick := Cue.recording) (f := fun c => c.finishAs .done v.time.fieldCount)
    (s := recordLowered v) (lowered_mem h) (List.find?_some h : q.recording = true), rfl⟩

section
variable {q : Cue} {v : State} {ready : Bool} (h : activeRecord v = some q) (hn : 1 < q.remaining)
  (hr : cueReady v.chase.handed.ready q.required v = ready)
include h hn hr

theorem run_goes_on (hc : countNotReady ready q.notReady ≠ 3) :
    q.lowered.judged ready ∈ (recordRun v).cues.list ∧ (recordRun v).tr = v.tr := by
  rw [recordRun_some h, runRecord_goes_on h hn (by rw [hr]; exact hc), hr]
  exact ⟨judged_mem h ready, rfl⟩

theorem run_judges : recordRun v = notReadyLimit (recordTaken ready v) := by
  rw [recordRun_some h, runRecord_judges h hn, hr]

theorem run_aborts (hc : countNotReady ready q.notReady = 3) (hh : q.hard = true) :
    (q.lowered.judged ready).finishAs .aborted v.time.fieldCount ∈ (recordRun v).cues.list
      ∧ (recordRun v).tr.punch = none ∧ hasFlag (recordRun v) .cueAborted = true := by
  have hact := recordTaken_active h ready
  rw [run_judges h hn hr, notReadyLimit_hard hact hc hh, abortActiveRecord_active hact]
  exact ⟨mem_updateCues_picked (pick := Cue.recording) (f := fun c => c.finishAs .aborted v.time.fieldCount)
    (s := recordTaken ready v) (judged_mem h ready) (List.find?_some h : q.recording = true), rfl,
    hasFlag_setFlag_self .cueAborted (updateCues Cue.recording _ (recordTaken ready v))⟩

theorem run_slips (hc : countNotReady ready q.notReady = 3) (hh : q.hard = false) :
    { q.lowered.judged ready with slipped := true } ∈ (recordRun v).cues.list ∧ (recordRun v).tr = v.tr
      ∧ hasFlag (recordRun v) .syncSlip = true := by
  rw [run_judges h hn hr, notReadyLimit_soft (recordTaken_active h ready) hc hh]
  exact ⟨mem_updateCues_picked (pick := Cue.recording) (f := fun c => { c with slipped := true })
    (s := recordTaken ready v) (judged_mem h ready) (List.find?_some h : q.recording = true), rfl,
    hasFlag_setFlag_self .syncSlip (updateCues Cue.recording _ (recordTaken ready v))⟩

end

/-- Settles O14: the crossing test, the timed cues in their order, and the record at the Cue Engine's turn. -/
theorem boundaryRunsCues : Obligations.BoundaryRunsCues := by
  unfold Obligations.BoundaryRunsCues
  refine ⟨fun x frame => ⟨fun p => crossed_unusable x p frame, fun p0 p1 h0 h1 hf => crossed_iff h0 h1 hf⟩,
    fun c s hr hm hs => ?_, fun c q s hr hm hn hl hq => ?_⟩
  · obtain ⟨t, v, rank, pre, post, h⟩ := boundary_cues hr hm
    refine ⟨t, h.step, ?_, ?_, fun q hqs hw => ?_⟩
    · rw [h.sampled.1, ownSampleNow, h.published]
    · rw [h.sampled.2, leadSampleNow, h.handed]
    · obtain ⟨hdue, hearly⟩ := h.timed hs hqs hw
      refine ⟨fun k => hdue ((h.dueAt_iff q).mpr k), fun k => hearly ?_⟩
      rw [← Bool.not_eq_true, h.dueAt_iff q]
      exact k
  · obtain ⟨t, v, rank, pre, post, h⟩ := boundary_cues hr hm
    refine ⟨t, h.step, ?_⟩
    intro before u left notReady
    obtain ⟨hrun, hout⟩ := h.evaluated hn hl hq
    obtain ⟨-, pact⟩ := boundaryBegun_record c s t
    refine ⟨fun hf => ?_, fun hu => ?_, fun hu => ?_⟩
    · have hp : (positionBoundary (boundaryBegun c s t)).chase.state = .free := by
        rw [boundaryBegun_free hf, (positionBoundary_frame (s.setTime t.time)).same .chase]
        exact hf
      exact (evaluate_free_record hp).trans (pact.trans hq)
    · have k := hout hu
      have r := h.run hn (recordRun_none k.none)
      have a : activeRecord t = none := by
        rw [h.left.active, ← k.none]
        exact congrArg (List.find? Cue.recording)
          (cueBoundary_run (h.untimed hn) (recordRun_none k.none)).1
      exact ⟨a, (map_none_iff r.lines).mpr k.lines, r.aborted.trans k.flag⟩
    · obtain ⟨hv, hlines⟩ := hrun hu
      have hrec : q.recording = true := List.find?_some hv
      have htime : v.time.fieldCount = s.time.fieldCount + 1 := by rw [h.keeps.2, h.field]
      have ready : cueReady v.chase.handed.ready q.required v = cueReady t.chase.handed.ready q.required t := by
        rw [h.handed, h.ready]
      have hcount : countNotReady (cueReady t.chase.handed.ready q.required t) q.notReady = notReady := rfl
      have taken : q.lowered.judged (cueReady t.chase.handed.ready q.required t) = { left with notReady := notReady } := rfl
      have r := h.run hn rfl
      have hnt := recording_not_transition hrec
      refine ⟨fun h1 => ?_, fun h1 h3 => ?_, fun h1 h3 hh => ?_, fun h1 h3 hh => ?_⟩
      · obtain ⟨hm, hp⟩ := run_ends hv h1
        rw [htime] at hm
        exact ⟨r.members _ hm hnt, (map_none_iff r.lines).mpr hp⟩
      · obtain ⟨hm, hp⟩ := run_goes_on hv h1 ready (by rw [hcount]; omega)
        exact ⟨r.members _ hm hnt, editLines_of_tracks (r.lines.trans (by rw [hp, hlines]))⟩
      · obtain ⟨hm, hp, hf⟩ := run_aborts hv h1 ready (hcount.trans h3) hh
        rw [htime, taken, h3] at hm
        exact ⟨r.members _ hm hnt, (map_none_iff r.lines).mpr hp, r.aborted.trans hf⟩
      · obtain ⟨hm, hp, hf⟩ := run_slips hv h1 ready (hcount.trans h3) hh
        rw [taken, h3] at hm
        exact ⟨r.members _ hm hnt, editLines_of_tracks (r.lines.trans (by rw [hp, hlines])), r.slip.trans hf⟩

end Sys2Proof.Machine

/-! SUPPORT for O11. What a boundary at which no timed cue waits leaves beside the deck: the parts of one taker, the cues that
do not record, the bulletins of the peers. -/

namespace Sys2Proof.Machine

set_option Elab.async false

/-! ### The parts of one taker -/

/-- The parts a taker may write where no timed cue waits. -/
def untimedParts : Taker → List Part
  | .cues => [.cues, .samples, .lines, .flags]
  | x => takerParts x

theorem takeBoundary_untimed_frame (x : Taker) {s : State} (h : NoTimedCue s) :
    Frame (untimedParts x) s (takeBoundary x s) := by
  have quiet (hx : takerParts x = untimedParts x) : Frame (untimedParts x) s (takeBoundary x s) :=
    hx ▸ takeBoundary_frame x s
  cases x
  case cues => exact cueBoundary_untimed_frame h
  all_goals exact quiet rfl

/-- A relation kept by every taker of an order where no timed cue waits. -/
theorem runTakers_untimed {R : State → State → Prop} (refl : ∀ u, R u u) (trans : ∀ {u v w}, R u v → R v w → R u w)
    {order : List Taker} (h : ∀ x ∈ order, ∀ u, NoTimedCue u → R u (takeBoundary x u)) {s : State}
    (hn : NoTimedCue s) : R s (runTakers order s) := by
  induction order generalizing s with
  | nil => exact refl s
  | cons x xs ih =>
    exact trans (h x List.mem_cons_self s hn)
      (ih (fun y hy => h y (List.mem_cons_of_mem x hy)) (takeBoundary_untimed x hn))

theorem runTakers_untimed_same (p : Part) {order : List Taker} (h : ∀ x ∈ order, p ∉ untimedParts x) {s : State}
    (hn : NoTimedCue s) : Part.Same s (runTakers order s) p :=
  runTakers_untimed (R := fun u v => Part.Same u v p) (fun u => Frame.refl (written := []) u p (by simp))
    Part.Same.trans (fun x hx u hu => takeBoundary_untimed_frame x hu p (h x hx)) hn

/-! ### The cues that do not record -/

/-- The cues of s that do not record are in t as they are. -/
def OthersStay (s t : State) : Prop := ∀ d ∈ s.cues.list, d.recording = false → d ∈ t.cues.list

theorem OthersStay.refl (s : State) : OthersStay s s := fun _ h _ => h

theorem OthersStay.trans {s t u : State} (h : OthersStay s t) (k : OthersStay t u) : OthersStay s u :=
  fun d hd hr => k d (h d hd hr) hr

theorem Frame.othersStay {w : List Part} {s t : State} (f : Frame w s t) (hw : Part.cues ∉ w := by simp) :
    OthersStay s t := fun d hd _ => by rw [show t.cues.list = s.cues.list from f.same .cues hw]; exact hd

theorem updateRecording_othersStay (f : Cue → Cue) (s : State) : OthersStay s (updateCues Cue.recording f s) :=
  fun _ hd hr => mem_updateCues_kept hd hr

theorem chaseBoundary_othersStay (s : State) : OthersStay s (chaseBoundary s) :=
  chaseBoundary_induct OthersStay.refl OthersStay.trans (fun u _ => (setChase_frame u _).othersStay)
    (fun c _ _ hd hr => mem_takeCommand c hd hr) (fun skips target _ _ hd hr => mem_giveLocate skips target hd hr) s

theorem recordLengthEnd_othersStay (s : State) : OthersStay s (recordLengthEnd s) := by
  unfold recordLengthEnd
  split
  · split
    · exact (updateRecording_othersStay _ s).trans (setPunch_frame _ none).othersStay
    · exact .refl s
  · exact .refl s

theorem notReadyLimit_othersStay (s : State) : OthersStay s (notReadyLimit s) := by
  have aborted (u : State) : OthersStay u (abortActiveRecord u) := by
    unfold abortActiveRecord
    split
    · exact (updateRecording_othersStay _ u).trans (setFlag_frame _ _).othersStay
    · exact .refl u
  unfold notReadyLimit
  split
  · split
    · split
      · exact (aborted s).trans (setPunch_frame _ none).othersStay
      · exact (updateRecording_othersStay _ s).trans (setFlag_frame _ _).othersStay
    · exact .refl s
  · exact .refl s

theorem cueBoundary_othersStay {s : State} (h : NoTimedCue s) : OthersStay s (cueBoundary s) := by
  have judged (ok : Bool) (u : State) : OthersStay u (judgeRecord ok u) := by
    unfold judgeRecord
    split
    · exact (updateRecording_othersStay _ u).trans (notReadyLimit_othersStay _)
    · exact .refl u
  have run (u : State) : OthersStay u (recordRun u) := by
    unfold recordRun
    split
    · exact ((updateRecording_othersStay _ u).trans (recordLengthEnd_othersStay _)).trans (judged _ _)
    · exact .refl u
  rw [cueBoundary_untimed h]
  exact run s

/-- Every taker but the Source Fader leaves the cues that do not record. -/
theorem runTakers_othersStay {order : List Taker} (hf : Taker.fader ∉ order) {s : State} (hn : NoTimedCue s) :
    OthersStay s (runTakers order s) := by
  refine runTakers_untimed OthersStay.refl OthersStay.trans (fun x hx u hu => ?_) hn
  have quiet (hp : Part.cues ∉ takerParts x) : OthersStay u (takeBoundary x u) := (takeBoundary_frame x u).othersStay hp
  cases x
  case fader => exact absurd hx hf
  case evaluate => exact chaseBoundary_othersStay u
  case cues => exact cueBoundary_othersStay hu
  all_goals exact quiet (by simp [takerParts])

/-! ### The bulletins of the peers -/

/-- What a partner check reads of the peers is the same (R62, R168). -/
def BulletinsSame (s t : State) : Prop :=
  ∀ st : Station, t.peers[st].updates = s.peers[st].updates ∧ t.peers[st].tag = s.peers[st].tag

theorem takeBoundary_bulletins (x : Taker) (s : State) : BulletinsSame s (takeBoundary x s) := by
  have quiet (h : Part.peers ∉ takerParts x) : BulletinsSame s (takeBoundary x s) := fun st => by
    rw [show (takeBoundary x s).peers = s.peers from (takeBoundary_frame x s).same .peers h]
    exact ⟨rfl, rfl⟩
  cases x
  case peers =>
    intro st
    have e : (takeBoundary .peers s).peers[st] = _ := peersBoundary_entry s st
    rw [e]
    unfold PeerEntry.silenced
    split <;> exact ⟨rfl, rfl⟩
  all_goals exact quiet (by simp [takerParts])

theorem runTakers_bulletins (order : List Taker) (s : State) : BulletinsSame s (runTakers order s) :=
  runTakers_induct (R := BulletinsSame) (fun _ _ => ⟨rfl, rfl⟩)
    (fun h k st => ⟨(k st).1.trans (h st).1, (k st).2.trans (h st).2⟩) (fun x _ u => takeBoundary_bulletins x u) s

theorem partnerConfirms_congr {k : Context} {s t : State} (h : BulletinsSame s t) :
    PartnerConfirms k t ↔ PartnerConfirms k s := by
  unfold PartnerConfirms
  refine forall_congr' fun st => imp_congr_right fun _ => ?_
  rw [(h st).1, (h st).2]

end Sys2Proof.Machine

/-! O11. What a context gives at its position, and the Source Fader's own act at a boundary. -/

namespace Sys2Proof.Machine

set_option Elab.async false

/-! ### The values of a context -/

section
variable {k : Context}

theorem Context.dissolve (h : k.params.kind = .dissolve) :
    k.level = dissolveLevel k.fromLevel k.params.target k.position ∧ k.share = k.level ∧ k.windowClass = .full
      ∧ k.invert = false ∧ k.softness = 0 ∧ k.shape = .full := by
  simp [Context.level, Context.share, Context.windowClass, Context.invert, Context.softness, Context.shape, h]

theorem Context.wipe_softness (h : k.params.kind = .wipe) : k.softness = k.params.softness := by
  simp [Context.softness, h]

theorem Context.wipe_in (h : k.params.kind = .wipe) (hd : k.params.direction = .inward) :
    k.level = k.params.target ∧ k.share = k.params.target * k.position / 1024 ∧ k.invert = false := by
  simp [Context.level, Context.share, Context.invert, h, hd]

theorem Context.wipe_out (h : k.params.kind = .wipe) (hd : k.params.direction = .outward) :
    k.level = k.fromLevel ∧ k.share = k.fromLevel * (1024 - k.position) / 1024 ∧ k.invert = true := by
  simp [Context.level, Context.share, Context.invert, h, hd]

theorem Context.sparkle (h : k.params.kind = .wipe) (hp : k.params.pattern = .sparkle) :
    k.windowClass = .cells ∧ k.shape = .cells k.seed k.position := by
  simp [Context.windowClass, Context.shape, h, hp]

theorem Context.spans (h : k.params.kind = .wipe) (hp : k.params.pattern ≠ .sparkle) :
    k.windowClass = .window ∧ k.shape = .spans k.params.pattern k.position := by
  cases e : k.params.pattern
  case sparkle => exact absurd e hp
  all_goals simp [Context.windowClass, Context.shape, h, e]

end

/-! ### The values are formed -/

/-- The fader with a context in place (R154). -/
def Fader.holding (f : Fader) (n : Context) : Fader := { f with context := some n }

/-- The fader with the values that its context gives (R154). -/
def Fader.formed (f : Fader) (n : Context) : Fader :=
  { f with
    level := n.level, gain := audioGain n.params.law n.share, windowClass := n.windowClass
    invert := n.invert, softness := n.softness, context := some n }

theorem formValues_none {s : State} (h : s.fader.context = none) : formValues s = s := by rw [formValues, h]

theorem formValues_holding {f : Fader} {n : Context} {s : State} (h : s.fader = f.holding n) :
    formValues s = s.setFader (f.formed n) := by
  have hc : s.fader.context = some n := by rw [h]; rfl
  rw [formValues, hc, h]
  rfl

theorem completeIfDue_none {s : State} (h : s.fader.context = none) : completeIfDue s = s := by rw [completeIfDue, h]

/-- What the Source Fader makes of its context, the mix port not yet told. -/
def faderAdvanced (v : State) : State := completeIfDue (formValues (advanceContext v))

theorem faderBoundary_leaves (v : State) :
    (faderBoundary v).fader = (faderAdvanced v).fader ∧ (faderBoundary v).cues = (faderAdvanced v).cues
      ∧ (faderBoundary v).flags = (faderAdvanced v).flags ∧ (faderBoundary v).time = (faderAdvanced v).time :=
  sendMix_leaves _

theorem faderAdvanced_mix (v : State) : (faderAdvanced v).mix = v.mix := by
  obtain ⟨a, cs, b, h⟩ := advanceContext_touches v
  have advanced : (advanceContext v).mix = v.mix := by rw [h]; rfl
  have formed : (faderAdvanced v).mix = (advanceContext v).mix :=
    ((formValues_frame _).trans (completeIfDue_frame _)).same .mix
  exact formed.trans advanced

/-! ### The mix port -/

theorem sendMix_free {s : State} (h : s.mix.started = true) (hn : s.mix.sending = none) :
    sendMix s = s.setMix { s.mix with sending := some (mixRecordNow s), due := false } := by
  rw [sendMix, if_pos h, hn]

theorem sendMix_busy {m : MixRecord} {s : State} (h : s.mix.started = true) (hm : s.mix.sending = some m) :
    sendMix s = s.setMix { s.mix with due := true } := by
  rw [sendMix, if_pos h, hm]

/-- The station as the mix port is told (R170). -/
def mixStarted (v : State) : State := (faderAdvanced v).setMix { (faderAdvanced v).mix with started := true }

theorem mixStarted_sending (v : State) : (mixStarted v).mix.sending = v.mix.sending := by
  rw [← faderAdvanced_mix v]
  rfl

theorem faderBoundary_free {v : State} (h : v.mix.sending = none) :
    (faderBoundary v).mix.sending = some (mixRecordNow (faderBoundary v)) := by
  rw [show faderBoundary v = _ from sendMix_free (s := mixStarted v) rfl ((mixStarted_sending v).trans h)]
  rfl

theorem faderBoundary_busy {m : MixRecord} {v : State} (h : v.mix.sending = some m) :
    (faderBoundary v).mix.sending = some m ∧ (faderBoundary v).mix.due = true := by
  have hs := (mixStarted_sending v).trans h
  rw [show faderBoundary v = _ from sendMix_busy (s := mixStarted v) rfl hs]
  exact ⟨hs, rfl⟩

/-! ### The context advances -/

/-- A context one field further on (R157). -/
def Context.raised (k : Context) : Context := { k with k := k.k + 1 }

/-- The partner check of k is due, and has failed. -/
abbrev FoundUnpaired (k : Context) (pair : PairStatus) : Prop := CheckDue k ∧ pair = .unpaired

/-- The context k of v has become n, with what its partner check leaves (R157, R169). -/
structure Advanced (k n : Context) (v w : State) : Prop where
  fader : w.fader = v.fader.holding n
  time : w.time = v.time
  quiet : ¬FoundUnpaired k n.pair → hasFlag w .unpaired = hasFlag v .unpaired
  flagged : FoundUnpaired k n.pair → hasFlag w .unpaired = true
  cues : ∀ q ∈ v.cues.list, q.transiting k.tag = true →
    ∃ d ∈ w.cues.list, d.transiting k.tag = true ∧ (FoundUnpaired k n.pair → d.unpaired = true)

/-- The context n takes the place of the one that exists, and no check fails. -/
theorem advanced_paired {k n : Context} (v : State) (h : ¬FoundUnpaired k n.pair) :
    Advanced k n v (v.setFader (v.fader.holding n)) where
  fader := rfl
  time := rfl
  quiet _ := rfl
  flagged q := absurd q h
  cues q hq ht := ⟨q, hq, ht, fun e => absurd e h⟩

/-- The context n takes the place of the one that exists, found UNPAIRED (R169). -/
def markedUnpaired (n : Context) (v : State) : State :=
  updateCues (Cue.transiting n.tag) (fun q => { q with unpaired := true })
    (setFlag .unpaired (v.setFader (v.fader.holding n)))

theorem markedUnpaired_mem {n : Context} {q : Cue} {v : State} (h : q ∈ v.cues.list) (ht : q.transiting n.tag = true) :
    { q with unpaired := true } ∈ (markedUnpaired n v).cues.list :=
  mem_updateCues_picked (f := fun q => { q with unpaired := true })
    (s := setFlag .unpaired (v.setFader (v.fader.holding n))) h ht

theorem markedUnpaired_flag (n : Context) (v : State) : hasFlag (markedUnpaired n v) .unpaired = true :=
  hasFlag_setFlag_self .unpaired (v.setFader (v.fader.holding n))

theorem advanced_unpaired {k n : Context} (v : State) (ht : n.tag = k.tag) (h : FoundUnpaired k n.pair) :
    Advanced k n v (markedUnpaired n v) where
  fader := rfl
  time := rfl
  quiet q := absurd h q
  flagged _ := markedUnpaired_flag n v
  cues q hq hx := ⟨{ q with unpaired := true }, markedUnpaired_mem hq (ht ▸ hx), hx, fun _ => rfl⟩

section
variable {k : Context} {v : State}

theorem advanceContext_none (h : v.fader.context = none) : advanceContext v = v := by rw [advanceContext, h]

theorem advanceContext_started (h : v.fader.context = some k) (hs : k.start = v.time.fieldCount) :
    advanceContext v = v := by
  rw [advanceContext, h]
  exact if_pos hs

theorem advanceContext_raised (h : v.fader.context = some k) (hs : k.start ≠ v.time.fieldCount) :
    advanceContext v = partnerCheck (v.setFader (v.fader.holding k.raised)) := by
  rw [advanceContext, h]
  exact if_neg hs

theorem checkDue_iff : (k.raised.pair = .pending && k.raised.k = 1 : Bool) = true ↔ CheckDue k := by
  rw [Bool.and_eq_true, decide_eq_true_eq, decide_eq_true_eq]
  exact and_congr_right' Nat.succ_inj

theorem partnerPasses_iff : partnerPasses k.raised (v.setFader (v.fader.holding k.raised)) = true ↔ PartnerConfirms k v := by
  unfold partnerPasses PartnerConfirms entry
  split
  · next e => simp [show k.params.partner = none from e]
  · next st e =>
    rw [show k.params.partner = some st from e, Bool.and_eq_true, bne_iff_ne, decide_eq_true_eq]
    exact ⟨fun q _ hx => Option.some.inj hx ▸ q, fun q => q st rfl⟩

theorem partnerCheck_idle (h : ¬CheckDue k) :
    partnerCheck (v.setFader (v.fader.holding k.raised)) = v.setFader (v.fader.holding k.raised) :=
  if_neg fun q => h (checkDue_iff.mp q)

theorem partnerCheck_passes (h : CheckDue k) (hp : PartnerConfirms k v) :
    partnerCheck (v.setFader (v.fader.holding k.raised))
      = v.setFader (v.fader.holding { k.raised with pair := .paired }) :=
  (if_pos (checkDue_iff.mpr h)).trans (if_pos (partnerPasses_iff.mpr hp))

theorem partnerCheck_fails (h : CheckDue k) (hp : ¬PartnerConfirms k v) :
    partnerCheck (v.setFader (v.fader.holding k.raised)) = failPartner k.raised (v.setFader (v.fader.holding k.raised)) :=
  (if_pos (checkDue_iff.mpr h)).trans (if_neg fun q => hp (partnerPasses_iff.mp q))

/-- The context as a failed check leaves it (R169). -/
def Context.unpaired (k : Context) : Context := { k.raised with pair := .unpaired }

theorem failPartner_soft (h : k.hard = false) :
    failPartner k.raised (v.setFader (v.fader.holding k.raised)) = markedUnpaired k.unpaired v :=
  if_neg (show ¬k.hard = true by simp [h])

theorem failPartner_hard (h : k.hard = true) :
    failPartner k.raised (v.setFader (v.fader.holding k.raised)) = completeContext (markedUnpaired k.unpaired v) :=
  if_pos h

/-- A context that is raised, judged where its check is due (R157, R168, R169). -/
theorem advanceContext_advanced {pair : PairStatus} (h : v.fader.context = some k) (hs : k.start ≠ v.time.fieldCount)
    (hp : PairAfter k v pair) : Advanced k { k with k := k.k + 1, pair := pair } v (advanceContext v) := by
  rw [advanceContext_raised h hs]
  obtain ⟨hd, rfl⟩ | ⟨hd, hc, rfl⟩ | ⟨hd, hc, hh, rfl⟩ := hp
  · rw [partnerCheck_idle hd]
    exact advanced_paired v fun q => hd q.1
  · rw [partnerCheck_passes hd hc]
    exact advanced_paired v fun q => PairStatus.noConfusion q.2
  · rw [partnerCheck_fails hd hc, failPartner_soft hh]
    exact advanced_unpaired v rfl ⟨hd, rfl⟩

end

end Sys2Proof.Machine

/-! O11. What the Source Fader leaves of its turn, context by context. -/

namespace Sys2Proof.Machine

set_option Elab.async false

theorem Fader.holding_self {f : Fader} {k : Context} (h : f.context = some k) : f = f.holding k := by
  unfold Fader.holding
  rw [← h]

/-- What the Source Fader leaves of a context k of v that has become n. -/
structure FaderTaken (k n : Context) (v x : State) : Prop where
  running : n.k < n.params.duration → x.fader = v.fader.formed n
  ended : n.params.duration ≤ n.k → x.fader = v.fader.ended k
  reported : k.tag ≠ 0 → n.params.duration ≤ n.k → ∀ q ∈ v.cues.list, q.transiting k.tag = true →
    ∃ d ∈ x.cues.list, d.recording = false ∧ d.tag = k.tag ∧ d.state = .done ∧ d.finish = some v.time.fieldCount
  quiet : ¬FoundUnpaired k n.pair → hasFlag x .unpaired = hasFlag v .unpaired
  flagged : FoundUnpaired k n.pair → hasFlag x .unpaired = true
  marked : FoundUnpaired k n.pair → ∀ q ∈ v.cues.list, q.transiting k.tag = true →
    ∃ d ∈ x.cues.list, d.recording = false ∧ d.tag = k.tag ∧ d.unpaired = true

theorem transiting_not_recording {tag : Byte} {c : Cue} (h : c.transiting tag = true) :
    c.tag = tag ∧ c.recording = false := by
  obtain ⟨-, -, ht, hr⟩ := transiting_not_record h
  exact ⟨ht, transition_not_recording hr⟩

section
variable {k n : Context} {v : State}

theorem faderAdvanced_running (h : Advanced k n v (advanceContext v)) (hk : n.k < n.params.duration) :
    faderAdvanced v = (advanceContext v).setFader (v.fader.formed n) := by
  rw [faderAdvanced, formValues_holding h.fader]
  exact completeIfDue_running (k := n) rfl hk

theorem faderAdvanced_due (h : Advanced k n v (advanceContext v)) (hk : n.params.duration ≤ n.k) :
    faderAdvanced v = completeContext ((advanceContext v).setFader (v.fader.formed n)) := by
  rw [faderAdvanced, formValues_holding h.fader]
  exact completeIfDue_due (k := n) rfl hk

theorem completeContext_kept {s : State} {c : Cue} (hk : s.fader.context = some k) (h : c ∈ s.cues.list)
    (hc : c.transiting k.tag = true) :
    ∃ d ∈ (completeContext s).cues.list, d.recording = false ∧ d.tag = c.tag ∧ d.unpaired = c.unpaired := by
  by_cases ht : k.tag = 0
  · rw [completeContext_unreported fun o ho => by rw [hk] at ho; cases ho; exact ht]
    exact ⟨c, h, (transiting_not_recording hc).2, rfl, rfl⟩
  · exact ⟨_, completeContext_done hk ht h hc, finishAs_not_recording c CueState.noConfusion _, rfl, rfl⟩

theorem faderBoundary_running (h : Advanced k n v (advanceContext v)) (hk : n.k < n.params.duration) :
    FaderTaken k n v (faderBoundary v) := by
  obtain ⟨hf, hq, hg, -⟩ := faderBoundary_leaves v
  rw [faderAdvanced_running h hk] at hf hq hg
  refine ⟨fun _ => hf, fun q => absurd q (Nat.not_le.mpr hk), fun _ q => absurd q (Nat.not_le.mpr hk), fun q => ?_,
    fun q => ?_, fun q c hc ht => ?_⟩
  · exact (congrArg (BitVec.getLsbD · _) hg).trans (h.quiet q)
  · exact (congrArg (BitVec.getLsbD · _) hg).trans (h.flagged q)
  · obtain ⟨d, hd, hx, hu⟩ := h.cues c hc ht
    rw [hq]
    exact ⟨d, hd, (transiting_not_recording hx).2, (transiting_not_recording hx).1, hu q⟩

theorem faderBoundary_due (h : Advanced k n v (advanceContext v)) (hp : n.params = k.params) (ht : n.tag = k.tag)
    (hk : n.params.duration ≤ n.k) : FaderTaken k n v (faderBoundary v) := by
  obtain ⟨hf, hq, hg, -⟩ := faderBoundary_leaves v
  rw [faderAdvanced_due h hk] at hf hq hg
  have hc : ((advanceContext v).setFader (v.fader.formed n)).fader.context = some n := rfl
  have hw : (completeContext ((advanceContext v).setFader (v.fader.formed n))).flags = (advanceContext v).flags :=
    (completeContext_frame _).same .flags
  have he : (v.fader.formed n).ended n = v.fader.ended k := by
    unfold Fader.ended
    rw [hp]
    rfl
  refine ⟨fun q => absurd hk (Nat.not_le.mpr q), fun _ => (hf.trans (completeContext_fader hc)).trans he,
    fun h0 _ c hcs hx => ?_, fun q => ?_, fun q => ?_, fun q c hcs hx => ?_⟩
  · obtain ⟨d, hd, hdx, -⟩ := h.cues c hcs hx
    have hm := completeContext_done hc (ht ▸ h0) hd (ht ▸ hdx)
    rw [hq]
    refine ⟨_, hm, finishAs_not_recording d CueState.noConfusion _, (transiting_not_recording hdx).1, rfl, ?_⟩
    exact congrArg (fun x : Timebase => some x.fieldCount) h.time
  · exact (congrArg (BitVec.getLsbD · _) (hg.trans hw)).trans (h.quiet q)
  · exact (congrArg (BitVec.getLsbD · _) (hg.trans hw)).trans (h.flagged q)
  · obtain ⟨d, hd, hdx, hu⟩ := h.cues c hcs hx
    obtain ⟨e, he, hr, hg, hz⟩ := completeContext_kept hc hd (ht ▸ hdx)
    rw [hq]
    exact ⟨e, he, hr, hg.trans (transiting_not_recording hdx).1, hz.trans (hu q)⟩

/-- The Source Fader takes a boundary with a context that its check does not end (R157, R158, R168, R169). -/
theorem faderBoundary_taken {pair : PairStatus} (h : v.fader.context = some k) (hs : k.start ≠ v.time.fieldCount)
    (hp : PairAfter k v pair) :
    FaderTaken k { k with k := k.k + 1, pair := pair } v (faderBoundary v) := by
  have a := advanceContext_advanced h hs hp
  by_cases hk : k.k + 1 < k.params.duration
  · exact faderBoundary_running a hk
  · exact faderBoundary_due a rfl rfl (Nat.not_lt.mp hk)

/-- A HARD context whose check fails (R169). -/
theorem faderBoundary_hard (h : v.fader.context = some k) (hs : k.start ≠ v.time.fieldCount) (hd : CheckDue k)
    (hp : ¬PartnerConfirms k v) (hh : k.hard = true) :
    (faderBoundary v).fader = v.fader.ended k ∧ hasFlag (faderBoundary v) .unpaired = true
      ∧ (k.tag ≠ 0 → ∀ q ∈ v.cues.list, q.transiting k.tag = true →
          { q with unpaired := true, state := .done, finish := some v.time.fieldCount } ∈ (faderBoundary v).cues.list) := by
  have ea : advanceContext v = completeContext (markedUnpaired k.unpaired v) := by
    rw [advanceContext_raised h hs, partnerCheck_fails hd hp, failPartner_hard hh]
  have hc : (markedUnpaired k.unpaired v).fader.context = some k.unpaired := rfl
  have hn := completeContext_context (markedUnpaired k.unpaired v)
  have e : faderAdvanced v = completeContext (markedUnpaired k.unpaired v) := by
    rw [faderAdvanced, ea, formValues_none hn, completeIfDue_none hn]
  obtain ⟨hf, hq, hg, -⟩ := faderBoundary_leaves v
  rw [e] at hf hq hg
  have he : (completeContext (markedUnpaired k.unpaired v)).fader = v.fader.ended k :=
    (completeContext_fader hc).trans rfl
  refine ⟨hf.trans he, ?_, fun h0 q hm hx => ?_⟩
  · have hw := (completeContext_frame (markedUnpaired k.unpaired v)).same .flags
    exact (congrArg (BitVec.getLsbD · _) (hg.trans hw)).trans (markedUnpaired_flag k.unpaired v)
  · rw [hq]
    exact completeContext_done hc h0 (markedUnpaired_mem hm hx) hx

theorem faderBoundary_idle (h : v.fader.context = none) : (faderBoundary v).fader = v.fader := by
  rw [(faderBoundary_leaves v).1, faderAdvanced, advanceContext_none h, formValues_none h, completeIfDue_none h]

/-- A context that has started at this boundary keeps its k (R157). -/
theorem faderBoundary_started (h : v.fader.context = some k) (hs : k.start = v.time.fieldCount)
    (hk : k.k < k.params.duration) : (faderBoundary v).fader.context = some k := by
  rw [(faderBoundary_leaves v).1, faderAdvanced, advanceContext_started h hs,
    formValues_holding (Fader.holding_self h), completeIfDue_running (k := k) rfl hk]
  rfl

end

/-! ### The pulses of the outputs -/

section
variable {fc : Word16} {o : GpiOutput} {p : Pulse}

theorem GpiOutput.boundary_idle (h : o.pulse = none) : o.boundary fc = o := by rw [GpiOutput.boundary, h]

theorem GpiOutput.boundary_started (h : o.pulse = some p) (hs : p.start = fc) : o.boundary fc = o := by
  rw [GpiOutput.boundary, h]
  exact if_pos hs

theorem GpiOutput.boundary_ends (h : o.pulse = some p) (hs : p.start ≠ fc) (hc : p.count ≤ 1) :
    o.boundary fc = { o with pulse := none } := by
  have e : p.count - 1 = 0 := by omega
  rw [GpiOutput.boundary, h, ← endPulse_ended (o := { o with pulse := some { count := 0, start := p.start } }) rfl, ← e]
  exact if_neg hs

theorem GpiOutput.boundary_runs (h : o.pulse = some p) (hs : p.start ≠ fc) (hc : 1 < p.count) :
    o.boundary fc = { o with pulse := some { p with count := p.count - 1 } } := by
  rw [GpiOutput.boundary, h]
  exact (if_neg hs).trans (if_neg (show ¬p.count - 1 = 0 by omega))

theorem GpiOutput.boundary_wiring : (o.boundary fc).source = o.source ∧ (o.boundary fc).pattern = o.pattern := by
  cases h : o.pulse with
  | none => rw [GpiOutput.boundary_idle h]; exact ⟨rfl, rfl⟩
  | some p =>
    by_cases hs : p.start = fc
    · rw [GpiOutput.boundary_started h hs]; exact ⟨rfl, rfl⟩
    · by_cases hc : p.count ≤ 1
      · rw [GpiOutput.boundary_ends h hs hc]; exact ⟨rfl, rfl⟩
      · rw [GpiOutput.boundary_runs h hs (Nat.not_le.mp hc)]; exact ⟨rfl, rfl⟩

end

theorem gpiBoundary_output (s : State) (line : GpiLine) :
    (gpiBoundary s).gpi.outputs[line] = (s.gpi.outputs[line]).boundary s.time.fieldCount := Vector.getElem_map _ _

end Sys2Proof.Machine

/-! O11. The Source Fader among the takers of a boundary. -/

namespace Sys2Proof.Machine

set_option Elab.async false

/-- The boundary of c in s, which ends in t: the Source Fader takes it in v. -/
structure FaderRun (c : Instr) (s t v : State) (rank : Taker → Nat) (pre post : List Taker) : Prop where
  step : exec c s = .next t
  field : t.time.fieldCount = s.time.fieldCount + 1
  split : SplitAt rank .fader pre post
  before : v = runTakers pre (boundaryStart c s t)
  after : t = runTakers post (faderBoundary v)

/-- The boundary of c in s, which ends in t: the GPI Unit takes it in v. -/
structure GpiRun (c : Instr) (s t v : State) (rank : Taker → Nat) (pre post : List Taker) : Prop where
  split : SplitAt rank .gpi pre post
  before : v = runTakers pre (boundaryStart c s t)
  after : t = runTakers post (gpiBoundary v)

theorem boundary_fader {c : Instr} {s : State} (hr : Running s) (hm : MakesBoundary c s) :
    ∃ t v w rank pre post pre' post', FaderRun c s t v rank pre post ∧ GpiRun c s t w rank pre' post' := by
  obtain ⟨t, rank, e, hfc, split⟩ := boundary_split hr hm
  obtain ⟨pre, post, h⟩ := takerOrder_split rank .fader
  obtain ⟨pre', post', k⟩ := takerOrder_split rank .gpi
  exact ⟨t, _, _, rank, pre, post, pre', post', ⟨e, hfc, h, rfl, split _ _ _ h⟩, ⟨k, rfl, split _ _ _ k⟩⟩

/-- No timed cue waits in any state of a boundary at whose start none waits. -/
theorem runTakers_no_timed (order : List Taker) {s : State} (h : NoTimedCue s) : NoTimedCue (runTakers order s) :=
  runTakers_holds (I := NoTimedCue) (fun x _ _ q => takeBoundary_untimed x q) h

/-- The takers about one that alone writes a part where no timed cue waits leave that part. -/
theorem SplitAt.untimed_same {rank : Taker → Nat} {x : Taker} {pre post : List Taker} (h : SplitAt rank x pre post)
    {p : Part} (only : ∀ y, p ∈ untimedParts y → y = x) {s : State} (hn : NoTimedCue s) :
    Part.Same s (runTakers pre s) p ∧ Part.Same s (runTakers post s) p :=
  ⟨runTakers_untimed_same p (fun y hy k => h.pre (only y k ▸ hy)) hn,
    runTakers_untimed_same p (fun y hy k => h.post (only y k ▸ hy)) hn⟩

theorem fader_alone (y : Taker) (h : Part.fader ∈ untimedParts y) : y = .fader := by
  cases y <;> simp [untimedParts, takerParts, evaluateParts, locateParts] at h; rfl

theorem mix_alone (y : Taker) (h : Part.mix ∈ untimedParts y) : y = .fader := by
  cases y <;> simp [untimedParts, takerParts, evaluateParts, locateParts] at h; rfl

theorem outputs_alone (y : Taker) (h : Part.outputs ∈ untimedParts y) : y = .gpi := by
  cases y <;> simp [untimedParts, takerParts, evaluateParts, locateParts] at h; rfl

section
variable {c : Instr} {s t v : State} {rank : Taker → Nat} {pre post : List Taker}
  (h : FaderRun c s t v rank pre post) (hn : NoTimedCue s)

include h in
theorem FaderRun.time : v.time = t.time := by
  have k := runTakers_keeps pre (boundaryStart c s t)
  rw [← h.before] at k
  exact k.time

include h in
theorem FaderRun.count : v.time.fieldCount = s.time.fieldCount + 1 :=
  (congrArg Timebase.fieldCount h.time).trans h.field

include h in
theorem FaderRun.flag : hasFlag v .unpaired = hasFlag s .unpaired
    ∧ hasFlag t .unpaired = hasFlag (faderBoundary v) .unpaired := by
  have only (y : Taker) (k : Detail.flag .unpaired ∈ takerDetails y) : y = .fader := by
    cases y <;> simp [takerDetails, fireDetails] at k; rfl
  have k1 := (h.split.detail only (boundaryStart c s t)).1
  have k2 := (h.split.detail only (faderBoundary v)).2
  rw [← h.before] at k1
  rw [← h.after] at k2
  exact ⟨Eq.trans k1 ((boundaryStart_details c s t).same (.flag .unpaired)), k2⟩

include h in
theorem FaderRun.confirms (k : Context) : PartnerConfirms k v ↔ PartnerConfirms k s := by
  have hb := runTakers_bulletins pre (boundaryStart c s t)
  rw [← h.before] at hb
  have hp : (boundaryStart c s t).peers = s.peers := (boundaryStart_frame c s t).same .peers
  exact partnerConfirms_congr fun st => by rw [← hp]; exact hb st

include h in
theorem FaderRun.pairAfter {k : Context} {pair : PairStatus} (hp : PairAfter k s pair) : PairAfter k v pair := by
  unfold PairAfter
  rw [h.confirms k]
  exact hp

include h hn

theorem FaderRun.untimed : NoTimedCue (faderBoundary v) := by
  have k := runTakers_no_timed pre (boundaryStart_untimed (c := c) hn t)
  rw [← h.before] at k
  exact takeBoundary_untimed .fader k

theorem FaderRun.fader : v.fader = s.fader ∧ t.fader = (faderBoundary v).fader := by
  have k1 := (h.split.untimed_same fader_alone (boundaryStart_untimed (c := c) hn t)).1
  have k2 := (h.split.untimed_same fader_alone (h.untimed hn)).2
  rw [← h.before] at k1
  rw [← h.after] at k2
  exact ⟨Eq.trans k1 ((boundaryStart_frame c s t).same .fader), k2⟩

theorem FaderRun.mix : v.mix = s.mix ∧ t.mix = (faderBoundary v).mix := by
  have k1 := (h.split.untimed_same mix_alone (boundaryStart_untimed (c := c) hn t)).1
  have k2 := (h.split.untimed_same mix_alone (h.untimed hn)).2
  rw [← h.before] at k1
  rw [← h.after] at k2
  exact ⟨Eq.trans k1 ((boundaryStart_frame c s t).same .mix), k2⟩

theorem FaderRun.others : OthersStay s v ∧ OthersStay (faderBoundary v) t := by
  have k1 := runTakers_othersStay h.split.pre (boundaryStart_untimed (c := c) hn t)
  have k2 := runTakers_othersStay h.split.post (h.untimed hn)
  rw [← h.before] at k1
  rw [← h.after] at k2
  exact ⟨(boundaryStart_frame c s t).othersStay.trans k1, k2⟩

/-- A TRANSITION cue under way is in the list that the Source Fader finds. -/
theorem FaderRun.transits {tag : Byte} {q : Cue} (hq : q ∈ s.cues.list) (hx : q.transiting tag = true) :
    q ∈ v.cues.list := (h.others hn).1 q hq (transiting_not_recording hx).2

/-- A new record holds the values as they stand after the boundary (R170). -/
theorem FaderRun.newRecord (hs : s.mix.sending = none) : t.mix.sending = some (mixRecordNow t) := by
  obtain ⟨hv, ht⟩ := h.mix hn
  have hf := (h.fader hn).2
  have htime : t.time = (faderBoundary v).time := by
    rw [← h.time]
    exact ((faderBoundary_frame v).same .time).symm
  have e : mixRecordNow (faderBoundary v) = mixRecordNow t := by
    unfold mixRecordNow shapeNow
    rw [hf, htime]
  rw [ht, faderBoundary_free (by rw [hv]; exact hs), e]

theorem FaderRun.recordGoesOn {m : MixRecord} (hs : s.mix.sending = some m) :
    t.mix.sending = some m ∧ t.mix.due = true := by
  obtain ⟨hv, ht⟩ := h.mix hn
  rw [ht]
  exact faderBoundary_busy (by rw [hv]; exact hs)

/-- A context that its check does not end, after the boundary (R157, R158, R168, R169). -/
theorem FaderRun.advanced {k : Context} {pair : PairStatus} (hk : s.fader.context = some k)
    (hs : k.start ≠ s.time.fieldCount + 1) (hp : PairAfter k s pair) :
    FaderTaken k { k with k := k.k + 1, pair := pair } v (faderBoundary v) :=
  faderBoundary_taken (by rw [(h.fader hn).1]; exact hk) (by rw [h.count]; exact hs) (h.pairAfter hp)

end

/-- The outputs at a boundary (R179). -/
theorem GpiRun.output {c : Instr} {s t v : State} {rank : Taker → Nat} {pre post : List Taker}
    (h : GpiRun c s t v rank pre post) (hn : NoTimedCue s) (line : GpiLine) :
    t.gpi.outputs[line] = (s.gpi.outputs[line]).boundary t.time.fieldCount := by
  have kv := runTakers_no_timed pre (boundaryStart_untimed (c := c) hn t)
  have k1 := (h.split.untimed_same outputs_alone (boundaryStart_untimed (c := c) hn t)).1
  have kt := (runTakers_keeps pre (boundaryStart c s t)).time
  rw [← h.before] at k1 kt kv
  have k2 := (h.split.untimed_same outputs_alone (takeBoundary_untimed .gpi kv)).2
  have hv : v.gpi.outputs = s.gpi.outputs := Eq.trans k1 ((boundaryStart_frame c s t).same .outputs)
  have ht : t.gpi.outputs = (gpiBoundary v).gpi.outputs := by
    rw [h.after]
    exact k2
  rw [ht, gpiBoundary_output, hv, kt]
  rfl

end Sys2Proof.Machine

/-! O11. The Source Fader at a boundary. -/

namespace Sys2Proof.Machine

set_option Elab.async false

section
variable {c : Instr} {s t v : State} {rank : Taker → Nat} {pre post : List Taker}
  (h : FaderRun c s t v rank pre post) (hn : NoTimedCue s)
include h hn

/-- The end of a context is reported to its cue (R150, R158). -/
theorem FaderRun.reported {k n : Context} (x : FaderTaken k n v (faderBoundary v)) (h0 : k.tag ≠ 0)
    (hd : n.params.duration ≤ n.k) {q : Cue} (hq : q ∈ s.cues.list) (ht : q.transiting k.tag = true) :
    HoldsTag t k.tag .done := by
  obtain ⟨d, hm, hr, hg, hs, hf⟩ := x.reported h0 hd q (h.transits hn hq ht) ht
  exact ⟨d, (h.others hn).2 d hm hr, hg, hs, fun _ => h.time ▸ hf⟩

theorem FaderRun.marked {k n : Context} (x : FaderTaken k n v (faderBoundary v)) (hu : FoundUnpaired k n.pair) {q : Cue}
    (hq : q ∈ s.cues.list) (ht : q.transiting k.tag = true) : ∃ d ∈ t.cues.list, d.tag = k.tag ∧ d.unpaired = true := by
  obtain ⟨d, hm, hr, hg, hs⟩ := x.marked hu q (h.transits hn hq ht) ht
  exact ⟨d, (h.others hn).2 d hm hr, hg, hs⟩

/-- A HARD context whose check fails, after the boundary (R169). -/
theorem FaderRun.hardEnd {k : Context} (hk : s.fader.context = some k) (hs : k.start ≠ s.time.fieldCount + 1)
    (hd : CheckDue k) (hp : ¬PartnerConfirms k s) (hh : k.hard = true) :
    t.fader = s.fader.ended k ∧ hasFlag t .unpaired = true
      ∧ (k.tag ≠ 0 → ∀ q ∈ s.cues.list, q.transiting k.tag = true →
          { q with unpaired := true, state := .done, finish := some (s.time.fieldCount + 1) } ∈ t.cues.list) := by
  obtain ⟨hv, ht⟩ := h.fader hn
  obtain ⟨hf, hg, hc⟩ := faderBoundary_hard (k := k) (v := v) (by rw [hv]; exact hk) (by rw [h.count]; exact hs) hd
    (fun q => hp ((h.confirms k).mp q)) hh
  refine ⟨by rw [ht, hf, hv], h.flag.2.trans hg, fun h0 q hq hx => ?_⟩
  have hm := hc h0 q (h.transits hn hq hx) hx
  rw [h.count] at hm
  exact (h.others hn).2 _ hm (finishAs_not_recording { q with unpaired := true } CueState.noConfusion _)

end

/-- Settles O11: the values of a context by its kind, direction and pattern; then the Source Fader's own act, which the
other takers leave where no timed cue fires. -/
theorem boundaryAdvancesFader : Obligations.BoundaryAdvancesFader := by
  unfold Obligations.BoundaryAdvancesFader
  refine ⟨fun k => ?_, fun q => ⟨rfl, rfl, rfl⟩, fun c s hr hm hn => ?_⟩
  · intro p lo lt
    refine ⟨fun hk => ?_, fun hk => ⟨Context.wipe_softness hk, fun hd => Context.wipe_in hk hd,
      fun hd => Context.wipe_out hk hd, fun hp => Context.sparkle hk hp, fun hp => Context.spans hk hp⟩⟩
    obtain ⟨hl, hshare, hw, hi, hsoft, hshape⟩ := Context.dissolve hk
    exact ⟨hl.trans (dissolveLevel_eq lo lt p), hshare, hw, hi, hsoft, hshape⟩
  · intro fc
    obtain ⟨t, v, w, rank, pre, post, pre', post', h, hg⟩ := boundary_fader hr hm
    obtain ⟨hv, ht⟩ := h.fader hn
    refine ⟨t, h.step, fun hc => ?_, fun hs => ?_, fun m hs => h.recordGoesOn hn hs, fun k hk hs hd => ?_,
      fun k pair hk hs hp => ?_, fun k hk hs hd hp hh => h.hardEnd hn hk hs hd hp hh, fun line => ?_⟩
    · rw [ht, faderBoundary_idle (by rw [hv]; exact hc), hv]
    · exact ⟨_, h.newRecord hn hs, rfl, rfl, rfl, rfl, rfl, rfl, rfl⟩
    · rw [ht]
      exact faderBoundary_started (by rw [hv]; exact hk) (by rw [h.count]; exact hs) hd
    · intro n
      have x : FaderTaken k n v (faderBoundary v) := h.advanced hn hk hs hp
      refine ⟨fun hd => ?_, fun hd => ?_, fun h0 hd q hq hx => h.reported hn x h0 hd hq hx, fun hu => ?_,
        fun hu => ⟨h.flag.2.trans (x.flagged hu), fun q hq hx => h.marked hn x hu hq hx⟩⟩
      · rw [ht, x.running hd, hv]
        rfl
      · rw [ht, x.ended hd, hv]
      · exact (h.flag.2.trans (x.quiet hu)).trans h.flag.1
    · have hfc : t.time.fieldCount = fc := h.field
      have e := hg.output hn line
      rw [hfc] at e
      obtain ⟨hsource, hpattern⟩ := GpiOutput.boundary_wiring (fc := fc) (o := s.gpi.outputs[line])
      rw [e]
      refine ⟨hsource, hpattern, fun hp => ?_, fun p hp => ⟨fun hs => ?_, fun hs hc => ?_, fun hs hc => ?_⟩⟩
      · rw [GpiOutput.boundary_idle hp]
        exact hp
      · rw [GpiOutput.boundary_started hp hs]
        exact hp
      · rw [GpiOutput.boundary_ends hp hs hc]
      · rw [GpiOutput.boundary_runs hp hs hc]

end Sys2Proof.Machine
